-- ==== Sys2Proof/Word.lean ====
section
/-! DEFINITION. The words of the engine (R12: every register is 64 bits wide, bit 0 least
significant) and the plain shapes every other file is written in: bytes, the sparse map, the
identifiers of R7 as natural numbers. -/

namespace Sys2Proof

/-- A register word: 64 bits, little-endian (R12). -/
abbrev W := BitVec 64

/-- A scalar word of a core: 32 bits (the table of state in "The core"). -/
abbrev W32 := BitVec 32

/-- A byte of memory. -/
abbrev Byte := BitVec 8

/-- A sparse map: pairs of key and value, keys strictly rising, no pair that equals what an
unlisted key reads as. The canonical form is `SMap.wf`; the operations are in Machine/Ops.lean. -/
abbrev SMap (α : Type) := List (Nat × α)

/-- Bits `[lo + n - 1 : lo]` of a natural number. -/
def bits (x lo n : Nat) : Nat := (x >>> lo) % 2 ^ n

/-- Bit `i` of a register word. -/
def bit (w : W) (i : Nat) : Bool := w.getLsbD i

/-- The field `[lo + n - 1 : lo]` of a register word, as a number. -/
def fld (w : W) (lo n : Nat) : Nat := bits w.toNat lo n

/-- A word with bit `i` set. -/
def setBit (w : W) (i : Nat) : W := w ||| (1#64 <<< i)

/-- A word with bit `i` clear. -/
def clrBit (w : W) (i : Nat) : W := w &&& ~~~(1#64 <<< i)

/-- A word with its field `[lo + n - 1 : lo]` replaced by `v`. -/
def putFld (w : W) (lo n v : Nat) : W :=
  let m : W := BitVec.ofNat 64 ((2 ^ n - 1) <<< lo)
  (w &&& ~~~m) ||| (BitVec.ofNat 64 (v <<< lo) &&& m)

/-- `1` for true. -/
def b2n (b : Bool) : Nat := if b then 1 else 0

/-- A field of a little-endian record given as one wide word: `len` bytes from byte `off`. -/
def recFld {n : Nat} (r : BitVec n) (off len : Nat) : Nat := bits r.toNat (8 * off) (8 * len)

end Sys2Proof
end

