-- ==== Sys2Proof/Syntax.lean ====
section
/-! DEFINITION. The commands of the block: one constructor per row of spec/opcode_table.json.

Operand names: `cl` a physical cluster (96 y + x, R7), `core` a physical core of it, `w` the bits
[55:0] of an instruction (R97), `v` the 64-bit value written, `wr` a write (`some`) or a read
(`none`), `f` a field, `b` a bay, `t` a tint of a gable, `p` an eave port, `qa` a queue address
(R129), `pg` a register page, `off` a BAR0 offset; a row whose operand is an event's outcome carries
what the environment supplies (a time, a measurement, a frame, host data). -/

namespace Sys2Proof

/-- A register page of R467 that has CTRL.ENABLE or SOFT_RESET. -/
inductive PageRef where
  | dev | hib | bringup | timekeeper | sec | meter | power
  | gable (t : Nat)
  | eave (p : Nat)
  | field (f : Nat)
  | bay (b : Nat)
  | baymem (b : Nat)
  | cluster (cl : Nat)
  | weave (cl : Nat)
  | dma (cl : Nat) (n : Nat)
  | gutter (cl : Nat)
  | thatcher (cl : Nat)
  | skylight (cl : Nat)
  | ctu (cl : Nat)
  deriving DecidableEq, Repr

/-- A received DATA frame or ACK as the port sees it (R401, R403, R404): the checks its link layer
made, its addresses and ports, the 32-byte header, the body and the tag. -/
structure RxFrame where
  /-- codewords the FEC corrected -/
  fecCorr : Nat := 0
  fecOk : Bool
  fcsOk : Bool
  len : Nat
  destMac : BitVec 48
  tags : Nat
  pause : Bool
  etherType : Nat
  ipDst : BitVec 128
  ipExt : Bool
  udp : Bool
  udpPort : Nat
  csumOk : Bool
  ce : Bool
  header : BitVec 256
  body : List Byte
  tag : BitVec 128
  deriving DecidableEq, Repr

/-- A read of `size` bytes at an offset of the host's address map (R473). -/
structure BusRead where
  off : Nat
  size : Nat
  deriving DecidableEq, Repr

/-- A Translation Completion (R258): `none` of the address is no translation; otherwise host address,
log2 of the size, read and write permission. -/
structure AtsGrant where
  addr : Option Nat
  log2 : Nat
  r : Bool
  w : Bool
  deriving DecidableEq, Repr

/-- What the training of links meets (R327, R330): a link that does not train, named by one of its ends, or a wire that
fails in the direction of port `p` of cluster `cl`. -/
inductive LinkFail where
  | link (cl p : Nat)
  | wire (cl p w : Nat)
  deriving DecidableEq, Repr

/-- What a self test finds (R546): failing cores as 136 × cluster + core, failing clusters as 2 × cluster, plus 1 when
the router fails. -/
structure TestFails where
  cores : List Nat
  clusters : List Nat
  deriving DecidableEq, Repr

/-- The commands: one constructor per row of the command table. -/
inductive Instr where
  /-- ADD, R647: Core instruction: RD gets RS1 plus b, modulo 2^32. -/
  | add (cl : Nat) (core : Nat) (w : BitVec 56)
  /-- SUB, R647: Core instruction: RD gets RS1 minus b, modulo 2^32. -/
  | sub (cl : Nat) (core : Nat) (w : BitVec 56)
  /-- AND, R647: Core instruction: bitwise and of RS1 and b into RD. -/
  | and (cl : Nat) (core : Nat) (w : BitVec 56)
  /-- OR, R647: Core instruction: bitwise or of RS1 and b into RD. -/
  | or (cl : Nat) (core : Nat) (w : BitVec 56)
  /-- XOR, R647: Core instruction: bitwise exclusive or of RS1 and b into RD. -/
  | xor (cl : Nat) (core : Nat) (w : BitVec 56)
  /-- SHL, R647: Core instruction: RS1 shifted left by b[4:0] into RD. -/
  | shl (cl : Nat) (core : Nat) (w : BitVec 56)
  /-- SHR, R647: Core instruction: RS1 shifted right logically by b[4:0] into RD. -/
  | shr (cl : Nat) (core : Nat) (w : BitVec 56)
  /-- SRA, R647: Core instruction: RS1 shifted right arithmetically by b[4:0] into RD. -/
  | sra (cl : Nat) (core : Nat) (w : BitVec 56)
  /-- SLT, R647: Core instruction: RD gets 1 when RS1 is less than b, signed. -/
  | slt (cl : Nat) (core : Nat) (w : BitVec 56)
  /-- SLTU, R647: Core instruction: RD gets 1 when RS1 is less than b, unsigned. -/
  | sltu (cl : Nat) (core : Nat) (w : BitVec 56)
  /-- SEQ, R647: Core instruction: RD gets 1 when RS1 equals b. -/
  | seq (cl : Nat) (core : Nat) (w : BitVec 56)
  /-- MIN, R647: Core instruction: the signed lesser of RS1 and b into RD. -/
  | min (cl : Nat) (core : Nat) (w : BitVec 56)
  /-- MAX, R647: Core instruction: the signed greater of RS1 and b into RD. -/
  | max (cl : Nat) (core : Nat) (w : BitVec 56)
  /-- MUL, R647: Core instruction: low 32 bits of RS1 times b into RD. -/
  | mul (cl : Nat) (core : Nat) (w : BitVec 56)
  /-- LI, R647: Core instruction: RD gets IMM. -/
  | li (cl : Nat) (core : Nat) (w : BitVec 56)
  /-- FADD, R647: Core instruction: FP32 sum of RS1 and b, rounded to nearest even. -/
  | fadd (cl : Nat) (core : Nat) (w : BitVec 56)
  /-- FSUB, R647: Core instruction: FP32 difference of RS1 and b. -/
  | fsub (cl : Nat) (core : Nat) (w : BitVec 56)
  /-- FMUL, R647: Core instruction: FP32 product of RS1 and b. -/
  | fmul (cl : Nat) (core : Nat) (w : BitVec 56)
  /-- FFMA, R647: Core instruction: RS1 times b plus RD with one rounding. -/
  | ffma (cl : Nat) (core : Nat) (w : BitVec 56)
  /-- FMIN, R647: Core instruction: IEEE 754-2019 minimum of RS1 and b. -/
  | fmin (cl : Nat) (core : Nat) (w : BitVec 56)
  /-- FMAX, R647: Core instruction: IEEE 754-2019 maximum of RS1 and b. -/
  | fmax (cl : Nat) (core : Nat) (w : BitVec 56)
  /-- F2I, R647: Core instruction: converts FP32 RS1 to INT32 under R59 and R60. -/
  | f2i (cl : Nat) (core : Nat) (w : BitVec 56)
  /-- I2F, R647: Core instruction: converts signed INT32 RS1 to FP32. -/
  | i2f (cl : Nat) (core : Nat) (w : BitVec 56)
  /-- LD_B, R647: Core instruction: loads a zero-extended byte into RD. -/
  | ldB (cl : Nat) (core : Nat) (w : BitVec 56)
  /-- LD_H, R647: Core instruction: loads a zero-extended 16-bit value into RD. -/
  | ldH (cl : Nat) (core : Nat) (w : BitVec 56)
  /-- LD_W, R647: Core instruction: loads a 32-bit word into RD. -/
  | ldW (cl : Nat) (core : Nat) (w : BitVec 56)
  /-- ST_B, R647: Core instruction: stores RD[7:0] at the address. -/
  | stB (cl : Nat) (core : Nat) (w : BitVec 56)
  /-- ST_H, R647: Core instruction: stores RD[15:0] at the address. -/
  | stH (cl : Nat) (core : Nat) (w : BitVec 56)
  /-- ST_W, R647: Core instruction: stores RD[31:0] at the address. -/
  | stW (cl : Nat) (core : Nat) (w : BitVec 56)
  /-- AADD, R647: Core instruction: adds b to an address register. -/
  | aadd (cl : Nat) (core : Nat) (w : BitVec 56)
  /-- AMOV_SA, R647: Core instruction: copies RS1 into an address register. -/
  | amovSa (cl : Nat) (core : Nat) (w : BitVec 56)
  /-- AMOV_AS, R647: Core instruction: copies an address register into RD. -/
  | amovAs (cl : Nat) (core : Nat) (w : BitVec 56)
  /-- ALI, R647: Core instruction: loads IMM into an address register. -/
  | ali (cl : Nat) (core : Nat) (w : BitVec 56)
  /-- J, R647: Core instruction: jumps to PC plus IMM. -/
  | j (cl : Nat) (core : Nat) (w : BitVec 56)
  /-- JR, R647: Core instruction: jumps to RS1 plus IMM. -/
  | jr (cl : Nat) (core : Nat) (w : BitVec 56)
  /-- BEQ, R647: Core instruction: branches when RS1 equals RS2. -/
  | beq (cl : Nat) (core : Nat) (w : BitVec 56)
  /-- BNE, R647: Core instruction: branches when RS1 differs from RS2. -/
  | bne (cl : Nat) (core : Nat) (w : BitVec 56)
  /-- BLT, R647: Core instruction: branches when RS1 is less than RS2, signed. -/
  | blt (cl : Nat) (core : Nat) (w : BitVec 56)
  /-- BGE, R647: Core instruction: branches when RS1 is at least RS2, signed. -/
  | bge (cl : Nat) (core : Nat) (w : BitVec 56)
  /-- LOOP, R99: Core instruction: repeats the following body RS1 times with up to two nested levels. -/
  | loop (cl : Nat) (core : Nat) (w : BitVec 56)
  /-- STOP, R125: Core instruction: stops the core with STOP_CAUSE DONE. -/
  | stop (cl : Nat) (core : Nat) (w : BitVec 56)
  /-- TMUL_ACC, R101: Tensor instruction accumulating an M by N block of dot products onto the accumulator entries. -/
  | tmulAcc (cl : Nat) (core : Nat) (w : BitVec 56)
  /-- TMUL_ZERO, R101: Tensor instruction computing an M by N block of dot products from +0. -/
  | tmulZero (cl : Nat) (core : Nat) (w : BitVec 56)
  /-- TENSOR_INSTRUCTION_END, R107: A tensor, accumulator or conversion instruction finishes its occupancy and its results become readable. -/
  | tensorInstructionEnd (cl : Nat) (core : Nat)
  /-- ACC_CLR, R109: Accumulator instruction writing +0 to n entries. -/
  | accClr (cl : Nat) (core : Nat) (w : BitVec 56)
  /-- ACC_LD, R109: Accumulator instruction copying n words from a core address into entries. -/
  | accLd (cl : Nat) (core : Nat) (w : BitVec 56)
  /-- ACC_ST, R109: Accumulator instruction copying n entries to a core address. -/
  | accSt (cl : Nat) (core : Nat) (w : BitVec 56)
  /-- ACC_SEND, R138: Accumulator instruction pushing n entries onto a weave output queue as items. -/
  | accSend (cl : Nat) (core : Nat) (w : BitVec 56)
  /-- CVT_ACC, R110: Converts n accumulator entries to a format and writes them at a core address. -/
  | cvtAcc (cl : Nat) (core : Nat) (w : BitVec 56)
  /-- CVT_LM, R110: Converts n elements between two core addresses. -/
  | cvtLm (cl : Nat) (core : Nat) (w : BitVec 56)
  /-- QRECV, R135: Moves n items from an input queue into local memory. -/
  | qrecv (cl : Nat) (core : Nat) (w : BitVec 56)
  /-- QSEND, R135: Moves n items from local memory to an output queue. -/
  | qsend (cl : Nat) (core : Nat) (w : BitVec 56)
  /-- QPOP_S, R135: Removes one item from an input queue and writes its first word to a register. -/
  | qpopS (cl : Nat) (core : Nat) (w : BitVec 56)
  /-- QPUSH_S, R135: Sends one item holding a register value to an output queue. -/
  | qpushS (cl : Nat) (core : Nat) (w : BitVec 56)
  /-- FSET, R118: Sets a core flag or rings a unit doorbell once earlier stores are visible. -/
  | fset (cl : Nat) (core : Nat) (w : BitVec 56)
  /-- FCLR, R116: Applies one clear to an own flag. -/
  | fclr (cl : Nat) (core : Nat) (w : BitVec 56)
  /-- FWAIT, R119: Waits until an own flag is set, leaving it unchanged. -/
  | fwait (cl : Nat) (core : Nat) (w : BitVec 56)
  /-- FWAITC, R119: Waits until an own flag is set and then applies one clear. -/
  | fwaitc (cl : Nat) (core : Nat) (w : BitVec 56)
  /-- FTEST, R119: Writes a flag's state and count to RD without waiting. -/
  | ftest (cl : Nat) (core : Nat) (w : BitVec 56)
  /-- FLAG_WAIT_END, R119: A core waiting on a flag resumes issuing once the flag is set. -/
  | flagWaitEnd (cl : Nat) (core : Nat) (n : Nat)
  /-- VFSET, R121: Sets the native flag named by a virtual flag table entry. -/
  | vfset (cl : Nat) (core : Nat) (w : BitVec 56)
  /-- VFCLR, R121: Clears the native flag named by a virtual flag entry. -/
  | vfclr (cl : Nat) (core : Nat) (w : BitVec 56)
  /-- VFWAIT, R121: Waits on the native flag named by a virtual flag entry. -/
  | vfwait (cl : Nat) (core : Nat) (w : BitVec 56)
  /-- VFWAITC, R121: Waits on and then clears the native flag named by a virtual flag entry. -/
  | vfwaitc (cl : Nat) (core : Nat) (w : BitVec 56)
  /-- NOP, R97: Core instruction doing nothing. -/
  | nop (cl : Nat) (core : Nat) (w : BitVec 56)
  /-- HINT, R123: Stamps a load hint and places it in the cluster's hint queue, dropping the oldest when full. -/
  | hint (cl : Nat) (core : Nat) (w : BitVec 56)
  /-- ASCLR, R112: Clears the selected CL_CORE_ASTAT bits as a host write would. -/
  | asclr (cl : Nat) (core : Nat) (w : BitVec 56)
  /-- CORE_RUN, R128: CL_CORE_CTRL.RUN starts a stopped core at CL_CORE_PC. -/
  | coreRun (cl : Nat) (v : W)
  /-- CORE_HOST_STOP, R128: CL_CORE_CTRL.STOP stops the core with STOP_CAUSE HOST within 4 cycles. -/
  | coreHostStop (cl : Nat) (v : W)
  /-- CORE_RESET, R92: CL_CORE_CTRL.CORE_RESET starts zeroing the core's local memory and accumulators. -/
  | coreReset (cl : Nat) (v : W)
  /-- CORE_RESET_COMPLETE, R92: A core reset finishes after 3,072 cycles and the core reads STOPPED. -/
  | coreResetComplete (cl : Nat) (core : Nat)
  /-- O2_MODE_WRITE, R128: A write of CL_CORE_CTRL without action bits sets O2_MODE to the written value. -/
  | o2ModeWrite (cl : Nat) (v : W)
  /-- CORE_FLAG_SET, R115: CL_CORE_FLAG_CMD.SET applies a set to a core flag. -/
  | coreFlagSet (cl : Nat) (v : W)
  /-- CORE_FLAG_CLR, R116: CL_CORE_FLAG_CMD.CLR applies a clear to a core flag. -/
  | coreFlagClr (cl : Nat) (v : W)
  /-- LM_DATA_ACCESS, R128: Access to CL_CORE_LM_DATA reads or writes a local memory word and advances the address. -/
  | lmDataAccess (cl : Nat) (wr : Option W)
  /-- ACC_DATA_ACCESS, R128: Access to CL_CORE_ACC_DATA reads or writes an accumulator entry and advances the entry. -/
  | accDataAccess (cl : Nat) (wr : Option W)
  /-- CLUSTER_START, R201: CL_START.RUN starts every stopped logical core of the cluster in the same cycle. -/
  | clusterStart (cl : Nat) (v : W)
  /-- CLUSTER_STOP, R201: CL_START.STOP stops every running core of the cluster. -/
  | clusterStop (cl : Nat) (v : W)
  /-- HALT_N_FALL, R360: HALT_N held low raises the engine halt, broadcast over the ridge tree. -/
  | haltNFall
  /-- HALT_N_RISE, R359: HALT_N returning high releases the halt if DEV_HALT.HALT is 0. -/
  | haltNRise
  /-- DEV_HALT_SET, R359: A write of DEV_HALT.HALT = 1 raises the engine halt. -/
  | devHaltSet
  /-- DEV_HALT_CLEAR, R359: A write of DEV_HALT.HALT = 0 releases the halt if HALT_N is high. -/
  | devHaltClear
  /-- HALTED_SET, R495: Once every reachable cluster acknowledges the halt, HALTED reads 1. -/
  | haltedSet
  /-- CTX_ARM, R154: WV_CTX_CMD.ARM runs the consistency check on a weave context image. -/
  | ctxArm (cl : Nat) (v : W)
  /-- CTX_INVALIDATE, R154: WV_CTX_CMD.INVALIDATE makes a weave context invalid. -/
  | ctxInvalidate (cl : Nat) (v : W)
  /-- CTX_SWITCH, R156: WV_CTX_CMD.SWITCH makes a valid weave context active. -/
  | ctxSwitch (cl : Nat) (v : W)
  /-- CTX_DATA_ACCESS, R153: Access to WV_CTX_DATA reads or writes a context image word and advances WORD. -/
  | ctxDataAccess (cl : Nat) (wr : Option W)
  /-- CONTEXT_END_SWITCH, R156: An ended context whose streams are done switches to context NEXT. -/
  | contextEndSwitch (cl : Nat)
  /-- WEAVE_ITEM_SEND, R132: An output queue sends its head item to all destinations once each has a free entry. -/
  | weaveItemSend (cl : Nat) (qa : Nat)
  /-- STEERING_FIRE, R147: A steering unit consumes a token, sends the selected item and discards or owes the other. -/
  | steeringFire (cl : Nat) (su : Nat)
  /-- SFU_FIRE, R145: A special-function unit consumes its input items and produces a result item. -/
  | sfuFire (cl : Nat) (sfu : Nat)
  /-- STORE_PORT_ACCESS, R141: A store port in ACCESS mode serves a core's cluster-store access. -/
  | storePortAccess (cl : Nat) (sp : Nat) (ns : List Nat)
  /-- READ_STREAM, R142: A store port reads the next stream item from the cluster store and sends it. -/
  | readStream (cl : Nat) (sp : Nat)
  /-- WRITE_STREAM, R142: A store port writes an arriving item into the cluster store in stream order. -/
  | writeStream (cl : Nat) (sp : Nat)
  /-- SLACK_PASS, R143: A SLACK port takes in or sends out an item through its FIFO region. -/
  | slackPass (cl : Nat) (sp : Nat) (flag : Bool)
  /-- MESH_PORT_PACKET_CLOSE, R144: A mesh port closes a packet at MAX_ITEMS or LAST and injects it. -/
  | meshPortPacketClose (cl : Nat) (mp : Nat)
  /-- BALANCE_FAULT, R165: A unit's continuous-wait count exceeds BALANCE_LIMIT and the weave freezes. -/
  | balanceFault (cl : Nat) (n : Nat) (m : Nat) (k : Nat)
  /-- WEAVE_FREEZE, R158: Setting CTRL.FREEZE on the WEAVE page stops items being sent. -/
  | weaveFreeze (cl : Nat)
  /-- DMA_TAIL_WRITE, R174: A host write of DMA_Qq_TAIL rings a DMA ring doorbell. -/
  | dmaTailWrite (cl : Nat) (eng : Nat) (ring : Nat) (v : W)
  /-- DMA_PAUSE, R178: Setting PAUSE on a ring lets the descriptor in progress finish and starts no more. -/
  | dmaPause (cl : Nat) (eng : Nat) (ring : Nat)
  /-- COPY, R263: DMA descriptor moving ROWS rows of LENGTH bytes, optionally converting. -/
  | copy (cl : Nat) (eng : Nat) (ring : Nat)
  /-- FILL, R263: DMA descriptor writing a repeated 8-byte pattern. -/
  | fill (cl : Nat) (eng : Nat) (ring : Nat)
  /-- DMA_DESC_COMPLETE, R175: A descriptor's writes become visible; HEAD advances and its flag is set. -/
  | dmaDescComplete (cl : Nat) (eng : Nat) (ring : Nat)
  /-- GUTTER_TAIL_WRITE, R203: A host write of GT_Q_TAIL rings the gutter ring. -/
  | gutterTailWrite (cl : Nat) (v : W)
  /-- QUANT, R181: Gutter command quantising FP32 values into 64-bit lanes under SCALE_EXP. -/
  | quant (cl : Nat)
  /-- IADD, R179: Gutter command adding two lane vectors modulo 2^64. -/
  | iadd (cl : Nat)
  /-- DEQUANT, R179: Gutter command converting lanes back to FP32 under SCALE_EXP. -/
  | dequant (cl : Nat)
  /-- PACK48, R182: Gutter command packing lanes into 48-bit integers. -/
  | pack48 (cl : Nat)
  /-- UNPACK48, R179: Gutter command unpacking 48-bit integers into sign-extended lanes. -/
  | unpack48 (cl : Nat)
  /-- FSUM, R186: Gutter command summing NSRC FP32 vectors in ascending order. -/
  | fsum (cl : Nat)
  /-- VDOT, R183: Gutter command adding exact products to a valley. -/
  | vdot (cl : Nat)
  /-- VADD, R183: Gutter command adding values to a valley. -/
  | vadd (cl : Nat)
  /-- VMERGE, R82: Gutter command adding one valley into another. -/
  | vmerge (cl : Nat)
  /-- VREAD, R83: Gutter command writing a valley out as FP32 or raw. -/
  | vread (cl : Nat)
  /-- VCLR, R179: Gutter command clearing a valley. -/
  | vclr (cl : Nat)
  /-- VADDRAW, R180: Gutter command adding a raw valley image to a valley. -/
  | vaddraw (cl : Nat)
  /-- GUTTER_CMD_COMPLETE, R184: A gutter command completes in ring order and sets its DONE_FLAG. -/
  | gutterCmdComplete (cl : Nat)
  /-- SLOT_ENABLE, R189: Setting GT_SLOTs_CFG.ENABLE checks the slot and zeroes its packet count. -/
  | slotEnable (cl : Nat) (slot : Nat) (v : W)
  /-- FLAG_SET_APPLY, R198: The flag unit applies pending sets to flags and doorbells. -/
  | flagSetApply (cl : Nat)
  /-- VFT_DATA_ACCESS, R199: Access to CL_VFT_DATA reads or writes four virtual flag entries and advances WORD. -/
  | vftDataAccess (cl : Nat) (wr : Option W)
  /-- THATCHER_TAIL_WRITE, R232: A host write of TH_Q_TAIL rings the thatcher ring. -/
  | thatcherTailWrite (cl : Nat) (v : W)
  /-- PACK, R213: Thatcher command encoding a tile into stored form under MASK. -/
  | pack (cl : Nat)
  /-- UNPACK, R214: Thatcher command writing a stored tile out as operand A. -/
  | unpack (cl : Nat)
  /-- GATHER, R215: Thatcher command keeping the B stream blocks named by MASK. -/
  | gather (cl : Nat)
  /-- THATCHER_CMD_COMPLETE, R216: A thatcher command finishes and sets its DONE_FLAG. -/
  | thatcherCmdComplete (cl : Nat)
  /-- SKYLIGHT_TAIL_WRITE, R232: A host write of SKY_Q_TAIL rings the skylight ring. -/
  | skylightTailWrite (cl : Nat) (v : W)
  /-- PREDICT, R224: Skylight command classifying output blocks into active, make-up and lost slots. -/
  | predict (cl : Nat)
  /-- SKYLIGHT_CMD_COMPLETE, R229: A skylight pass writes its last line and sets DONE_FLAG. -/
  | skylightCmdComplete (cl : Nat)
  /-- RETIRE_GO, R243: BM_RETIRE_CMD.GO starts copying a frame into the spare region. -/
  | retireGo (b : Nat) (v : W)
  /-- RETIREMENT_COPY_COMPLETE, R243: A frame copy ends; the frame maps to its spare and a wear-log entry is appended. -/
  | retirementCopyComplete (b : Nat)
  /-- CTU_INVALIDATE, R257: CTU_INVAL_CMD.GO removes TLB entries of a range, locally or across the gable. -/
  | ctuInvalidate (cl : Nat) (v : W)
  /-- INVALIDATION_COMPLETE, R257: An invalidation finishes once held translations and their accesses are gone; BUSY clears. -/
  | invalidationComplete (cl : Nat)
  /-- WALKER_READ_RESP, R251: A walker receives a page-table entry and continues, translates or faults. -/
  | walkerReadResp (b : Nat) (walk : Nat)
  /-- ATS_COMPLETION, R258: An ATS translation completion arrives and is cached or faults. -/
  | atsCompletion (cl : Nat) (unit : Nat) (ring : Nat) (xl : AtsGrant)
  /-- PRG_RESPONSE, R259: A PRG Response resumes or faults a unit in HOST_PENDING. -/
  | prgResponse (cl : Nat) (unit : Nat) (ring : Nat) (n : Nat)
  /-- ATS_INVALIDATE_REQUEST, R260: An ATS Invalidate Request is delivered to every CTU of the VF's gable. -/
  | atsInvalidateRequest (t : Nat) (addr : Nat) (n : Nat)
  /-- UNIT_PARK, R269: Once writes before PROGRESS complete, the unit sets PARKED and interrupts its field controller. -/
  | unitPark (cl : Nat) (unit : Nat) (ring : Nat)
  /-- FAULT_DISPATCH, R271: The field controller writes a fault record into the gable's fault queue when room exists. -/
  | faultDispatch (cl : Nat) (unit : Nat) (ring : Nat)
  /-- RESUME, R273: A write of RESUME with matching tint and FAULT_SEQ resumes a parked command. -/
  | resume (cl : Nat) (unit : Nat) (v : W)
  /-- PREEMPT, R510: GB_PREEMPT.PREEMPT starts the save of every cluster of the gable. -/
  | preempt (t : Nat) (v : W)
  /-- RESTORE, R510: GB_PREEMPT.RESTORE restores every cluster of a saved gable. -/
  | restore (t : Nat) (v : W)
  /-- STOPPING_END, R277: A saving cluster has nothing outstanding and enters DRAINING. -/
  | stoppingEnd (cl : Nat)
  /-- DRAINING_END, R277: A saving cluster's credits return and it enters SAVING. -/
  | drainingEnd (cl : Nat)
  /-- DRAINING_TIMEOUT, R278: DRAINING lasting over 100 µs ends the save FAILED. -/
  | drainingTimeout (cl : Nat)
  /-- SAVING_END, R277: The cluster image's last line is written and the cluster reads SAVED. -/
  | savingEnd (cl : Nat)
  /-- RESTORE_COMPLETE, R282: A cluster's image is restored, units continue and parked faults are raised again. -/
  | restoreComplete (cl : Nat)
  /-- TK_SET, R293: A write of TK_SET sets the timekeeper count before step CLOCKS. -/
  | tkSet (v : W)
  /-- TIMEPULSE, R294: A rising edge on TIMEPULSE is stamped and accepted or rejected, trimming the count. -/
  | timepulse
  /-- PPS_LOST, R294: No pulse accepted for 2 × 10^9 ns sets PPS_LOST and holds the trim. -/
  | ppsLost
  /-- TIMEBASE_SYNC, R295: Every 1,000 ns each node compares with the received count and corrects or sets TB_LOST. -/
  | timebaseSync (cl : Nat) (got : Option Int)
  /-- PACKET_HOP, R315: A router looks up a packet's route entry, applies VCX and forwards or copies it. -/
  | packetHop (cl : Nat) (port : Nat)
  /-- PACKET_WEAVE, R144: A WEAVE packet is delivered into a mesh port's OQ0 through its delivery buffer. -/
  | packetWeave (cl : Nat)
  /-- PACKET_STORE, R300: A STORE DATA or LAST packet is written into the cluster store. -/
  | packetStore (cl : Nat)
  /-- PACKET_STORE_READ_REQ, R264: A STORE READ_REQ is answered from the cluster store with READ_RESP. -/
  | packetStoreReadReq (cl : Nat)
  /-- PACKET_GUTTER, R187: A GUTTER packet's lanes are added into a receive slot, or the packet is dropped. -/
  | packetGutter (cl : Nat)
  /-- PACKET_FLAG, R197: A FLAG packet's flag names are applied in list order. -/
  | packetFlag (cl : Nat)
  /-- PACKET_CORE_LM, R300: A CORE_LM packet is written into one core's local memory. -/
  | packetCoreLm (cl : Nat)
  /-- PACKET_CORE_LM_ALL, R300: A CORE_LM_ALL packet is written into all 128 logical cores' local memory. -/
  | packetCoreLmAll (cl : Nat)
  /-- PACKET_WEAVE_CTX, R300: A WEAVE_CTX packet writes words of a context image. -/
  | packetWeaveCtx (cl : Nat)
  /-- PACKET_VFT, R199: A VFT packet writes virtual flag table words. -/
  | packetVft (cl : Nat)
  /-- PACKET_MICROCODE, R333: A tint 0 MICROCODE packet writes the cluster's microcode store. -/
  | packetMicrocode (cl : Nat)
  /-- PACKET_READ_RESP, R307: A READ_RESP delivers read data to the requesting unit and returns its credit. -/
  | packetReadResp (cl : Nat)
  /-- PACKET_BAY, R242: A BAY DATA or LAST packet is written to the stack, merging partial lines. -/
  | packetBay (b : Nat)
  /-- PACKET_BAY_READ_REQ, R238: A BAY READ_REQ is tracked by the bay memory controller and answered from the stack. -/
  | packetBayReadReq (b : Nat)
  /-- PACKET_ACK, R307: An ACK returns a source's credit for an accepted packet. -/
  | packetAck (cl : Nat)
  /-- PACKET_ACK_ERR, R307: An ACK_ERR returns the credit for a refused packet and is counted. -/
  | packetAckErr (cl : Nat)
  /-- E2E_LOST, R308: A packet unanswered within CL_RT_ACK_TIMEOUT gives its credit back and reports E2E_LOST. -/
  | e2eLost (cl : Nat)
  /-- FLIT_REPLAY, R326: An uncorrectable flit is refused and the sender replays from its buffer. -/
  | flitReplay (cl : Nat) (lp : Nat)
  /-- LINK_FAILING, R327: Eight replays of one flit mark the link FAILING and start calibration. -/
  | linkFailing (cl : Nat) (lp : Nat)
  /-- CALIBRATION_END, R327: Calibration places spares and resumes replay, or marks the link OUT. -/
  | calibrationEnd (cl : Nat) (lp : Nat) (ns : List Nat) (flag : Bool)
  /-- ROUTE_ARM, R321: CL_RT_CMD.ARM checks and validates an epoch's route and multicast tables. -/
  | routeArm (cl : Nat) (v : W)
  /-- ROUTE_INVALIDATE, R321: CL_RT_CMD.INVALIDATE makes an epoch's tables invalid. -/
  | routeInvalidate (cl : Nat) (v : W)
  /-- FLIP, R322: CL_RT_CMD.FLIP sets CUR and starts changing sources' epoch channel by channel. -/
  | flip (cl : Nat) (v : W)
  /-- EPOCH_CHANNEL_CHANGE, R322: A source channel with nothing outstanding moves to the new epoch; FLIP_PENDING clears when all have. -/
  | epochChannelChange (cl : Nat) (n : Nat)
  /-- ROUTER_RESET, R336: CL_RT_CMD.RESET clears a router's buffers and tables and retrains its links. -/
  | routerReset (cl : Nat) (v : W)
  /-- ROUTER_RESET_COMPLETE, R337: A reset router's links are retrained and it reads UP. -/
  | routerResetComplete (cl : Nat) (ns : List Nat)
  /-- RT_DATA_ACCESS, R323: Access to CL_RT_DATA reads or writes a table word and advances WORD. -/
  | rtDataAccess (cl : Nat) (wr : Option W)
  /-- SWAP, R329: CL_RT_LINKp.SWAP puts a spare in place of a wire at the next replay pause. -/
  | swap (cl : Nat) (lp : Nat) (v : W)
  /-- LINK_TAKE_OUT, R329: CL_RT_LINKp.TAKE_OUT marks a mesh link OUT. -/
  | linkTakeOut (cl : Nat) (lp : Nat) (v : W)
  /-- STEP_START_WRITE, R344: A write of GB_STEP_START arms the gable's step for a timebase instant. -/
  | stepStartWrite (t : Nat) (v : W)
  /-- STEP_START_INSTANT, R344: At the armed instant every stopped core of the gable starts and the step reads RUNNING. -/
  | stepStartInstant (t : Nat)
  /-- ATTEMPT_END, R345: All cores are done, rings empty and nothing outstanding: the step reads ENDED and stalls are charged. -/
  | attemptEnd (t : Nat)
  /-- STEP_RETRY, R346: A write of GB_STEP_RETRY rearms the same step for a new attempt. -/
  | stepRetry (t : Nat) (v : W)
  /-- RED_ARM, R392: Setting GB_RED_CTRL.ARM checks and arms the receive table. -/
  | redArm (t : Nat) (v : W)
  /-- RED_DISARM, R390: Clearing GB_RED_CTRL.ARM disarms the receive table. -/
  | redDisarm (t : Nat)
  /-- RED_DATA_ACCESS, R390: Access to GB_RED_DATA reads or writes an entry word and advances the address. -/
  | redDataAccess (t : Nat) (wr : Option W)
  /-- DIGEST_GO, R389: GB_RED_DIGEST_CMD.GO computes the layer digests DSENT and DRECV. -/
  | digestGo (t : Nat) (v : W)
  /-- COPY_COMPLETE, R380: A contribution copy has all its bytes and acknowledged writes, and the entry decides. -/
  | copyComplete (t : Nat) (red : Nat) (flag : Bool)
  /-- DUE_REACHED, R382: At DUE a held entry chooses its copy and writes the selection word. -/
  | dueReached (t : Nat) (red : Nat)
  /-- DEADLINE_PASSED, R385: An entry with no copy stamped by DEADLINE becomes MISSING. -/
  | deadlinePassed (t : Nat) (red : Nat)
  /-- SELECTION_ACK, R383: The selection word is acknowledged and the entry's DONE_FLAG is set. -/
  | selectionAck (t : Nat) (red : Nat)
  /-- PORT_TRAIN, R399: EV_TRAIN_CMD.TRAIN retrains every link of the port that is not UP. -/
  | portTrain (p : Nat) (v : W)
  /-- PORT_TAKE_OUT, R399: EV_TRAIN_CMD.TAKE_OUT marks every link of the port OUT. -/
  | portTakeOut (p : Nat) (v : W)
  /-- LINK_LOCK_LOSS, R398: An eave link losing lock reads TRAINING and retrains or goes OUT. -/
  | linkLockLoss (p : Nat) (link : Nat)
  /-- EAVE_RETRAIN_END, R398: An eave link retrain ends UP at some width or OUT, failing its sessions. -/
  | eaveRetrainEnd (p : Nat) (link : Nat) (ns : List Nat)
  /-- SESSION_ENABLE, R426: EV_SESS_CMD.ENABLE checks a session and makes it OPEN. -/
  | sessionEnable (p : Nat) (v : W)
  /-- SESSION_DISABLE, R426: EV_SESS_CMD.DISABLE stops a session and erases its key. -/
  | sessionDisable (p : Nat) (v : W)
  /-- SESS_DATA_ACCESS, R428: Access to EV_SESS_DATA reads or writes a session entry word and advances. -/
  | sessDataAccess (p : Nat) (wr : Option W)
  /-- DATA_FRAME_RECEIVE, R407: A received DATA frame passes the checks, is accepted and written into the receive table. -/
  | dataFrameReceive (p : Nat) (link : Nat) (rx : RxFrame)
  /-- ACK_FRAME_RECEIVE, R409: A received ACK covers frames, may trigger retransmission and lowers rate on ECHO. -/
  | ackFrameReceive (p : Nat) (link : Nat) (rx : RxFrame)
  /-- PFC_FRAME_RECEIVE, R402: A received PFC frame pauses or releases a priority. -/
  | pfcFrameReceive (p : Nat) (prio : Nat) (n : Nat)
  /-- PFC_QUANTA_EXPIRE, R402: The pause quanta of a received PFC frame run out and the priority resumes. -/
  | pfcQuantaExpire (p : Nat) (prio : Nat)
  /-- ACK_DELAY_EXPIRE, R408: ACK_DELAY_NS after the first unacknowledged acceptance, an ACK is sent. -/
  | ackDelayExpire (p : Nat) (entry : Nat)
  /-- RTO_EXPIRE, R409: A frame not covered within EV_RTO.NS is sent again. -/
  | rtoExpire (p : Nat) (entry : Nat) (n : Nat)
  /-- RATE_INTERVAL, R411: Each INTERVAL_US without a decrease raises the session rate by AI. -/
  | rateInterval (p : Nat) (entry : Nat)
  /-- POST_RECEIVE, R414: An eave port queues a post and reads its send descriptor, or refuses on overflow. -/
  | postReceive (p : Nat)
  /-- SEND_DESCRIPTOR_READ, R416: The descriptor read returns and is checked and started, or fails SEND_BAD. -/
  | sendDescriptorRead (p : Nat)
  /-- FRAME_SEND, R417: The port starts the next DATA frame of a send when window and allowance permit. -/
  | frameSend (p : Nat) (n : Nat)
  /-- EV_POST_WRITE, R430: A write of CL_EV_POSTi sets a watched flag and zeroes its count, or is refused. -/
  | evPostWrite (cl : Nat) (i8 : Nat) (v : W)
  /-- HOST_LINK_TRAIN, R434: The host link trains up and held traffic is released. -/
  | hostLinkTrain (n : Nat) (m : Nat) (flag : Bool)
  /-- HOST_LINK_RETRAIN, R436: A retrain keeping minimums changes the rate and sets LINK_CHANGE. -/
  | hostLinkRetrain (n : Nat) (m : Nat)
  /-- HOST_LINK_DOWN, R438: A link-down resets configuration space and HDM decoders and holds traffic. -/
  | hostLinkDown
  /-- PERST_N_ASSERT, R567: PERST_N low resets the host link and aborts queue commands. -/
  | perstNAssert
  /-- SQ_DOORBELL, R443: A write of HQ_SQ_TAIL submits commands, or overflows and stops the queue. -/
  | sqDoorbell (fn : Nat) (q : Nat) (v : W)
  /-- HIB_COMMAND_START, R444: The HIB starts the next ready command when one of its 32 places frees. -/
  | hibCommandStart (fn : Nat) (q : Nat) (cmd : BitVec 512)
  /-- CMD_NOP, R445: Queue command doing nothing. -/
  | cmdNop (n : Nat)
  /-- HOST_TO_STACK, R445: Queue command copying host memory into a stack. -/
  | hostToStack (n : Nat) (hd : Option (List Byte))
  /-- STACK_TO_HOST, R445: Queue command copying a stack range to host memory. -/
  | stackToHost (n : Nat)
  /-- LOAD, R446: Queue command sending a host buffer to a unit as channel-14 packets. -/
  | load (n : Nat) (hd : Option (List Byte))
  /-- CMD_FLAG, R445: Queue command sending one FLAG packet. -/
  | cmdFlag (n : Nat)
  /-- COMMAND_COMPLETE, R448: A finished command writes its completion entry when room exists and signals its vector. -/
  | commandComplete (n : Nat)
  /-- CQ_HEAD_WRITE, R448: A write of HQ_CQ_HEAD frees completion entries. -/
  | cqHeadWrite (fn : Nat) (q : Nat) (v : W)
  /-- SQ_ENABLE, R465: Setting HQ_SQ_CFG.ENABLE checks and starts a submission queue. -/
  | sqEnable (fn : Nat) (q : Nat) (v : W)
  /-- SQ_DISABLE, R449: Clearing SQ ENABLE aborts the queue's commands once nothing is outstanding. -/
  | sqDisable (fn : Nat) (q : Nat) (v : W)
  /-- CQ_ENABLE, R465: Setting HQ_CQ_CFG.ENABLE checks and starts a completion queue. -/
  | cqEnable (fn : Nat) (q : Nat) (v : W)
  /-- WATCHED_LINE_SNOOP, R450: A host write snooping a watched ring line makes the HIB reread it and take new entries. -/
  | watchedLineSnoop (fn : Nat) (q : Nat) (ns : List Nat)
  /-- PACKET_HOST, R452: A HOST packet carries a unit's host-region access or a bias request to the HIB. -/
  | packetHost (cl : Nat)
  /-- HOST_READ_COMPLETION, R452: Host read data returns and the HIB answers with READ_RESP. -/
  | hostReadCompletion (n : Nat) (hd : Option (List Byte))
  /-- CXL_MEM_READ, R457: A CXL.mem read of an HDM window is carried to its bay. -/
  | cxlMemRead (win : Nat) (n : Nat)
  /-- CXL_MEM_WRITE, R457: A CXL.mem write of an HDM window is carried to its bay. -/
  | cxlMemWrite (win : Nat) (n : Nat) (line : BitVec 512)
  /-- BIAS_TO_DEVICE, R460: HL_BIAS_CMD.GO with TO_DEVICE = 1 flips regions to device bias. -/
  | biasToDevice (v : W)
  /-- BIAS_TO_HOST, R460: HL_BIAS_CMD.GO with TO_DEVICE = 0 flips regions to host bias. -/
  | biasToHost (v : W)
  /-- BIAS_FLIP_COMPLETE, R460: A bias flip completes and BUSY clears. -/
  | biasFlipComplete
  /-- HDM_COMMIT, R454: The host commits an HDM decoder, which succeeds only against an enabled window. -/
  | hdmCommit (win : Nat) (n : Nat) (m : Nat) (k : Nat)
  /-- WINDOW_ENABLE, R455: Setting HL_WINw_CFG.ENABLE checks an HDM window. -/
  | windowEnable (win : Nat) (v : W)
  /-- FUNCTION_LEVEL_RESET, R449: A Function Level Reset aborts the function's commands in progress. -/
  | functionLevelReset (fn : Nat)
  /-- MSIX_UNMASK, R442: Unmasking a vector sends its pending message. -/
  | msixUnmask (fn : Nat) (vec : Nat)
  /-- IDE_STREAM_STOP, R464: An IDE stream stopping under REQUIRE_IDE holds host traffic. -/
  | ideStreamStop (flag : Bool)
  /-- REGISTER_WRITE, R472: A write to a register with no behaviour of its own sets, clears or discards fields. -/
  | registerWrite (off : Nat) (size : Nat) (v : W)
  /-- RC_READ, R472: A read of an RC field returns its value and zeroes it. -/
  | rcRead (rd : BusRead)
  /-- ENABLE_WRITE, R477: A write of CTRL.ENABLE = 1 starts the page's consistency check. -/
  | enableWrite (pg : PageRef)
  /-- CONSISTENCY_CHECK_COMPLETE, R477: A check finishes, admitting the configuration or recording a refusal. -/
  | consistencyCheckComplete (pg : PageRef)
  /-- DISABLE_WRITE, R481: A write of CTRL.ENABLE = 0 stops the block. -/
  | disableWrite (pg : PageRef)
  /-- SOFT_RESET, R471: CTRL.SOFT_RESET resets the block's registers and abandons its work. -/
  | softReset (pg : PageRef)
  /-- DEV_FENCE_READ, R474: A read of DEV_FENCE returns once every earlier BAR0 write has taken effect. -/
  | devFenceRead
  /-- WINDOW_SELECT, R487: A write of CL_WINDOW_SELn redirects later accesses through window n. -/
  | windowSelect (n16 : Nat) (v : W)
  /-- WMT_ENTRY_WRITE, R490: A Wafer Map Table aperture write sets an entry, or is dropped for a committed cluster. -/
  | wmtEntryWrite (wmt : Nat) (v : W)
  /-- COMMIT, R491: WMT_CMD.COMMIT checks and commits a logical cluster's 128 entries. -/
  | commit (v : W)
  /-- RELEASE, R492: WMT_CMD.RELEASE uncommits a logical cluster. -/
  | release (v : W)
  /-- MAP_EN, R493: Setting CL_MAP_CTRL.MAP_EN checks and enables the core map. -/
  | mapEn (cl : Nat)
  /-- MAP_DISABLE, R493: Clearing MAP_EN disables the core map unless a core runs. -/
  | mapDisable (cl : Nat)
  /-- ENGINE_ID_WRITE, R496: A write of DEV_ENGINE_ID sets the fabric ID before step EAVE. -/
  | engineIdWrite (v : W)
  /-- GABLE_ENABLE, R500: GABLE ENABLE binds the bays to the tint, draws ENABLE_ID and opens a meter period. -/
  | gableEnable (t : Nat)
  /-- GABLE_DISABLE, R503: GABLE ENABLE = 0 erases keys, returns bays to tint 0 and closes the meter period. -/
  | gableDisable (t : Nat)
  /-- BAY_ADD, R502: GB_BAYCMD.ADD takes a bay into the gable. -/
  | bayAdd (t : Nat) (v : W)
  /-- BAY_REMOVE, R502: GB_BAYCMD.REMOVE takes a bay out and erases its keys for the tint. -/
  | bayRemove (t : Nat) (v : W)
  /-- ALLOT_WRITE, R508: A write of GB_ALLOT is checked and sets the power allotment. -/
  | allotWrite (t : Nat) (v : W)
  /-- METER_PERIOD_END, R515: A meter period ends at its interval multiple and its record is built. -/
  | meterPeriodEnd (t : Nat)
  /-- MT_CLOSE, R515: MT_CLOSE.GO ends a gable's meter period now. -/
  | mtClose (v : W)
  /-- METER_RECORD_WRITE, R516: A signed meter record is written to the gable's ring and vector 1 signalled. -/
  | meterRecordWrite (t : Nat)
  /-- MT_INTERVAL_WRITE, R518: A write of MT_INTERVAL sets the interval for next periods or is discarded. -/
  | mtIntervalWrite (v : W)
  /-- MT_REC_DATA_READ, R518: A read of MT_REC_DATA returns a record word and advances WORD. -/
  | mtRecDataRead
  /-- ESTIMATE_WINDOW, R522: Every 1 µs each bay node forms its power estimate. -/
  | estimateWindow (b : Nat) (n : Nat)
  /-- MEASUREMENT_WINDOW, R523: Every 10 µs the stage tile measures bay power. -/
  | measurementWindow (b : Nat) (n : Nat) (m : Nat)
  /-- CALIBRATION_FIT, R525: Every 100 ms the field controller fits each bay's gain and offset. -/
  | calibrationFit (b : Nat) (ns : List Nat) (ms : List Nat)
  /-- OPPORTUNISTIC_CONTROL, R530: Every 1 µs an opportunistic gable's controller moves its target frequency. -/
  | opportunisticControl (t : Nat)
  /-- LEARN_UPDATE, R531: 20 µs after a hint's due time its LEARN value is updated. -/
  | learnUpdate (t : Nat) (k : Nat) (n : Option Int) (m : List Int)
  /-- ARMING_START, R532: 800 ns before a hint's due time the bay's stage tile starts arming. -/
  | armingStart (b : Nat)
  /-- ARMING_COMPLETE, R532: Arming completes; the bay is armed and held rises proceed. -/
  | armingComplete (b : Nat)
  /-- DISARM, R532: After 10 µs with no multiplier occupied the bay is disarmed. -/
  | disarm (b : Nat)
  /-- THERMAL_TRIP, R534: A sensor reaching 105 °C stretches its cluster to level 4. -/
  | thermalTrip (cl : Nat) (n : Nat)
  /-- THERMAL_ESCALATE, R534: Every 100 µs while hot the field controller raises the bay's stretch level. -/
  | thermalEscalate (b : Nat)
  /-- THERMAL_RELEASE, R534: Stretch levels fall by one per period once sensors or estimates have cooled. -/
  | thermalRelease (b : Nat) (ns : List Nat)
  /-- OVERDRAW, R534: Eight windows above the allotment start overdraw stretching of the gable. -/
  | overdraw (t : Nat)
  /-- THERMAL_LATCH, R534: A sensor reaching 115 °C makes the field controller latch the bay off. -/
  | thermalLatch (cl : Nat) (n : Nat)
  /-- BAY_LATCH, R535: A stage tile limiting or low for 2 µs latches off, and the bay becomes a hole. -/
  | bayLatch (b : Nat)
  /-- RELIGHT, R536: PW_BAY_CMD.RELIGHT relights a latched bay as Shaded and UNTESTED. -/
  | relight (v : W)
  /-- INLET_SAMPLE, R537: Every 10 ms the coolant inlet is read and INLET_HI or a halt may follow. -/
  | inletSample (n : Nat)
  /-- INPUT_SAMPLE, R537: Every 10 ms the input voltage is read and out-of-range input raises a halt. -/
  | inputSample (n : Nat)
  /-- INPUT_LOSS, R537: Input below 650 V or above 900 V removes the 48 V bus and unpowers the wafer. -/
  | inputLoss (n : Nat)
  /-- DARK_ENTER, R540: PW_DARK.GO takes the module into Dark. -/
  | darkEnter (v : W)
  /-- WAKE, R540: An enabled wake condition brings the module out of Dark with the wafer unpowered. -/
  | wake
  /-- BLADE_WITHDRAW, R628: One 800 V blade input is withdrawn while the other carries the load. -/
  | bladeWithdraw
  /-- BLADE_INSERT, R628: An inserted blade precharges the bus and joins. -/
  | bladeInsert
  /-- RAILS, R546: Bring-up step 0 brings the masked bays from UNLIT to Shaded. -/
  | rails (ns : List Nat)
  /-- CLOCKS, R546: Bring-up step 1 locks the wafer reference and cluster clocks. -/
  | clocks (ns : List Nat)
  /-- RIDGE, R546: Bring-up step 2 brings up the ridge tree and loads the timebase. -/
  | ridge (of : Option Nat)
  /-- RECORD, R556: Bring-up step 3 verifies and applies the wafer record and unwraps the device key. -/
  | record
  /-- TEST, R546: Bring-up step 4 runs built-in self-test or is skipped on the fast path. -/
  | test (ns : List Nat) (ms : List Nat)
  /-- MAP, R547: Bring-up step 5 opens the map tables for the host. -/
  | mapStep
  /-- MAP_FINISH, R547: BU_STEP_CMD.FINISH closes step MAP after checking every committed cluster. -/
  | mapFinish
  /-- MESH, R546: Bring-up step 6 applies spare wires and trains the mesh links. -/
  | mesh (ns : List LinkFail)
  /-- FIRMWARE, R559: Bring-up step 7 verifies and starts Talnus and sends microcode. -/
  | firmware (of : Option Nat)
  /-- STACKS, R546: Bring-up step 8 trains the stacks and loads the tint 0 key. -/
  | stacks (ns : List Nat)
  /-- HOST, R546: Bring-up step 9 enables CXL.cache and CXL.mem. -/
  | host
  /-- EAVE, R397: Bring-up step 10 trains the eave ports. -/
  | eave (ns : List Nat)
  /-- READY, R552: Bring-up step 11 sets READY and writes the state block. -/
  | ready
  /-- BRINGUP_STEP_END, R545: A running bring-up step ends DONE or FAILED and signals PF vector 0. -/
  | bringupStepEnd
  /-- STANDBY_POWER_UP, R566: Standby power coming up makes a cold reset and samples SLOT_ID. -/
  | standbyPowerUp (n : Nat)
  /-- COLD_RESET, R566: BU_RESET_CMD COLD returns every bay to UNLIT and clears the wafer state. -/
  | coldReset
  /-- WARM_RESET, R566: BU_RESET_CMD WARM resets clusters, routers and units while keeping rails and stacks. -/
  | warmReset
  /-- GABLE_RESET, R568: BU_RESET_CMD GABLE stops and drains a gable, then resets its cores and units. -/
  | gableReset (t : Nat)
  /-- GABLE_RESET_COMPLETE, R568: After draining, the gable's cores and pages are reset and its step returns to IDLE. -/
  | gableResetComplete (t : Nat)
  /-- TEST_BAY, R570: BU_TEST_BAY.GO tests a relit bay and its links. -/
  | testBay (v : W)
  /-- TEST_BAY_COMPLETE, R570: A bay test ends with pass or fail and clears UNTESTED on a pass. -/
  | testBayComplete (ns : TestFails) (ms : List LinkFail)
  /-- IMG_ERASE, R561: BU_IMG_CMD.ERASE erases the Talnus image region. -/
  | imgErase
  /-- IMG_DATA_WRITE, R561: A write of BU_IMG_DATA writes an image word and advances. -/
  | imgDataWrite (v : W)
  /-- MICROCODE_SEND, R562: A field controller sends microcode to a cluster committed after FIRMWARE. -/
  | microcodeSend (cl : Nat)
  /-- FC_HEARTBEAT, R564: Talnus advances FC_HEARTBEAT every 1 ms. -/
  | fcHeartbeat (f : Nat)
  /-- NBR_LOST, R564: A partner's heartbeat unchanged for 10 ms makes the controller take over its field. -/
  | nbrLost (f : Nat)
  /-- COVER, R565: FC_CTRL.COVER makes the partner dispatch faults and schedule background work. -/
  | cover (f : Nat) (flag : Bool)
  /-- FC_RESET, R565: FC_CTRL.FC_RESET restarts a lost field controller under cover. -/
  | fcReset (f : Nat)
  /-- CTR_COMMIT, R582: SEC_CTR_CMD.COMMIT raises an anti-rollback counter. -/
  | ctrCommit (v : W)
  /-- REPORT_GO, R590: SEC_REP_CMD.GO builds and signs a gable attestation report. -/
  | reportGo (v : W)
  /-- BLOB_DATA_WRITE, R592: A write of SEC_BLOB_DATA stores a key-blob word and advances. -/
  | blobDataWrite (v : W)
  /-- KEY_LOAD, R593: SEC_KEY_CMD.LOAD decrypts a blob and installs a stack or session key. -/
  | keyLoad (v : W)
  /-- KEY_ERASE, R597: SEC_KEY_CMD.ERASE erases a key slot or session key. -/
  | keyErase (v : W)
  /-- SIGNING_COMPLETE, R591: The signing engine finishes a private-key operation. -/
  | signingComplete
  /-- RNG_FAIL, R580: A noise-source health test fails and random draws stop. -/
  | rngFail
  /-- GET_VERSION, R584: SPDM request for supported versions. -/
  | getVersion
  /-- GET_CAPABILITIES, R584: SPDM request for capabilities. -/
  | getCapabilities
  /-- NEGOTIATE_ALGORITHMS, R584: SPDM request negotiating algorithms. -/
  | negotiateAlgorithms (bytes : List Byte)
  /-- GET_DIGESTS, R584: SPDM request for certificate digests. -/
  | getDigests
  /-- GET_CERTIFICATE, R584: SPDM request for the slot 0 certificate chain. -/
  | getCertificate (n : Nat) (m : Nat) (k : Nat)
  /-- CHALLENGE, R584: SPDM challenge signed by the device key. -/
  | challenge (n : Nat) (bytes : List Byte)
  /-- GET_MEASUREMENTS, R586: SPDM request returning firmware, record, counter and gable measurements. -/
  | getMeasurements (n : Nat) (bytes : List Byte)
  /-- KEY_EXCHANGE, R584: SPDM key exchange starting a secured session. -/
  | keyExchange (n : Nat) (bytes : List Byte)
  /-- FINISH, R584: SPDM FINISH completing session setup. -/
  | finish (n : Nat) (bytes : List Byte)
  /-- HEARTBEAT, R584: SPDM session heartbeat. -/
  | heartbeat (n : Nat)
  /-- KEY_UPDATE, R584: SPDM session key update. -/
  | keyUpdate (n : Nat) (k : Nat)
  /-- END_SESSION, R588: SPDM END_SESSION ends a secured session, leaving IDE streams running. -/
  | endSession (n : Nat)
  /-- IDE_KM, R588: IDE_KM message in a secured session sets IDE stream keys. -/
  | ideKm (n : Nat) (flag : Bool)
  /-- ERROR_RECORD_WRITE, R600: The field controller writes an error record to the field ring and signals the vector. -/
  | errorRecordWrite (pg : PageRef) (n : Nat)
  /-- STORE_PATROL, R606: Cluster-store patrol reads the next row of every bank in a reserved slot. -/
  | storePatrol (cl : Nat)
  /-- STACK_PATROL, R607: Stack patrol reads the next chunk of each channel in a reserved slot. -/
  | stackPatrol (b : Nat)
  /-- SPARE_WIRE_SWEEP, R609: The sweep compares a wire against its group's spare and records marginal wires. -/
  | spareWireSweep (cl : Nat) (lp : Nat) (n : Nat) (m : Nat)
  /-- AGING_READING, R610: Hourly ring-oscillator readings are taken and AGING entries appended. -/
  | agingReading (cl : Nat) (n : Nat)
  /-- FC_MARK, R614: FC_MARK.GO marks a physical core or cluster unusable and logs it. -/
  | fcMark (f : Nat) (v : W)
  /-- SET_ENDPOINT_ID, R634: MCTP control command assigning the endpoint ID. -/
  | setEndpointId (n : Nat) (m : Nat)
  /-- GET_ENDPOINT_ID, R634: MCTP control command returning the endpoint ID. -/
  | getEndpointId
  /-- GET_MCTP_VERSION_SUPPORT, R634: MCTP control command returning supported versions. -/
  | getMctpVersionSupport (n : Nat)
  /-- GET_MESSAGE_TYPE_SUPPORT, R634: MCTP control command returning supported message types. -/
  | getMessageTypeSupport
  /-- GET_VENDOR_DEFINED_MESSAGE_SUPPORT, R634: MCTP control command returning vendor-defined message support. -/
  | getVendorDefinedMessageSupport (n : Nat)
  /-- MCTP_READ, R636: Vendor READ message returning device-level registers without clearing RC fields. -/
  | mctpRead (n : Nat) (m : Nat) (k : Nat)
  /-- TAP_RESET, R640: TRST_N low resets the TAP with IDCODE selected. -/
  | tapReset
  /-- EXTEST, R643: JTAG instruction driving HB pins, raising a halt and holding the host link in reset. -/
  | extest
  /-- IDCODE, R644: JTAG instruction selecting the 32-bit identification register. -/
  | idcode
  /-- SAMPLE_PRELOAD, R640: JTAG instruction sampling HB pins without effect on the engine. -/
  | samplePreload
  /-- CLAMP, R643: JTAG instruction holding pins from boundary cells with bypass selected. -/
  | clamp
  /-- HIGHZ, R643: JTAG instruction placing outputs in high impedance with bypass selected. -/
  | highz
  /-- EXTEST_PULSE, R641: JTAG IEEE 1149.6 pulse test of the HB AC-coupled pairs. -/
  | extestPulse
  /-- EXTEST_TRAIN, R641: JTAG IEEE 1149.6 train test of the HB AC-coupled pairs. -/
  | extestTrain
  /-- EB_SAMPLE, R642: JTAG instruction sampling the eave bridge pairs. -/
  | ebSample
  /-- EB_EXTEST_PULSE, R643: JTAG pulse test of eave pairs, taking every eave link OUT. -/
  | ebExtestPulse
  /-- EB_EXTEST_TRAIN, R643: JTAG train test of eave pairs, taking every eave link OUT. -/
  | ebExtestTrain
  /-- BYPASS, R640: JTAG instruction selecting the bypass register. -/
  | bypass
  /-- STANDBY_POWER_LOSS, R569: Loss of standby power, as by withdrawal of both blades, loses everything including the timekeeper, the device key and open meter periods. -/
  | standbyPowerLoss
  /-- RIDGE_PATH_LOST, R563: A field node that the ridge root can reach by neither its own path nor its partner's sets DEV FAULT_CAUSE.RIDGE_ROOT and raises an engine halt. -/
  | ridgePathLost (f : Nat)
  /-- HOST_READ_TIMEOUT, R447: A host read that is never answered times out and ends its command with HOST_ERR. -/
  | hostReadTimeout (n : Nat)
  /-- CONTROLLER_RESTART, R565: A lost field controller reset under cover finishes its ROM verification and reads RUNNING, or sets ROM_FAIL. -/
  | controllerRestart (f : Nat) (flag : Bool)
  /-- SOFT_RESET_COMPLETE, R471: A block's soft reset finishes within 2 µs and STATUS.CHECKING clears. -/
  | softResetComplete (pg : PageRef)
  /-- DIGEST_COMPLETE, R389: The layer digest computation finishes within 20 µs, DSENT and DRECV become readable and BUSY clears. -/
  | digestComplete (t : Nat)
  /-- FC_MARK_COMPLETE, R614: A mark of a core or cluster finishes within 10 ms, having appended its wear-log entry, and BUSY clears. -/
  | fcMarkComplete (f : Nat)
  /-- IMG_ERASE_COMPLETE, R561: An erase or write of the Talnus image region finishes and BU_IMG_CMD.BUSY clears. -/
  | imgEraseComplete
  /-- KEY_SWAP_COMPLETE, R594: Every bay controller has drained accesses under the slot and swapped in the new key, and SEC_KEY_CMD.BUSY clears. -/
  | keySwapComplete
  deriving DecidableEq, Repr

end Sys2Proof
end

