-- ==== Sys2Proof/Decode.lean ====
section
/-! DEFINITION. The command that a word spells by the bits of the command table: no row of the table gives
bits, so that no word spells one. And the instruction that a core's 64-bit word spells by CLASS and OP. -/

namespace Sys2Proof

/-- No row has bits. -/
def decodeTableWord (_nbits _w : Nat) : Option Instr := none

/-- The instruction of an instruction word (R96, R97): CLASS in bits [63:60], OP in bits [59:56]; none for an
unlisted CLASS or OP, which is ILLEGAL. -/
def decodeCore (cl core : Nat) (word : BitVec 64) : Option Instr :=
  let w : BitVec 56 := word.setWidth 56
  match word.toNat / 2 ^ 60, word.toNat / 2 ^ 56 % 16 with
  | 0x0, 0x0 => some (.add cl core w) | 0x0, 0x1 => some (.sub cl core w)
  | 0x0, 0x2 => some (.and cl core w) | 0x0, 0x3 => some (.or cl core w)
  | 0x0, 0x4 => some (.xor cl core w) | 0x0, 0x5 => some (.shl cl core w)
  | 0x0, 0x6 => some (.shr cl core w) | 0x0, 0x7 => some (.sra cl core w)
  | 0x0, 0x8 => some (.slt cl core w) | 0x0, 0x9 => some (.sltu cl core w)
  | 0x0, 0xA => some (.seq cl core w) | 0x0, 0xB => some (.min cl core w)
  | 0x0, 0xC => some (.max cl core w) | 0x0, 0xD => some (.mul cl core w)
  | 0x0, 0xE => some (.li cl core w)
  | 0x1, 0x0 => some (.fadd cl core w) | 0x1, 0x1 => some (.fsub cl core w)
  | 0x1, 0x2 => some (.fmul cl core w) | 0x1, 0x3 => some (.ffma cl core w)
  | 0x1, 0x4 => some (.fmin cl core w) | 0x1, 0x5 => some (.fmax cl core w)
  | 0x1, 0x6 => some (.f2i cl core w) | 0x1, 0x7 => some (.i2f cl core w)
  | 0x2, 0x0 => some (.ldB cl core w) | 0x2, 0x1 => some (.ldH cl core w)
  | 0x2, 0x2 => some (.ldW cl core w) | 0x2, 0x4 => some (.stB cl core w)
  | 0x2, 0x5 => some (.stH cl core w) | 0x2, 0x6 => some (.stW cl core w)
  | 0x3, 0x0 => some (.aadd cl core w) | 0x3, 0x1 => some (.amovSa cl core w)
  | 0x3, 0x2 => some (.amovAs cl core w) | 0x3, 0x3 => some (.ali cl core w)
  | 0x4, 0x0 => some (.j cl core w) | 0x4, 0x1 => some (.jr cl core w)
  | 0x4, 0x2 => some (.beq cl core w) | 0x4, 0x3 => some (.bne cl core w)
  | 0x4, 0x4 => some (.blt cl core w) | 0x4, 0x5 => some (.bge cl core w)
  | 0x4, 0x6 => some (.loop cl core w) | 0x4, 0xF => some (.stop cl core w)
  | 0x5, 0x0 => some (.tmulAcc cl core w) | 0x5, 0x1 => some (.tmulZero cl core w)
  | 0x6, 0x0 => some (.accClr cl core w) | 0x6, 0x1 => some (.accLd cl core w)
  | 0x6, 0x2 => some (.accSt cl core w) | 0x6, 0x3 => some (.accSend cl core w)
  | 0x6, 0x4 => some (.cvtAcc cl core w)
  | 0x7, 0x0 => some (.cvtLm cl core w)
  | 0x8, 0x0 => some (.qrecv cl core w) | 0x8, 0x1 => some (.qsend cl core w)
  | 0x8, 0x2 => some (.qpopS cl core w) | 0x8, 0x3 => some (.qpushS cl core w)
  | 0x9, 0x0 => some (.fset cl core w) | 0x9, 0x1 => some (.fclr cl core w)
  | 0x9, 0x2 => some (.fwait cl core w) | 0x9, 0x3 => some (.fwaitc cl core w)
  | 0x9, 0x4 => some (.ftest cl core w)
  | 0xA, 0x0 => some (.vfset cl core w) | 0xA, 0x1 => some (.vfclr cl core w)
  | 0xA, 0x2 => some (.vfwait cl core w) | 0xA, 0x3 => some (.vfwaitc cl core w)
  | 0xB, 0x0 => some (.nop cl core w) | 0xB, 0x1 => some (.hint cl core w)
  | 0xB, 0x2 => some (.asclr cl core w)
  | _, _ => none

end Sys2Proof
end

