-- ==== Sys2Proof/Config.lean ====
section
/-! DEFINITION. What the specification leaves open, as constants without a body: nothing can
evaluate them, so a statement holds for every value they could have. Each is named in the
assumption log (notes/assumptions). -/

namespace Sys2Proof

/-- A free value: the `n`-th open value a step draws. The drawing step advances `State.draws`.
Used for what the host's memory answers, for the noise source of R580 and for results the specification does
not state. Log entry 3. -/
opaque Config.freeValue : Nat → W

/-- The ciphertext of line `line` of stack `b` that the `n`-th step STACKS after a cold reset wrote (R236): a
line never written reads as it deciphers. Log entry 3. -/
opaque Config.stackFill (n b line : Nat) : BitVec 512

/-- Byte `off` of saved image `n`, in the parts whose coding R279 does not give. Log entry 22. -/
opaque Config.imageByte (n off : Nat) : Byte

/-- OUTLIER, in E4M3, of a Shingle-2 outlier code taken alone, as a valley takes it: R78 gives it no group
bytes. Log entry 51. -/
opaque Config.bareOutlier : BitVec 8

/-- The place of a block in the skylight's order when its bound is a NaN (R224): by the numbers of blocks and tokens,
the capacities and the threshold, the input bytes, and the block (R37). Log entry 15. -/
opaque Config.nanPlace (sizes capacity input : Nat) (block : Nat) : BitVec 31

/-- The device key of R574: its modulus, and the private-key operation on a number below it (R578, R592).
Only the SEC block holds the key. Log entry 4. -/
opaque Config.deviceModulus : BitVec 4096
opaque Config.devicePrivate : BitVec 4096 → BitVec 4096

/-- The certificates of CHAIN in DER (R575): those of the two CAs, and the device certificate made for its subject, the
serial number's 16 hexadecimal digits and WAFER_ID, and its public key (R577). Log entry 4. -/
opaque Config.caCertificates : List Byte
opaque Config.deviceCertificate (serial : List Byte) (waferId : W) (key : BitVec 4096) : List Byte

/-- The public-key operation with the vendor root key (R579). Log entry 4. -/
opaque Config.vendorPublic : BitVec 4096 → BitVec 4096

/-- The key bound at module assembly, as HMAC's 64-byte block, which nothing shows (R552, R555, R581).
Log entry 4. -/
opaque Config.assemblyKey : BitVec 512

/-- What word `i` of the Talnus image region holds in the image as shipped, and once erased (R558, R561).
Log entry 34. -/
opaque Config.shippedWord : Nat → W
opaque Config.erasedWord : Nat → W

/-- The power model of the wafer record (R522, R527), in 1/16 W of bay `b` at `mhz`: S_b(f), which lies at Vmin(f) and so
moves with the Vmin raises of the bay's twelve clusters (R611), and D_b(f). The record is particular to a module. -/
opaque Config.staticPower (b mhz : Nat) (raises : List Nat) : Nat
opaque Config.dynamicPower (b mhz : Nat) : Nat

/-- The coefficients of R522 in the wafer record: the energy of one event of activity counter `counter` in a cluster of bay
`b` at `mhz` and `mv`, in 1/65,536 of 1/16 W over 1 us, and a cluster's leakage at `mv` and `temp` (1/8 °C), in 1/16 W. -/
opaque Config.energyCoeff (b counter mhz mv : Nat) : Nat
opaque Config.leakage (b mv temp : Nat) : Nat

/-- The hash of the vendor root key fixed in mask ROM (R574, R598), word `i`. -/
opaque Config.rootHash : Nat → W

/-- HOST_LAT_NS of the placement report that gable `t` runs by, when its HOST_TIMED is 1 (R339, R351): no register holds it
(log entry 58). -/
opaque Config.hostLat (t : Nat) : Option Nat

end Sys2Proof
end

