-- ==== Sys2Proof/Machine/Flags.lean ====
section
/-! DEFINITION. Arithmetic status: the events of R85 to R88 that one operation meets, and the bit each
sets in the status register of a core, of the gutter, of the thatcher and of the special-function
units. -/

namespace Sys2Proof.Machine

open Sys2Proof

/-- Events of one operation (R86: each condition sets its own bit). -/
structure Status where
  invalid : Bool := false
  overflowSat : Bool := false
  nanToZero : Bool := false
  accOverflow : Bool := false
  intSat : Bool := false
  intWrap : Bool := false
  shingleMalformed : Bool := false
  scaleClamp : Bool := false
  deriving DecidableEq, Repr

/-- Both operations' events. -/
def Status.or (a b : Status) : Status where
  invalid := a.invalid || b.invalid
  overflowSat := a.overflowSat || b.overflowSat
  nanToZero := a.nanToZero || b.nanToZero
  accOverflow := a.accOverflow || b.accOverflow
  intSat := a.intSat || b.intSat
  intWrap := a.intWrap || b.intWrap
  shingleMalformed := a.shingleMalformed || b.shingleMalformed
  scaleClamp := a.scaleClamp || b.scaleClamp

def bitIf (c : Bool) (i : Nat) : W := if c then 1#64 <<< i else 0#64

/-- Bits of CL_CORE_ASTAT (R87). -/
def Status.astat (a : Status) : W :=
  bitIf a.invalid 0 ||| bitIf a.overflowSat 1 ||| bitIf a.nanToZero 2 ||| bitIf a.accOverflow 3 |||
  bitIf a.intSat 4 ||| bitIf a.intWrap 5 ||| bitIf a.shingleMalformed 6 ||| bitIf a.scaleClamp 7

/-- Bits of GT_ASTAT (R88, R182). SCALE_MISS is set apart, by R181. -/
def Status.gtAstat (a : Status) : W :=
  bitIf a.invalid 0 ||| bitIf a.accOverflow 1 ||| bitIf a.intWrap 2 ||| bitIf a.intSat 3

/-- Bits of TH_ASTAT: OVERFLOW_SAT, NAN_TO_ZERO, INT_SAT, SCALE_CLAMP. -/
def Status.thAstat (a : Status) : W :=
  bitIf a.overflowSat 0 ||| bitIf a.nanToZero 1 ||| bitIf a.intSat 2 ||| bitIf a.scaleClamp 3

/-- Bits of CL_SFU_ASTAT (R194): INVALID and OVERFLOW. -/
def Status.sfuAstat (a : Status) : W := bitIf a.invalid 0 ||| bitIf a.accOverflow 1

end Sys2Proof.Machine
end

