-- ==== Sys2Proof/Machine/State.lean ====
section
/-! DEFINITION. The state of the block: every register, queue, buffer, counter, mode and pin the
specification gives the engine, as plain data, with the queue of waiting commands, and the state
after reset. INVENTORY.md, section State, lists each piece with its rule and reset value.

A register that has no behaviour beyond its access code lives in `Page.regs` at its page offset
(R467 to R472); its reset value is `resetReg` of Machine/Pages.lean. State with behaviour of its
own has a typed field here, and the register that shows it is a view computed on reading. -/

namespace Sys2Proof.Machine

/-! ### Pages (13_register_pages.md) -/

/-- A check or soft reset in progress on a page (STATUS.CHECKING, R475, R477, R479). -/
inductive Check where
  /-- ENABLE of the page (R477) -/
  | enable
  /-- SOFT_RESET (R471) -/
  | softReset
  /-- ARM of weave context `ctx` (R154) -/
  | ctxArm (ctx : Nat)
  /-- ARM of the route and multicast tables of an epoch (R321) -/
  | routeArm (epoch : Nat)
  /-- ARM of the receive table (R392) -/
  | redArm
  /-- ENABLE of an Eave session entry (R429) -/
  | session (entry : Nat)
  /-- COMMIT of a logical cluster (R491) -/
  | commit (lc : Nat)
  /-- MAP_EN of the core map (R493) -/
  | mapEn
  deriving DecidableEq, Repr

/-- The error classes of R599. -/
inductive ErrClass where
  | corrected | contained | gableFatal | engineFatal
  deriving DecidableEq, Repr

/-- A report due on a page (R600): made once for each time a classed FAULT_CAUSE bit went from 0 to 1. -/
structure Report where
  bit : Nat
  cls : ErrClass
  time : W
  detail : Nat := 0
  tint : Nat := 0
  patrol : Bool := false
  deriving DecidableEq, Repr

/-- The common page of R467 and the block's own registers by offset. -/
structure Page where
  /-- CTRL.ENABLE -/
  enable : Bool := false
  /-- CTRL.FREEZE -/
  freeze : Bool := false
  /-- STATUS.CHECKING: the check in progress -/
  check : Option Check := none
  /-- STATUS.REFUSED -/
  refused : Bool := false
  /-- REFUSAL -/
  refusal : W := 0#64
  /-- FAULT_CAUSE, the bits that stay set (R469) -/
  fault : W := 0#64
  /-- IRQ_MASK -/
  irqMask : W := 0#64
  /-- IRQ_STATUS -/
  irqStat : W := 0#64
  /-- SCRATCH -/
  scratch : W := 0#64
  /-- error reports due and not yet written (R600), oldest first -/
  reports : List Report := []
  /-- the block's own registers and counters, offset to value; unlisted reads as its reset value -/
  regs : SMap W := []
  deriving DecidableEq, Repr

/-! ### The core (03_core.md) -/

/-- A flag: state bit and count of sets while set (R115). -/
structure Flag where
  isSet : Bool := false
  count : Nat := 0
  deriving DecidableEq, Repr

/-- What a core does (R128). HALTED is a view: a running core under an engine halt, a STORE_ECC stop or
a save reads HALTED (R126, R172, R277). -/
inductive CoreRun where
  | resetting | stopped | running
  deriving DecidableEq, Repr

/-- STOP_CAUSE (R125). -/
inductive StopCause where
  | none | done | host | illegal | addrRange | opndRange | vflagMiss | eccLocal | eccAcc
  deriving DecidableEq, Repr

/-- One active LOOP level (R99): first body address, last body address, passes left after this one. -/
structure LoopLevel where
  start : Nat
  last : Nat
  remaining : Nat
  deriving DecidableEq, Repr

/-- What a RUNNING core waits for, issuing nothing (R119, R124, R136, R533). -/
inductive CoreWait where
  /-- nothing: the core issues -/
  | none
  /-- flag `f` set; `consume` for FWAITC and VFWAITC -/
  | flag (f : Nat) (consume : Bool)
  /-- input queue `q` (0 to 3) holding too few items, or output queue `q - 4` too full -/
  | queue (q : Nat)
  /-- a rise held until its bay is armed (R533) -/
  | rise
  deriving DecidableEq, Repr

/-- One error bit or more planted in a stored word (R114, R171, R240): `true` when uncorrectable. -/
abbrev EccMark := Bool

/-- A tensor instruction that takes operand B from an input queue (R137, R648): its word, the count K,
the core address of A and its bytes read at issue, the cycles that an operand A in the cluster store still delays the
first occupancy cycle (R141), the occupancy cycles it has spent, the bytes of the items removed. -/
structure TensorJob where
  queue : Nat
  word : BitVec 56
  zero : Bool
  k : Nat
  addr : Nat := 0
  a : List Byte
  lead : Nat := 0
  cyc : Nat := 0
  got : List Byte := []
  deriving DecidableEq, Repr

/-- An instruction that still takes items from an input queue (R136). -/
inductive QOp where
  /-- QRECV: queue, local address of the next item, items to come -/
  | recv (queue addr need : Nat)
  | tmul (job : TensorJob)
  deriving DecidableEq, Repr

/-- What an unfinished instruction of a core writes or still reads (R90): an s or a register, entries of the
accumulator file, bytes at a core address being written, bytes a multiplier instruction still reads. -/
inductive Lock where
  | s (r : Nat)
  | a (r : Nat)
  | acc (lo n : Nat)
  | mem (lo n : Nat)
  | src (lo n : Nat)
  deriving DecidableEq, Repr

/-- A lock and the cycles until it goes (R100, R107, R109, R111, R141). -/
structure Pend where
  lock : Lock
  left : Nat
  deriving DecidableEq, Repr

/-- An item: 64 bytes of payload and LAST (R130), and whether its queue entry has an uncorrectable error
(QUEUE_ECC, R165). -/
structure Item where
  data : BitVec 512 := 0#512
  last : Bool := false
  bad : Bool := false
  deriving DecidableEq, Repr

/-- A physical core. -/
structure Core where
  /-- scalar registers s0 to s31 (s0 is never listed, R91) -/
  s : SMap W32 := []
  /-- address registers a0 to a7 -/
  a : SMap W32 := []
  /-- PC, 16 bits -/
  pc : BitVec 16 := 0#16
  /-- active LOOP levels, innermost first, at most two (R99) -/
  loops : List LoopLevel := []
  /-- accumulator file, 2,048 entries -/
  acc : SMap W32 := []
  /-- local memory, byte address 0 to 0xBFFF -/
  lm : List Host.Cell := []
  /-- words of local memory with an error (address / 8), R113, R114 -/
  lmErr : SMap (Option EccMark) := []
  /-- accumulator entries with an error, R113, R114 -/
  accErr : SMap (Option EccMark) := []
  /-- flags f0 to f47 -/
  flags : SMap Flag := []
  /-- CL_CORE_ARITH.SAT_FP8 (R87) -/
  satFp8 : Bool := true
  /-- CL_CORE_ASTAT (R87) -/
  astat : W := 0#64
  /-- CL_CORE_SR_SEED -/
  srSeed : W := 0#64
  /-- CL_CORE_SR_CTR -/
  srCtr : W := 0#64
  /-- CL_CORE_FSTAT -/
  fstat : W := 0#64
  /-- CL_CORE_CTRL.O2_MODE -/
  o2 : Bool := false
  /-- CL_CORE_STATE.STATE -/
  run : CoreRun := .stopped
  /-- CL_CORE_STATE.STOP_CAUSE -/
  cause : StopCause := .none
  /-- what the core waits for -/
  wait : CoreWait := .none
  /-- occupancy cycles left of the tensor, accumulator or conversion instruction in progress -/
  occ : Nat := 0
  /-- results of earlier instructions not yet usable (R90) -/
  pend : List Pend := []
  /-- queue instructions not yet complete, in program order -/
  qops : List QOp := []
  /-- items sent by instructions and not yet in output queue 0 or 1 (R136) -/
  backlog : SMap (List Item) := []
  /-- CL_CORE_ECC -/
  ecc : W := 0#64
  /-- CL_CORE_WORK -/
  work : W := 0#64
  /-- CL_CORE_WAIT -/
  waitCycles : W := 0#64
  /-- the instruction issued last has an operand in the cluster store, for which the core may wait (R141) -/
  portUse : Bool := false
  /-- a work cycle has passed since the clock's last nanosecond: the continuous-wait count starts again (R164) -/
  acted : Bool := false
  /-- CL_CORE_LM_ADDR and CL_CORE_ACC_ADDR -/
  lmAddr : W := 0#64
  accAddr : W := 0#64
  deriving DecidableEq, Repr

/-! ### The weave (04_weave.md) -/

/-- The weave of a cluster. Queues are keyed by queue address (R129). -/
structure Weave where
  /-- the four context images, byte `4096 i + n` (R150) -/
  images : List Host.Cell := []
  /-- words of the images with an error, key `512 ctx + word` (CTX_ECC, R165) -/
  imgErr : SMap (Option EccMark) := []
  /-- validity of contexts 0 to 3 -/
  valid : List Bool := [false, false, false, false]
  /-- the active context -/
  active : Option Nat := none
  /-- WV_CTX_STATE.WRITE_DROP -/
  writeDrop : Bool := false
  /-- a balance fault, CTX_ECC or QUEUE_ECC froze the weave (R165) -/
  faultFreeze : Bool := false
  /-- input queues, at most 8 items each, head first -/
  inq : SMap (List Item) := []
  /-- output queues -/
  outq : SMap (List Item) := []
  /-- steering discard debts, key `2 u + side` (R146) -/
  debts : SMap Nat := []
  /-- items done by the stream of each store port since its context became active (R142) -/
  streamPos : SMap Nat := []
  /-- LAST bits of the items held in each SLACK region, oldest first; their bytes lie in the store (R143) -/
  slack : SMap (List Bool) := []
  /-- input queues that consumed a LAST item since the context became active (R156) -/
  lastSeen : List Nat := []
  /-- physical core resolved at ARM, key `128 ctx + logical core` (R133, R159) -/
  resolved : SMap Nat := []
  /-- items gathered by each mesh port for its open packet (R144) -/
  gather : SMap (List Item) := []
  /-- delivery buffer in front of each mesh port's OQ0 (R310) -/
  delivery : SMap (List Item) := []
  /-- values of a 32-value result held for the next output item of an SFU (R193) -/
  sfuHold : SMap (Option Item) := []
  /-- store-port core served last (R141, R649) -/
  portLast : SMap Nat := []
  /-- continuous-wait count per unit ID (R164), in cycles -/
  waitCount : SMap Nat := []
  /-- units whose present wait has raised its balance fault (R164) -/
  balFaulted : List Nat := []
  deriving DecidableEq, Repr

/-! ### Engines of the cluster store (05, 06, 07) -/

/-- A command an engine works on: its 64 bytes, PROGRESS (R267), finished, thatcher phase; of a gutter command,
which may run beside others, its count in the ring. -/
structure Active where
  cmd : BitVec 512
  place : Nat := 0
  progress : Nat := 0
  finished : Bool := false
  phase : Bool := false
  deriving DecidableEq, Repr

/-- A fault's KIND (R266). -/
inductive FaultKind where
  | notPresent | permission | walkBad | walkRange | hostAts | hostPri | hostPending
  deriving DecidableEq, Repr

/-- One set of park registers (R269, R275). -/
structure Park where
  kind : FaultKind
  capturing : Bool := true
  parked : Bool := false
  dispatched : Bool := false
  /-- its record waited for room in the fault queue (R509) -/
  waited : Bool := false
  /-- raised again after restore with its old FAULT_SEQ (R282) -/
  replay : Bool := false
  side : Bool := false
  write : Bool := false
  phase : Bool := false
  seq : Nat := 0
  va : Nat := 0
  progress : Nat := 0
  time : W := 0#64
  head : Nat := 0
  tag : Nat := 0
  /-- the command's `Active.place` -/
  place : Nat := 0
  deriving DecidableEq, Repr

/-- A TLB entry (R253): page number base, log2 of its size, location or host address, rights, key. -/
structure TlbEntry where
  host : Bool
  va : Nat
  log2 : Nat
  stack : Nat
  offset : Nat
  readable : Bool
  writable : Bool
  key : Nat
  used : Nat
  deriving DecidableEq, Repr

/-- An answer of the host that a unit's access waits for: of a host-region read (R452) its VA, bytes and the SEQ of its
READ_REQ; of a bias request (R462) the line's stack offset, 64 bytes for a read and 0 for ownership, the router its
controller sent it through, and its SEQ there. `data`: what the host answered. -/
structure HostRead where
  va : Nat
  n : Nat
  seq : Nat
  through : Option Nat := none
  /-- when it was sent -/
  asked : W := 0#64
  data : Option (List Byte) := none
  deriving DecidableEq, Repr

/-- A stack read of a ring that waits for its answer (R177): its bay, its requests of up to 256 bytes, and whether the
controller tracks them (R238). -/
structure HeldRead where
  bay : Nat
  n : Nat
  tracked : Bool
  deriving DecidableEq, Repr

/-- An engine that reaches virtual memory: DMA 0, DMA 1, thatcher, gutter or skylight. -/
structure Engine where
  page : Page := {}
  /-- commands started and not completed, per ring (only ring 0 outside DMA), oldest first -/
  work : SMap (List Active) := []
  /-- parked faults per ring -/
  park : SMap (Option Park) := []
  /-- PARKq_INFO.RESUME_DROP per ring -/
  resumeDrop : List Bool := [false, false, false, false]
  /-- a stop under the unit's own error class: nothing more is issued (R219, R241, R247, R265) -/
  dead : Bool := false
  /-- the thatcher's tile buffer (R216): bytes read so far, then the bytes to write -/
  buf : List Byte := []
  /-- ring served last (R176, R649) -/
  lastRing : Nat := 3
  /-- the translation the unit used last (R254) -/
  trans : Option TlbEntry := none
  /-- DMA rings stopped at a bad descriptor (R265) -/
  badRings : List Nat := []
  /-- rings whose access was lost in the mesh: its answer never comes (R308) -/
  lost : List Nat := []
  /-- per ring, its stack read that waits for its answer (R177, R243) -/
  held : SMap (Option HeldRead) := []
  /-- the bytes read and not yet written of a piece whose write waits: by ring of a DMA engine, by `Active.place` of the
  gutter -/
  hand : SMap (List Byte) := []
  /-- per ring, the host's answers that the piece in hand waits for (R452, R462) -/
  hostReads : SMap (List HostRead) := []
  deriving DecidableEq, Repr

/-- A valley's special state (R81). -/
inductive Special where
  | none | posInf | negInf | nan
  deriving DecidableEq, Repr

/-- A valley accumulator (R77). -/
structure Valley where
  v : BitVec 640 := 0#640
  special : Special := .none
  deriving DecidableEq, Repr

/-- Sources of flag sets in the order of R198. -/
inductive SetSource where
  | mesh | dma0 | dma1 | thatcher | gutter | skylight | core (logical : Nat)
  deriving DecidableEq, Repr

/-- A pending set of the flag unit (R198): a flag name, or a doorbell code 0x80 to 0x8A (R196). -/
inductive SetTarget where
  | flag (name : Nat)
  | doorbell (code : Nat)
  deriving DecidableEq, Repr

structure PendingSet where
  source : SetSource
  target : SetTarget
  deriving DecidableEq, Repr

/-- A hint in the cluster's hint queue (R123). -/
structure Hint where
  stamp : W
  lead : Nat
  tag : Nat
  deriving DecidableEq, Repr

/-! ### Translation (07) -/

/-- A unit that waits for a translation: unit number, ring, VA, side and kind of the access, and the command's
`Active.place`. -/
structure Waiter where
  unit : Nat
  ring : Nat
  va : Nat
  side : Bool
  write : Bool
  place : Nat := 0
  deriving DecidableEq, Repr

/-- A walk in progress (R255): the cluster it serves, VA, level 3 down to 0, table, units that wait. -/
structure Walk where
  cl : Nat
  va : Nat
  level : Nat
  stack : Nat
  table : Nat
  waiters : List Waiter
  deriving DecidableEq, Repr

/-- CTU_SAVE_STATE.PHASE (R286). -/
inductive SavePhase where
  | none | stopping | draining | saving | saved | restoring | failed
  deriving DecidableEq, Repr

/-- A save or restore holds the cluster (R277); a FAILED save does not (R512). -/
def SavePhase.holds : SavePhase → Bool
  | .none | .failed => false
  | _ => true

/-- A unit in HOST_PENDING (R259): what it waits for, and whether its Page Request was sent. -/
structure HostPending where
  w : Waiter
  sent : Bool
  deriving DecidableEq, Repr

/-- The CTU of a cluster. -/
structure Ctu where
  page : Page := {}
  /-- TLB, entry number to entry (R253) -/
  tlb : SMap (Option TlbEntry) := []
  /-- lookup counter, the order of least-recently-used replacement -/
  clock : Nat := 0
  /-- an invalidation in progress: base, log2 size, all, broadcast (R257) -/
  inval : Option (Nat × Nat × Bool × Bool) := none
  /-- units waiting for a Translation Completion (R258) -/
  ats : List Waiter := []
  /-- units waiting for a PRG Response -/
  pri : List HostPending := []
  phase : SavePhase := .none
  /-- when DRAINING began (R278) -/
  drainAt : W := 0#64
  /-- a walker read met an uncorrectable line or a refused key while the save stopped the cluster (R278) -/
  saveErr : Bool := false
  deriving DecidableEq, Repr

/-! ### The mesh (08_mesh.md) -/

/-- A packet (R298, R299), its payload byte by byte. -/
structure Packet where
  destLC : Nat := 0
  destCore : Nat := 0
  destUnit : Nat := 0
  srcLC : Nat := 0
  srcSub : Nat := 0
  srcUnit : Nat := 0
  tint : Nat := 0
  channel : Nat := 0
  epoch : Nat := 0
  mcast : Bool := false
  esc : Nat := 0
  mIndex : Nat := 0
  seq : Nat := 0
  ptype : Nat := 0
  ackCh : Nat := 0
  payload : List Byte := []
  /-- left in the mesh by a gable reset: discarded at delivery (R568) -/
  doomed : Bool := false
  deriving DecidableEq, Repr

/-- A packet in a router's input buffer: input port code, the packet (R306), and of a multicast packet the
ports already served (R319). -/
structure InPacket where
  port : Nat
  pkt : Packet
  served : List Nat := []
  deriving DecidableEq, Repr

/-- CL_RT_LINKp.STATE (R338). -/
inductive LinkState where
  | down | up | failing | out
  deriving DecidableEq, Repr

/-- One port's link (R290, R326 to R329). -/
structure Link where
  state : LinkState := .down
  /-- spare in use per group: the wire it stands in for (R290) -/
  spares : SMap (Option Nat) := []
  /-- replays in a row of one flit (R327) -/
  replays : Nat := 0
  /-- of each flit that crosses next, the data and check wires that arrive inverted (R325) -/
  noise : List (List Nat) := []
  /-- a packet with a refused flit: the packet, flits received, further flits in the replay buffer (R326) -/
  replaying : Option (Packet × Nat) := none
  deriving DecidableEq, Repr

/-- A packet not yet acknowledged (R307, R320). -/
structure Outstanding where
  unit : Nat
  sub : Nat
  channel : Nat
  seq : Nat
  sentAt : W
  leaves : Nat := 1
  tint : Nat := 0
  deriving DecidableEq, Repr

/-- A router (R338). -/
structure Router where
  up : Bool := false
  resetting : Bool := false
  valid0 : Bool := false
  valid1 : Bool := false
  cur : Nat := 0
  /-- sources' channels that have not yet changed epoch, by the key of `Packet.srcKey` (R322) -/
  flipping : List Nat := []
  writeDrop : Bool := false
  /-- tables: word `w` of epoch `e` at key `2048 e + w` -/
  route : SMap W := []
  mcast : SMap W := []
  /-- CL_RT_CORRIDOR -/
  corridor : W := 0#64
  /-- packets in the input buffers, oldest first -/
  inbuf : List InPacket := []
  /-- packets that reached this cluster and wait for delivery, oldest first -/
  arrived : List Packet := []
  links : SMap Link := []
  outstanding : List Outstanding := []
  /-- SEQ per source and channel (R302) -/
  seqs : SMap Nat := []
  /-- output port to channel granted last; key `16 port + channel` to input port granted last -/
  lastChan : SMap Nat := []
  lastPort : SMap Nat := []
  /-- corrected symbols per wire of the links that end here, key `2048 port + wire` (R325) -/
  wireErr : SMap Nat := []
  deriving DecidableEq, Repr

/-! ### A cluster -/

structure Cluster where
  page : Page := {}
  weavePage : Page := {}
  /-- physical cores 0 to 135 -/
  cores : SMap Core := []
  weave : Weave := {}
  dma0 : Engine := {}
  dma1 : Engine := {}
  gutter : Engine := {}
  thatcher : Engine := {}
  skylight : Engine := {}
  ctu : Ctu := {}
  router : Router := {}
  /-- the sixteen valleys (R77) -/
  valleys : SMap Valley := []
  /-- cluster store, byte offset 0 to 0xBF_FFFF (R167) -/
  store : List Host.Cell := []
  /-- 64-bit words of the store with an error, offset / 8 (R171) -/
  storeErr : SMap (Option EccMark) := []
  /-- STORE_ECC stop: cores halted, weave frozen, engines stopped (R172) -/
  storeStop : Bool := false
  /-- virtual flag table (R199) -/
  vft : SMap (BitVec 16) := []
  /-- sets that arrived since the flag unit's last cycle, and those it deferred, oldest first (R198) -/
  sets : List PendingSet := []
  deferred : List PendingSet := []
  /-- hint queue, oldest first, at most 8 (R123) -/
  hints : List Hint := []
  /-- posts counted per CL_EV_POSTi since written (R413) -/
  postCount : SMap Nat := []
  /-- microcode store, 1 MiB (R300) -/
  microcode : List Host.Cell := []
  /-- microcode received (R562) -/
  microcodeOk : Bool := false
  /-- logical cluster committed here (R492) -/
  lc : Option Nat := none
  /-- CL_MAP_CTRL.MAP_EN and WRITE_DROP -/
  mapEn : Bool := false
  mapDrop : Bool := false
  /-- clock locked at step CLOCKS -/
  locked : Bool := false
  /-- marked unusable; a hole (R331) -/
  unusable : Bool := false
  hole : Bool := false
  /-- hints whose arming fell due: phase tag and due time (R531, R532) -/
  dueHints : List (Nat × W) := []
  /-- eight-thousandths of a cycle left over from the last nanosecond (R287, R534) -/
  cycFrac : Nat := 0
  /-- clock frequency in MHz (R287) and stretch level of the cluster's own trip (R534) -/
  freq : Nat := 2000
  stretch : Nat := 0
  /-- sensor, 0.125 degree units (R534) -/
  temp : Nat := 0
  /-- Vmin raises of 10 mV applied, those due, and the reading of the last AGING entry in 0.1 % (R610, R611) -/
  vminRaises : Nat := 0
  vminDue : Nat := 0
  slowdown : Nat := 0
  /-- timebase node count less the timekeeper's; syncs missed in a row (R295) -/
  tbOff : Int := 0
  tbMissed : Nat := 0
  /-- the count below which the node does not read (R296), and whether it takes the next count (R295) -/
  tbFloor : W := 0#64
  tbTake : Bool := false
  /-- when a multiplier of the cluster was last occupied, cycles the clock has passed, and their number then (R532) -/
  lastBusy : Option W := none
  cyc : Nat := 0
  busyCyc : Option Nat := none
  /-- activity counters of R522 that no page shows: tensor-multiplier occupancy cycles by operand formats, key
  `16 A + B`, and special-function firings -/
  tensorCyc : SMap Nat := []
  sfuFires : Nat := 0
  /-- row of the cluster-store patrol (R606) -/
  patrolRow : Nat := 0
  deriving DecidableEq, Repr

/-- The timebase node of a bay or of a field, which has no register page (R295): its count less the timekeeper's, syncs
missed in a row, the count below which it does not read (R296), whether it takes the next count, TB_LOST, SLEWING,
ADJUSTS and the last difference. -/
structure TbNode where
  off : Int := 0
  missed : Nat := 0
  floor : W := 0#64
  take : Bool := false
  lost : Bool := false
  slewing : Bool := false
  adjusts : Nat := 0
  last : Int := 0
  deriving DecidableEq, Repr

/-! ### A bay: stage tile, stack, bay memory controller, walker (07, 15) -/

/-- PW_BAY_STATE.STATE (R542). -/
inductive BayPower where
  | unlit | shaded | lit | latched | latchedHard
  deriving DecidableEq, Repr

/-- A key slot of a bay memory controller (R245): the 512-bit key value and the tint bound to it. -/
structure KeySlot where
  key : BitVec 512
  tint : Nat
  deriving DecidableEq, Repr

/-- A 10 us window of a bay's power (R523, R525): its number, the measured power in 1/16 W, the model value summed over
it in 1/160 W. -/
structure MeasWindow where
  win : Nat
  meas : Nat
  model : Nat
  deriving DecidableEq, Repr

structure Bay where
  /-- BAY page -/
  page : Page := {}
  /-- BAYMEM page -/
  memPage : Page := {}
  power : BayPower := .unlit
  latchCause : Nat := 0
  /-- instant of the last relight (R536) -/
  relitAt : Option W := none
  untested : Bool := false
  stackOk : Bool := false
  /-- tint the bay's node and controller are bound to (R500) -/
  tint : Nat := 0
  /-- stack contents, offset to byte, as written (R236) -/
  stack : List Host.Cell := []
  /-- the key value each 64-byte line was written under; absent: not written by any access (R244, R248) -/
  lineKey : SMap (Option (BitVec 512)) := []
  /-- lines with an error: `true` uncorrectable (R240, R241) -/
  lineErr : SMap (Option EccMark) := []
  /-- key slots 0 to 63 -/
  keys : SMap (Option KeySlot) := []
  /-- retired frames, offset / 65,536 (R243) -/
  retired : List Nat := []
  /-- frame being copied -/
  retiring : Option Nat := none
  /-- save areas written here, by offset: the number of the image and the key it was written under (R279) -/
  images : SMap (Option (Nat × BitVec 512)) := []
  /-- BAY packets waiting at the controller, with the router that delivered them (R651) -/
  arrived : List (Nat × Packet) := []
  /-- walks in progress, key walk number 0 to 15 (R255) -/
  walks : SMap (Option Walk) := []
  /-- patrol: next chunk, passes (R607, R623) -/
  patrolChunk : Nat := 0
  patrolPasses : Nat := 0
  /-- power model: gain in 1/4,096, offset in 1/16 W (R525) -/
  gain : Nat := 4096
  offset : Int := 0
  /-- model value M(b) of the last 1 us window and measured power of the last 10 us window, 1/16 W, and the
  number of that window (R522, R523) -/
  model : Nat := 0
  measured : Nat := 0
  measuredIn : Nat := 0
  /-- model values of 1 us windows by window number, newest first, at most 1,024 (R524) -/
  models : List (Nat × Nat) := []
  /-- activity counters as they stood at the end of the last 1 us window, key `1024 × counter + cluster of the bay`
  (R522) -/
  actSeen : SMap Nat := []
  /-- a fit whose values apply from a 1 us window on: its number, gain and offset (R525) -/
  nextFit : Option (Nat × Nat × Int) := none
  /-- the windows of the last 100 ms, newest first, at most 10,000 (R524, R525) -/
  windows : List MeasWindow := []
  armed : Bool := false
  arming : Bool := false
  /-- instants an arming started and completed (R532) -/
  armingAt : W := 0#64
  armedAt : W := 0#64
  /-- thermal stretch level of the bay, the instant it last moved, and the last at which a sensor of the bay read 95 °C
  or more (R534) -/
  level : Nat := 0
  levelAt : W := 0#64
  hotAt : W := 0#64
  trip : Bool := false
  node : TbNode := {}
  deriving DecidableEq, Repr

/-! ### A field and its controller (16, 18) -/

structure Field where
  page : Page := {}
  running : Bool := false
  nbrLost : Bool := false
  interim : Bool := false
  covering : Bool := false
  romFail : Bool := false
  cover : Bool := false
  heartbeat : BitVec 32 := 0#32
  /-- restarting after FC_RESET (R565) -/
  restarting : Bool := false
  /-- faults counted per tint (R270) -/
  faultCount : SMap Nat := []
  /-- FC_MARK in progress: the register's fields (R614) -/
  marking : Option W := none
  /-- records written to the field ring, SEQ of the last (R601) -/
  seq : Nat := 0
  node : TbNode := {}
  deriving DecidableEq, Repr

/-! ### A gable (09, 10, 14, 15) -/

/-- GB_STEP_STATE.STATE (R354). -/
inductive StepState where
  | idle | armed | running | ended
  deriving DecidableEq, Repr

/-- Stall causes in the order of R352. -/
inductive StallCause where
  | preempt | fault | thermal | fabric | hintmiss | balance
  deriving DecidableEq, Repr

/-- A window of a stall cause (R351): opened at, closed at. -/
structure StallWindow where
  cause : StallCause
  opened : W
  closed : Option W
  deriving DecidableEq, Repr

/-- A copy of a contribution being received (R380): bytes accepted, end known, writes open, lost, stamp, digest. -/
structure CopyState where
  /-- 64-byte lines accepted -/
  lines : List Nat := []
  /-- end of the last-marked frame -/
  len : Option Nat := none
  /-- complete: all its bytes, and every STORE write acknowledged -/
  complete : Bool := false
  /-- it cannot complete: a frame was dropped beyond MAXLEN (R386), a write was refused, or it was incomplete
  when pre-emption began (R387) -/
  broken : Bool := false
  /-- it never has all its bytes in time: the first and the third of these -/
  cut : Bool := false
  /-- stamp of the frame that completed its bytes, and the port it came to -/
  stamp : Option W := none
  port : Nat := 0
  /-- contribution digest so far (R388) -/
  digest : BitVec 128 := 0#128
  deriving DecidableEq, Repr

/-- The selection word of a CHOSEN entry (R383): none; to be sent; acknowledged; refused or lost; acknowledged and its
FLAG packet sent. -/
inductive SelState where
  | none | due | written | refused | flagged
  deriving DecidableEq, Repr

/-- Status of a receive-table entry (R391). -/
structure RedEntry where
  /-- 0 IDLE, 1 WAITING, 2 HELD, 3 CHOSEN, 4 MISSING, 5 SENT -/
  state : Nat := 0
  chosen : Nat := 0
  mismatch : Bool := false
  compared : Bool := false
  sel : SelState := .none
  /-- its FABRIC window, opened at DUE, is open (R351) -/
  late : Bool := false
  len : Nat := 0
  primary : CopyState := {}
  backup : CopyState := {}
  deriving DecidableEq, Repr

/-- Counts of an open meter period and totals (R514). -/
structure Meter where
  isOpen : Bool := false
  enableId : W := 0#64
  seq : Nat := 0
  tStart : W := 0#64
  /-- MT_INTERVAL when the period started (R518), and when a full ring last got room (R515) -/
  interval : Nat := 3600
  ringFreed : W := 0#64
  steps : Nat := 0
  work : Nat := 0
  elapsed : Nat := 0
  report : Nat := 0
  stalls : List Nat := [0, 0, 0, 0, 0, 0]
  /-- 1/16 uJ and 1/65,536 uJ -/
  energyMeas : Nat := 0
  energyEst : Nat := 0
  stackRead : Nat := 0
  stackWrite : Nat := 0
  fabricTx : Nat := 0
  fabricRx : Nat := 0
  peak : Nat := 0
  skyDoubt : Nat := 0
  skyLost : Nat := 0
  skyMadeup : Nat := 0
  ppsLost : Bool := false
  /-- the last record built, 1,024 bytes, first byte first -/
  last : List Byte := []
  /-- records built and not yet written to the ring -/
  unwritten : List (List Byte) := []
  /-- MT_LAST_SEQ -/
  lastSeq : Nat := 0
  deriving DecidableEq, Repr

structure Gable where
  page : Page := {}
  enableId : W := 0#64
  dormant : Bool := false
  /-- corridor and bay masks in force are GB_BAYSw and GB_CORRw of `page.regs` -/
  disableDrop : Bool := false
  cmdDrop : Bool := false
  /-- save or restore in progress -/
  saving : Bool := false
  restoring : Bool := false
  /-- gable reset in progress (R568) -/
  resetting : Bool := false
  keylog : BitVec 512 := 0#512
  /-- CONFIG measurement in force (R587) -/
  config : BitVec 512 := 0#512
  /-- session KEY_IDs loaded since ENABLE (R596) -/
  keyIds : List W := []
  /-- step: state, armed instant, attempt start, totals charged at the earlier end (R344 to R346) -/
  step : StepState := .idle
  stepAt : W := 0#64
  firstStart : Option W := none
  windows : List StallWindow := []
  /-- elapsed, stalls and work added to the meter at the step's earlier end (R346) -/
  charged : List Nat := []
  /-- work cycles of the gable's cores at the start of the attempt (R353) -/
  workAt : Nat := 0
  /-- the cause whose window of an attempt to be repeated closes at the next start (R351) -/
  repeats : Option StallCause := none
  /-- receive table: configuration bytes, entry × 128 + byte; status; armed; ATTEMPT -/
  redMem : List Host.Cell := []
  red : SMap RedEntry := []
  redArm : Bool := false
  redAttempt : Nat := 0
  /-- a digest in progress: its layer (R389) -/
  redDigest : Option Nat := none
  /-- power: CEIL, opportunistic target, windows in a row at or below 0.95 A and above A, overdraw level -/
  ceil : Nat := 256
  target : Nat := 0
  calm : Nat := 0
  overWin : Nat := 0
  overdraw : Bool := false
  odLevel : Nat := 0
  /-- one more than the number of the 1 us window last judged by R530 and by R534; 0: none -/
  oppWin : Nat := 0
  odWin : Nat := 0
  /-- instant the overdraw level last moved (R534) -/
  odAt : W := 0#64
  /-- corrected estimates of the last 1 us windows in 1/65,536 W, newest first, at most 128, by the number of the
  window (R531, R534) -/
  ests : List (Nat × Int) := []
  /-- LEARN in 1/65,536 W (R531) -/
  learn : SMap Int := []
  meter : Meter := {}
  /-- counts of the events stamped after the open period's end, which METER_PERIOD_END has not yet ended: `k` periods
  later (R515) -/
  later : SMap Meter := []
  /-- CONTAINED and GABLE-FATAL errors reported for the tint in the running or last attempt: instant, and whether
  the error is a balance fault (R351) -/
  errs : List (W × Bool) := []
  /-- instants at which a gutter of the gable set SCALE_MISS in the present attempt (R373) -/
  misses : List W := []
  deriving DecidableEq, Repr

/-! ### An eave port (11) -/

inductive EaveLinkState where
  | down | training | up | out
  deriving DecidableEq, Repr

/-- A link of a port (R396 to R399): state, the lanes it last trained to, whether it retrains on its own, since when it
has lost lock, and the instants of its retrains on its own. -/
structure EaveLink where
  state : EaveLinkState := .down
  lanes : List Nat := []
  own : Bool := false
  lostAt : W := 0#64
  retrains : List W := []
  deriving DecidableEq, Repr

/-- A post queued at a port (R413, R414): posting cluster, tint, descriptor offset. -/
structure Post where
  lc : Nat
  tint : Nat
  desc : Nat
  deriving DecidableEq, Repr

/-- A send in progress (R417): a number of its own, descriptor, posting cluster, next byte. -/
structure Send where
  id : Nat
  desc : BitVec 512
  lc : Nat
  tint : Nat
  next : Nat := 0
  deriving DecidableEq, Repr

/-- A DATA frame (R403). -/
structure Frame where
  session : Nat := 0
  srcEngine : Nat := 0
  dstEngine : Nat := 0
  psn : Nat := 0
  last : Bool := false
  step : Nat := 0
  attempt : Nat := 0
  contrib : Nat := 0
  offset : Nat := 0
  payload : List Byte := []
  deriving DecidableEq, Repr

/-- A frame sent and not covered (R409): its header fields without payload, its payload's length and
place, the send it belongs to, sendings, whether it was sent again on an ACK since its last sending by
timer, whether it is to be sent again. -/
structure TxFrame where
  frame : Frame
  len : Nat
  lc : Nat
  src : Nat
  send : Nat
  sendings : Nat := 1
  sentAt : W := 0#64
  fastResent : Bool := false
  due : Bool := false
  /-- the bytes before its Eave header, as first sent (R405) -/
  outer : List Byte := []
  deriving DecidableEq, Repr

/-- A session's running state beside its entry words (R406 to R411, R428). -/
structure Session where
  /-- words 0 to 4 of the entry -/
  words : SMap W := []
  /-- 0 IDLE, 1 OPEN, 2 FAILED, 3 EXHAUSTED -/
  state : Nat := 0
  key : Option (BitVec 256 × BitVec 32) := none
  /-- next PSN of the DATA and of the ACK stream -/
  txPsn : Nat := 0
  ackPsn : Nat := 0
  /-- H of R407, the accepted PSNs of its record, the lowest PSN not yet accepted -/
  rxH : Nat := 0
  rxSeen : List Nat := []
  rxCum : Nat := 0
  /-- PSN of the last ACK accepted -/
  lastAckPsn : Option Nat := none
  /-- frames accepted since the last ACK, the instant of the first of them, an ACK owed, ECHO to come -/
  sinceAck : Nat := 0
  firstAt : W := 0#64
  ackDue : Bool := false
  echo : Bool := false
  inflight : List TxFrame := []
  /-- RATE, the allowance in 1/80 byte and the instant it was last brought up to date (R411) -/
  rate : Nat := 0
  allow : Nat := 0
  allowAt : W := 0#64
  decreasedAt : Option W := none
  /-- start of a hold of the session's retransmission timers (R398, R424, R425) -/
  heldAt : Option W := none
  deriving DecidableEq, Repr

/-- Received payload a port has still to write: gable, entry of its receive table and whether it is the backup's copy
(`none` once the table is armed anew), logical cluster, store offset, bytes, priority it came with. -/
structure PortWrite where
  tint : Nat
  entry : Option (Nat × Bool)
  lc : Nat
  off : Nat
  bytes : List Byte
  prio : Nat
  deriving DecidableEq, Repr

structure Eave where
  page : Page := {}
  link0 : EaveLink := {}
  link1 : EaveLink := {}
  sessions : SMap Session := []
  /-- packets delivered to the port and not yet received, with the cluster they came through -/
  arrived : List Packet := []
  posts : List Post := []
  /-- sends in progress, at most 16, the next in turn first, and the number the next one takes -/
  sends : List Send := []
  nextSend : Nat := 0
  /-- pause quanta in force per priority (R402) -/
  paused : SMap Nat := []
  /-- priorities the port pauses -/
  pausing : List Nat := []
  /-- payload in the receive buffer, waiting to be written to a store, oldest first (R402) -/
  waiting : List PortWrite := []
  /-- payload counters per tint (R423): key `2 t` sent, `2 t + 1` received -/
  counters : SMap Nat := []
  /-- injection: epoch, channels still to change, SEQ per channel, packets not acknowledged -/
  cur : Nat := 0
  flipping : List Nat := []
  seqs : SMap Nat := []
  outstanding : List Outstanding := []
  deriving DecidableEq, Repr

/-! ### The host link (12) -/

/-- What the engine has sent to the host or driven at its pins, in order. -/
inductive Output where
  /-- a posted write to host memory with the Requester ID of function `fn` (0 the PF) -/
  | hostWrite (fn addr : Nat) (data : List Byte)
  /-- a read request to host memory -/
  | hostRead (fn addr len : Nat)
  /-- a read of a line of a watched ring into the device cache (R450) -/
  | cacheRead (fn addr : Nat)
  /-- an MSI-X message -/
  | vector (fn vec : Nat)
  /-- an ATS Translation Request, Page Request or Invalidate Completion -/
  | ats (fn : Nat) (va : Nat)
  | pri (fn : Nat) (va : Nat)
  | invalDone (fn : Nat)
  /-- RdCurr or RdOwnNoData of a bias request for a window's offset (R462) -/
  | bias (own : Bool) (window offset : Nat)
  /-- data returned for a CXL.mem read; `none` is poison (R457) -/
  | memData (data : Option (List Byte))
  | memDone
  /-- a register value returned for a BAR0 read -/
  | readData (v : W)
  /-- an SPDM response: code and body -/
  | spdm (code : Nat) (body : List Byte)
  /-- an MCTP response -/
  | mctp (body : List Byte)
  /-- an Eave frame at a link of a port, from its destination MAC to the byte before its FCS -/
  | frame (port link : Nat) (bytes : List Byte)
  /-- a PFC frame of a port that pauses a priority, or releases it (R402) -/
  | pfc (port prio : Nat) (pause : Bool)
  /-- TDO capture: the register selected and its captured value -/
  | tdo (len : Nat) (v : Nat)
  deriving DecidableEq, Repr

/-- A queue command in progress at the HIB (R444): function and queue, its 64 bytes, status so far,
packets or writes not yet answered, finished. -/
structure HibCmd where
  fn : Nat
  queue : Nat
  cmd : BitVec 512
  /-- the command's 16-bit count in its ring -/
  ix : Nat := 0
  status : Nat := 0
  done : Bool := false
  /-- bytes moved, or packets injected -/
  next : Nat := 0
  /-- packets injected and not yet answered: channel and SEQ (R307) -/
  waits : List (Nat × Nat) := []
  /-- its queue was disabled or its function reset (R449) -/
  abort : Bool := false
  /-- a Function Level Reset or PERST_N: no completion is written -/
  silent : Bool := false
  /-- its queue has been enabled again since: its entry is none of the ring's any more (R465) -/
  old : Bool := false
  deriving DecidableEq, Repr

/-- One queue pair (R465). Key `64 fn + q` with fn 0 the PF. -/
structure QueuePair where
  regs : SMap W := []
  sqEnable : Bool := false
  cqEnable : Bool := false
  ovf : Bool := false
  error : Bool := false
  /-- count of the next entry to start, and the counts beyond HEAD already complete (R444) -/
  started : Nat := 0
  ahead : List Nat := []
  /-- the next entry could not start: 0 waits for the earlier commands (FENCE), 1 + t for the
  pre-emption of tint t to end (R449) -/
  blocked : Option Nat := none
  deriving DecidableEq, Repr

/-- An HDM window (R455): ENABLE, REFUSED, code; decoder committed. -/
structure Window where
  enable : Bool := false
  refused : Bool := false
  code : Nat := 0
  committed : Bool := false
  /-- the decoder reads Error Not Committed (R454) -/
  commitErr : Bool := false
  deriving DecidableEq, Repr

/-- A CXL.mem request that waits to be carried to its bay (R457): window, offset, and the line a write brings. -/
structure MemReq where
  win : Nat
  off : Nat
  line : Option (BitVec 512)
  deriving DecidableEq, Repr

structure HostLink where
  /-- host-link page registers (R466) -/
  regs : SMap W := []
  up : Bool := false
  width : Nat := 0
  /-- SPEED encoding -/
  speed : Nat := 0
  cxl : Bool := false
  linkChange : Bool := false
  retrains : Nat := 0
  ioIde : Bool := false
  cmIde : Bool := false
  /-- an active IDE stream stopped and both are not yet active again (R464) -/
  ideStopped : Bool := false
  /-- CXL.cache and CXL.mem enabled by step HOST -/
  cxlOn : Bool := false
  queues : SMap QueuePair := []
  /-- commands in progress, at most 32 -/
  running : List HibCmd := []
  /-- queue served last, index in the order of R444 -/
  lastQueue : Nat := 575
  windows : SMap Window := []
  /-- regions in device bias, key `window × 2^20 + region` (R459) -/
  deviceBias : List Nat := []
  biasBusy : Option (Nat × Bool × Nat × Nat) := none
  /-- VFs whose ATS Enable bit is set in configuration space (R286) -/
  atsEnabled : List Nat := []
  /-- MSI-X table: words 2 v and 2 v + 1 of vector v = `2048 fn + vector`; bit 32 of the second word
  masks (R439, R442) -/
  msix : SMap W := []
  /-- pending bits, key `2048 fn + vector` -/
  pendingVec : List Nat := []
  /-- HOST packets waiting at the HIB, with the router that delivered them -/
  arrived : List (Nat × Packet) := []
  /-- host reads outstanding: the READ_REQ packets they answer, with their router -/
  reads : List (Nat × Packet) := []
  /-- injection: epoch, channels still to change, attach cluster -/
  cur : Nat := 0
  flipping : List Nat := []
  attach : Nat := 0
  seqs : SMap Nat := []
  outstanding : List Outstanding := []
  /-- attach clusters whose link to the host bridge is OUT (R433) -/
  attachOut : List Nat := []
  /-- Device Control of configuration space: Max Payload Size in bits [7:5], Max Read Request Size in bits [14:12], as
  2^(7 + field) bytes (R452, log entry 17) -/
  devCtl : W := 0x2000#64
  /-- CXL.mem requests that wait, oldest first (R457) -/
  memReqs : List MemReq := []
  /-- errors reported through AER, and through the CXL RAS capability (R432, R436, R457) -/
  aer : Nat := 0
  ras : Nat := 0
  /-- ATS invalidations whose completion is still to be sent (R260): VF, and the range of the host region -/
  invals : List (Nat × Nat × Nat) := []
  /-- traffic held while HELD reads 1, oldest first (R437) -/
  heldOut : List Output := []
  deriving DecidableEq, Repr

/-! ### Security (17) -/

/-- A private-key operation waiting for or in the signing engine (R591). -/
inductive SignJob where
  /-- T_END, tint, the body with PREV and the signature still to come -/
  | meter (tEnd : W) (tint : Nat) (body : List Byte)
  | report (body : List Byte)
  | keyLoad (cmd : W) (bays : List Nat) (blob : BitVec 4096)
  | spdm (code : Nat) (body : List Byte)
  deriving DecidableEq, Repr

structure Sec where
  page : Page := {}
  keyReady : Bool := false
  /-- RNG_OK, and a health test that failed (R580) -/
  rngOk : Bool := false
  rngFailed : Bool := false
  /-- the flash counters' answers authenticate (R581, R583) -/
  ctrOk : Bool := true
  /-- jobs, first served first -/
  jobs : List SignJob := []
  report : List Byte := []
  reportBusy : Bool := false
  reportDrop : Bool := false
  blob : SMap W := []
  keyBusy : Bool := false
  /-- a decrypted stack load waiting for the controllers to swap (R594): slot, tint, key, bays -/
  swap : Option (Nat × Nat × BitVec 512 × List Nat) := none
  /-- counters RECORD_SVN, FW_SVN, WEAR_SEQ (R581) -/
  counters : List Nat := [0, 0, 0]
  /-- SPDM: negotiated, secured sessions open, IDE keyed by session -/
  negotiated : Bool := false
  sessions : List (Nat × Bool) := []
  ideSession : Option Nat := none
  deriving DecidableEq, Repr

/-! ### Flash and bring-up (16) -/

/-- A wear-log entry (R555): type, time, the numbers of DATA in the order R555 names them, MAC valid. -/
structure WearEntry where
  kind : Nat
  time : W
  data : List Nat
  macOk : Bool := true
  deriving DecidableEq, Repr

/-- The signed base of the wafer record (R554) by its fields, and whether each check of R556 holds of
its bytes. -/
structure WaferRecord where
  format : Nat := 1
  /-- DIRECTORY: TYPE, OFFSET and LENGTH of each of the NSECT sections -/
  directory : List (Nat × Nat × Nat) := (List.range 8).map fun k => (k + 1, 192, 0)
  /-- NSECT -/
  nsect : Nat := 8
  /-- LENGTH, the bytes under the signature -/
  length : Nat := 192
  signature : BitVec 4096 := 0#4096
  /-- the vendor signature holds; the wrapped device key of IDENTITY unwraps -/
  sigOk : Bool := true
  keyOk : Bool := true
  serial : W := 0#64
  waferId : W := 0#64
  grade : Nat := 3840
  stepping : Nat := 1
  svn : Nat := 0
  /-- DEFECT byte 0 per physical cluster (0 usable, 1 unusable, 2 hole) and dead-core bitmap -/
  defects : SMap Nat := []
  deadCores : SMap (BitVec 136) := []
  /-- spares in use per link, key `8 cl + port` -/
  spareWires : SMap Nat := []
  /-- Vmin in mV, key `32 cl + step` for 2,000 MHz + 50 step -/
  vmin : SMap Nat := []
  /-- the sections whose layout is not given, as bytes, by TYPE: SRAM_REPAIR, TRIM, POWER_MODEL, SPARE_WIRES, IDENTITY,
  AGING_BASE -/
  sections : SMap (List Byte) := []
  deriving DecidableEq, Repr

/-- BU_STEP_STATUS.STATE (R571). -/
inductive BuState where
  | idle | running | opened | done | refused | failed
  deriving DecidableEq, Repr

/-- The state block (R552): the stacks whose training it holds, the last-known-good digest and its MAC. -/
structure StateBlock where
  trained : List Nat
  digest : BitVec 512
  mac : List Byte
  deriving DecidableEq, Repr

structure Bringup where
  page : Page := {}
  /-- the identity that the wafer itself reports at step RIDGE (R554) -/
  waferId : W := 0#64
  step : Nat := 0
  state : BuState := .idle
  fail : Nat := 0
  detail : Nat := 0
  /-- a failure the running step has met already: FAIL and DETAIL -/
  found : Option (Nat × Nat) := none
  /-- step STACKS has not yet ended since the last cold reset: no tint 0 key is loaded (R245, R546) -/
  coldStacks : Bool := true
  /-- steps STACKS that wrote every line, one after each cold reset (R236) -/
  stackFills : Nat := 0
  /-- BU_DONE bits 0 to 11 -/
  done : W := 0#64
  fastOk : Bool := false
  testSkipped : Bool := false
  testRan : Bool := false
  lastReset : Nat := 0
  clocksStarted : Bool := false
  eaveStarted : Bool := false
  mapStarted : Bool := false
  record : WaferRecord := {}
  wear : List WearEntry := []
  /-- Talnus image region: words the host wrote, whether it has been erased, and of the image as shipped the
  validity of its signature and its SVN (R558, R561) -/
  image : SMap (Option W) := []
  imageOwn : Bool := false
  imageSigOk : Bool := true
  imageSvn : Nat := 0
  imgBusy : Bool := false
  imgDrop : Bool := false
  /-- image and record measured at the last FIRMWARE and RECORD (R586) -/
  fwMeasure : BitVec 512 := 0#512
  recMeasure : BitVec 512 := 0#512
  runningSvn : Nat := 0
  verifiedSvn : Nat := 0
  /-- the state block, once written (R552) -/
  block : Option StateBlock := none
  testBay : Option Nat := none
  testResult : Nat := 0
  deriving DecidableEq, Repr

/-! ### The module (19, 15, 08) -/

structure Timekeeper where
  page : Page := {}
  /-- the 64-bit nanosecond count (R293) -/
  now : W := 0#64
  /-- count at the last accepted pulse -/
  ppsLast : Option W := none
  /-- accepted pulses in a row within 100 ns of a multiple of 10^9 (LOCKED) -/
  locked : Nat := 0
  /-- trim in parts per billion -/
  trim : Int := 0
  deriving DecidableEq, Repr

structure Module where
  /-- standby rail in regulation -/
  standby : Bool := true
  /-- the module is Dark (R540) -/
  dark : Bool := false
  /-- 48 V bus present: the wafer can be powered -/
  bus48 : Bool := true
  /-- blades present -/
  blades : Nat := 2
  /-- pin levels: true is high -/
  haltN : Bool := true
  perstN : Bool := true
  wakeN : Bool := true
  slotId : Nat := 0
  /-- DEV_HALT.HALT, HALTED, an ENGINE-FATAL halt of R603 -/
  haltReg : Bool := false
  haltedBit : Bool := false
  fatalHalt : Bool := false
  /-- TAP instruction register (R640) and the boundary levels it drives -/
  tapIr : Nat := 1
  /-- MCTP endpoint ID (R634) -/
  eid : Nat := 0
  /-- the last readings since reset: inlet in 0.01 degree, input in 0.1 V (R537, R542) -/
  inlet : Option Nat := none
  input : Option Nat := none
  inletHi : Bool := false
  /-- since when the input has been outside 700 to 860 V (R537) -/
  inputBad : Option W := none
  deriving DecidableEq, Repr

/-- Everything the engine holds. -/
structure Chip where
  /-- free values drawn so far: the model's own field, not the specification's -/
  draws : Nat := 0
  /-- what the engine has sent, oldest first -/
  out : List Output := []
  module : Module := {}
  tk : Timekeeper := {}
  dev : Page := {}
  hib : Page := {}
  meterPage : Page := {}
  /-- the Meter block's counts of tint 0 (R514) -/
  meter0 : Meter := {}
  powerPage : Page := {}
  sec : Sec := {}
  bringup : Bringup := {}
  /-- Wafer Map Table entries (R489) and committed logical clusters with their physical cluster -/
  wmt : SMap W := []
  committed : SMap (Option Nat) := []
  wmtErr : SMap (Option EccMark) := []
  link : HostLink := {}
  fields : SMap Field := []
  bays : SMap Bay := []
  clusters : SMap Cluster := []
  gables : SMap Gable := []
  eaves : SMap Eave := []
  /-- cluster images saved, oldest first: image number is place in the list (R279) -/
  saved : List Cluster := []
  deriving DecidableEq, Repr

/-- The whole state: the engine and the commands waiting for it. -/
structure State extends Chip where
  /-- commands waiting, first in first out -/
  pending : List Instr := []
  deriving DecidableEq, Repr

/-- The state after reset: standby power has come up, nothing is lit, configured or queued, and
every register reads its reset value (R566, log entry 2). -/
def State.reset : State := {}

/-- Why a step stops with a fault. -/
inductive Fault where
  /-- A command names a cluster, core, field, bay, gable, port, ring or queue beyond the identifiers
  of R7 and R129. Raised by the meaning that looks the unit up. Safe: the engine has no such unit. -/
  | noSuchUnit
  deriving DecidableEq, Repr

/-- Why a step refuses. -/
inductive Refusal where
  /-- Raised by an arm of Dispatch for a command without a meaning yet. Safe: nothing is claimed of it. -/
  | notModelled (mnemonic : String)
  deriving DecidableEq, Repr

end Sys2Proof.Machine
end

