-- ==== Sys2Proof/Machine/Operands.lean ====
section
/-! DEFINITION. The number formats (chapter 02): exact values, decoding and encoding of every format
of R39, rounding, stochastic rounding, FP32 arithmetic, MX blocks, Shingle-2 groups, valleys. -/

namespace Sys2Proof.Machine

open Sys2Proof

/-! ### Exact values -/

/-- The exact value of an operand: (−1)^neg × m × 2^e, an infinity, or a NaN. -/
inductive XNum where
  | fin (neg : Bool) (m : Nat) (e : Int)
  | inf (neg : Bool)
  | nan
  deriving DecidableEq, Repr

def XNum.zero : XNum := .fin false 0 0

def XNum.isNan : XNum → Bool
  | .nan => true
  | _ => false

def XNum.isInf : XNum → Bool
  | .inf _ => true
  | _ => false

def XNum.isZero : XNum → Bool
  | .fin _ m _ => m = 0
  | _ => false

def XNum.negative : XNum → Bool
  | .fin n _ _ => n
  | .inf n => n
  | .nan => false

def XNum.neg : XNum → XNum
  | .fin n m e => .fin (!n) m e
  | .inf n => .inf (!n)
  | .nan => .nan

def XNum.abs : XNum → XNum
  | .fin _ m e => .fin false m e
  | .inf _ => .inf false
  | .nan => .nan

/-- The value times 2^k. -/
def XNum.scale (x : XNum) (k : Int) : XNum :=
  match x with
  | .fin n m e => .fin n m (e + k)
  | y => y

def XNum.ofInt (i : Int) : XNum := .fin (i < 0) i.natAbs 0

/-- Signed mantissa at exponent `e0`, for `e0` at or below the value's own exponent. -/
def alignTo (neg : Bool) (m : Nat) (e e0 : Int) : Int :=
  let k : Int := (m <<< (e - e0).toNat : Nat)
  if neg then -k else k

/-- Exact product; a product of zero and infinity is a NaN and an invalid operation (R73). -/
def XNum.mul (a b : XNum) : XNum × Bool :=
  match a, b with
  | .nan, _ => (.nan, false)
  | _, .nan => (.nan, false)
  | .inf s, .inf t => (.inf (s != t), false)
  | .inf s, .fin t m _ => if m = 0 then (.nan, true) else (.inf (s != t), false)
  | .fin t m _, .inf s => if m = 0 then (.nan, true) else (.inf (s != t), false)
  | .fin s m e, .fin t n f => (.fin (s != t) (m * n) (e + f), false)

/-- Exact sum with the signed zeros of IEEE 754; infinities of opposite sign are invalid (R73). -/
def XNum.add (a b : XNum) : XNum × Bool :=
  match a, b with
  | .nan, _ => (.nan, false)
  | _, .nan => (.nan, false)
  | .inf s, .inf t => if s = t then (.inf s, false) else (.nan, true)
  | .inf s, _ => (.inf s, false)
  | _, .inf t => (.inf t, false)
  | .fin s m e, .fin t n f =>
    if m = 0 ∧ n = 0 then (.fin (s && t) 0 0, false)
    else
      let e0 := min e f
      let k := alignTo s m e e0 + alignTo t n f e0
      (.fin (decide (k < 0)) k.natAbs e0, false)

/-- `a < b` of two values that are no NaN. -/
def XNum.lt (a b : XNum) : Bool :=
  match a, b with
  | .inf s, .inf t => s && !t
  | .inf s, _ => s
  | _, .inf t => !t
  | .fin s m e, .fin t n f =>
    let e0 := min e f
    decide (alignTo s m e e0 < alignTo t n f e0)
  | _, _ => false

def XNum.le (a b : XNum) : Bool :=
  match a, b with
  | .nan, _ => false
  | _, .nan => false
  | x, y => !XNum.lt y x

/-- floor(log2 |x|) of a finite non-zero value. -/
def XNum.log2 : XNum → Int
  | .fin _ m e => (m.log2 : Int) + e
  | _ => 0

/-! ### Formats (R40, R43) -/

/-- How a format spends its top codes: IEEE infinities and NaNs, the one NaN of E4M3, or neither. -/
inductive TopCodes where
  | ieee | e4m3 | none
  deriving DecidableEq, Repr

structure FFmt where
  ebits : Nat
  mbits : Nat
  bias : Nat
  special : TopCodes
  deriving DecidableEq, Repr

def fp32F : FFmt := ⟨8, 23, 127, .ieee⟩
def bf16F : FFmt := ⟨8, 7, 127, .ieee⟩
def e4m3F : FFmt := ⟨4, 3, 7, .e4m3⟩
def e5m2F : FFmt := ⟨5, 2, 15, .ieee⟩
def e3m2F : FFmt := ⟨3, 2, 3, .none⟩
def e2m3F : FFmt := ⟨2, 3, 1, .none⟩
def e2m1F : FFmt := ⟨2, 1, 1, .none⟩

def FFmt.width (f : FFmt) : Nat := 1 + f.ebits + f.mbits

/-- The code of the largest finite magnitude. -/
def FFmt.maxCode (f : FFmt) : Nat :=
  match f.special with
  | .ieee => (2 ^ f.ebits - 1) * 2 ^ f.mbits - 1
  | .e4m3 => 2 ^ (f.ebits + f.mbits) - 2
  | .none => 2 ^ (f.ebits + f.mbits) - 1

def FFmt.signBit (f : FFmt) (neg : Bool) : Nat := if neg then 2 ^ (f.ebits + f.mbits) else 0

/-- Canonical NaN (R44). -/
def FFmt.nan (f : FFmt) : Nat :=
  match f.special with
  | .ieee => (2 ^ f.ebits - 1) * 2 ^ f.mbits + 2 ^ (f.mbits - 1)
  | .e4m3 => 2 ^ (f.ebits + f.mbits) - 1
  | .none => 0

def FFmt.inf (f : FFmt) (neg : Bool) : Nat := f.signBit neg + (2 ^ f.ebits - 1) * 2 ^ f.mbits

/-- The exact value of a code (R40, R43). -/
def FFmt.decode (f : FFmt) (x : Nat) : XNum :=
  let neg := x.testBit (f.ebits + f.mbits)
  let mag := x % 2 ^ (f.ebits + f.mbits)
  let e := mag / 2 ^ f.mbits
  let m := mag % 2 ^ f.mbits
  if mag ≤ f.maxCode then
    if e = 0 then .fin neg m (1 - (f.bias : Int) - f.mbits)
    else .fin neg (2 ^ f.mbits + m) ((e : Int) - f.bias - f.mbits)
  else if f.special = .ieee ∧ m = 0 then .inf neg
  else .nan

/-- Rounding of a magnitude m × 2^e to whole multiples of 2^q: to nearest even, or stochastic with
the 16-bit value `r` (R58, R62). -/
def roundTo (m : Nat) (e q : Int) (r : Option Nat) : Nat :=
  if q ≤ e then m <<< (e - q).toNat
  else
    let s := (q - e).toNat
    let k := m >>> s
    let rem := m % 2 ^ s
    match r with
    | some r => if rem ≠ 0 ∧ rem * 65536 / 2 ^ s + r ≥ 65536 then k + 1 else k
    | none => if 2 * rem > 2 ^ s ∨ (2 * rem = 2 ^ s ∧ k % 2 = 1) then k + 1 else k

/-- The code, in an unbounded exponent range, of the rounded magnitude (R58, R62). -/
def FFmt.roundMag (f : FFmt) (m : Nat) (e : Int) (r : Option Nat) : Nat :=
  if m = 0 then 0
  else
    let top := (m.log2 : Int) + e
    let ex := max top (1 - (f.bias : Int))
    let k := roundTo m e (ex - f.mbits) r
    (ex + f.bias - 1).toNat * 2 ^ f.mbits + k

/-- The midpoint between the largest finite magnitude and the next of an unbounded exponent range. Rounding
to nearest even sends it to that next value (R58), whose code in E4M3 would be odd. -/
def FFmt.topMid (f : FFmt) : XNum :=
  match f.decode f.maxCode with
  | .fin _ k q => .fin false (2 * k + 1) (q - 1)
  | y => y

/-- Rounding to FP32 or BF16 (R59, first row): overflow gives infinity and is reported apart. -/
def FFmt.encodeIeee (f : FFmt) (x : XNum) : Nat × Bool :=
  match x with
  | .nan => (f.nan, false)
  | .inf n => (f.inf n, false)
  | .fin n m e =>
    let c := f.roundMag m e none
    if c > f.maxCode then (f.inf n, true) else (f.signBit n + c, false)

/-- Conversion to an FP8, FP6 or FP4 format with `sat` as SAT_FP8 (R59). -/
def FFmt.encodeNarrow (f : FFmt) (sat : Bool) (r : Option Nat) (x : XNum) : Nat × Status :=
  let ovf (n : Bool) : Nat × Status :=
    if sat ∨ f.special = .none then (f.signBit n + f.maxCode, { overflowSat := true })
    else if f.special = .ieee then (f.inf n, {})
    else (f.nan, {})
  match x with
  | .nan => if f.special = .none then (0, { nanToZero := true }) else (f.nan, {})
  | .inf n => ovf n
  | .fin n m e =>
    let c := f.roundMag m e r
    let x : XNum := .fin false m e
    let mid := r.isNone && !XNum.lt x f.topMid && !XNum.lt f.topMid x
    if mid || c > f.maxCode then ovf n else (f.signBit n + c, {})

/-- Nearest integer of a finite magnitude, ties to even (R60). -/
def roundInt (n : Bool) (m : Nat) (e : Int) : Int :=
  let k : Int := roundTo m e 0 none
  if n then -k else k

/-- Conversion to a two's complement integer of `w` bits (R59, R60), as a code. -/
def encodeInt (w : Nat) (x : XNum) : Nat × Status :=
  let hi : Int := 2 ^ (w - 1) - 1
  let lo : Int := -(2 ^ (w - 1))
  let code (i : Int) : Nat := (i % 2 ^ w).toNat
  match x with
  | .nan => (0, { nanToZero := true })
  | .inf n => (code (if n then lo else hi), { intSat := true })
  | .fin n m e =>
    let i := roundInt n m e
    if i > hi then (code hi, { intSat := true })
    else if i < lo then (code lo, { intSat := true })
    else (code i, {})

/-- Two's complement value of a `w`-bit code. -/
def signedOf (w x : Nat) : Int :=
  let x := x % 2 ^ w
  if x < 2 ^ (w - 1) then x else (x : Int) - 2 ^ w

/-! ### FP32 scalars -/

def fpDecode (x : W32) : XNum := fp32F.decode x.toNat

/-- Round to FP32 to nearest even; `true` beside it when a finite value overflowed. -/
def fpRound (x : XNum) : W32 × Bool :=
  let (c, o) := fp32F.encodeIeee x
  (BitVec.ofNat 32 c, o)

/-- Sum, product and fused multiply-add of FP32 values with one rounding; beside the result whether the
operation was invalid, which a NaN operand never makes it (R98), and whether it overflowed. -/
def fpAdd (a b : W32) : W32 × Bool × Bool :=
  let (x, inv) := XNum.add (fpDecode a) (fpDecode b)
  let (r, o) := fpRound x
  (r, inv, o)

def fpMul (a b : W32) : W32 × Bool × Bool :=
  let (x, inv) := XNum.mul (fpDecode a) (fpDecode b)
  let (r, o) := fpRound x
  (r, inv, o)

def fpFma (a b c : W32) : W32 × Bool × Bool :=
  let (p, i1) := XNum.mul (fpDecode a) (fpDecode b)
  let (x, i2) := XNum.add p (fpDecode c)
  let (r, o) := fpRound x
  (r, (i1 && !(fpDecode c).isNan) || i2, o)

/-- The FP32 quotient of two positive magnitudes m × 2^e and d, rounded once: the quotient is taken
with enough bits that one sticky bit decides every rounding. -/
def fpDivNat (m : Nat) (e : Int) (d : Nat) : XNum :=
  let s := 64 + d.log2
  let q := (m <<< s) / d
  let st := if (m <<< s) % d = 0 then 0 else 1
  .fin false (2 * q + st) (e - s - 1)

/-- minimum and maximum of IEEE 754-2019: a NaN operand gives a NaN, −0 is below +0. -/
def fpLess (a b : XNum) : Bool :=
  match a, b with
  | .fin s m _, .fin t n _ => if m = 0 ∧ n = 0 then s && !t else XNum.lt a b
  | _, _ => XNum.lt a b

def fpMin (a b : W32) : W32 :=
  if (fpDecode a).isNan || (fpDecode b).isNan then 0x7FC00000#32
  else if fpLess (fpDecode b) (fpDecode a) then b else a

def fpMax (a b : W32) : W32 :=
  if (fpDecode a).isNan || (fpDecode b).isNan then 0x7FC00000#32
  else if fpLess (fpDecode a) (fpDecode b) then b else a

/-! ### Element formats by code (R39) -/

/-- The floating-point layout of a format's elements; `none` for integer elements and Shingle-2. -/
def elemF : Nat → Option FFmt
  | 0x0 => some fp32F | 0x1 => some bf16F | 0x2 => some e4m3F | 0x3 => some e5m2F
  | 0x4 => some e3m2F | 0x5 => some e2m3F | 0x6 => some e2m1F
  | 0x8 => some e4m3F | 0x9 => some e5m2F | 0xA => some e3m2F | 0xB => some e2m3F | 0xC => some e2m1F
  | _ => none

/-- Element width in bits (R39); Shingle-2 codes are 2 bits. -/
def elemWidth : Nat → Nat
  | 0x0 => 32 | 0x1 => 16 | 0x2 => 8 | 0x3 => 8 | 0x4 => 6 | 0x5 => 6 | 0x6 => 4 | 0x7 => 8
  | 0x8 => 8 | 0x9 => 8 | 0xA => 6 | 0xB => 6 | 0xC => 4 | 0xD => 8 | 0xE => 2 | _ => 32

/-- MX formats (R54). -/
def isMx (fmt : Nat) : Bool := 0x8 ≤ fmt && fmt ≤ 0xD

/-- Formats held in 32-element blocks with a scale. -/
def isBlock (fmt : Nat) : Bool := 0x8 ≤ fmt && fmt ≤ 0xE

/-- The value of one element code without its block scale; MXINT8 elements are k × 2^−6 (R54), and a Shingle-2
code stands for C = 1 (R50). -/
def elemDecode (fmt x : Nat) : XNum :=
  match elemF fmt with
  | some f => f.decode x
  | none =>
    if fmt = 0xE then
      match x % 4 with
      | 0 => XNum.zero
      | 1 => .fin false 1 0
      | 3 => .fin true 1 0
      | _ => e4m3F.decode Config.bareOutlier.toNat
    else if fmt = 0x7 then XNum.ofInt (signedOf 8 x)
    else if fmt = 0xD then (XNum.ofInt (signedOf 8 x)).scale (-6)
    else XNum.ofInt (signedOf 32 x)

/-- Conversion of an exact value to an element of a format without block scale (R57 to R62). -/
def elemEncode (fmt : Nat) (sat : Bool) (r : Option Nat) (x : XNum) : Nat × Status :=
  match fmt with
  | 0x0 => (((fp32F.encodeIeee x).1), {})
  | 0x1 => (((bf16F.encodeIeee x).1), {})
  | 0x7 => encodeInt 8 x
  | 0xF => encodeInt 32 x
  | _ =>
    match elemF fmt with
    | some f => f.encodeNarrow sat r x
    | none => (0, {})

/-- The little-endian number of a run of bytes. -/
def bytesNat : List Byte → Nat
  | [] => 0
  | b :: bs => b.toNat + 256 * bytesNat bs

/-- `n` bytes of a number, little-endian. -/
def natBytes : Nat → Nat → List Byte
  | 0, _ => []
  | n + 1, x => BitVec.ofNat 8 x :: natBytes n (x / 256)

/-- Element `i` of a run of `w`-bit elements packed as a little-endian bit stream (R41). -/
def elemAt (w stream i : Nat) : Nat := bits stream (w * i) w

/-- A run of `w`-bit codes as one stream (R41). -/
def packElems (w : Nat) : List Nat → Nat
  | [] => 0
  | c :: cs => c % 2 ^ w + 2 ^ w * packElems w cs

/-- Bytes of one 32-element block of a block format (R42, R49). -/
def blockBytes (fmt : Nat) : Nat :=
  if fmt = 0xE then 10 else 4 * elemWidth fmt + 1

/-- Scale exponent of an E8M0 byte; `none` is the NaN scale (R45). -/
def e8m0 (s : Nat) : Option Int := if s = 0xFF then none else some ((s : Int) - 127)

/-- The 32 values of an MX block, given its element stream and its scale byte (R54, R45). -/
def mxValues (fmt stream scale : Nat) : List XNum :=
  (List.range 32).map fun i =>
    match e8m0 scale with
    | none => .nan
    | some k => (elemDecode fmt (elemAt (elemWidth fmt) stream i)).scale k

/-- The 32 values of a Shingle-2 group and whether it is malformed (R50 to R52). -/
def shingleValues (codes course outlier : Nat) : List XNum × Bool :=
  let code (i : Nat) : Nat := bits codes (2 * i) 2
  let idx := (List.range 32).filter fun i => code i = 2
  let vals := (List.range 32).map fun i =>
    match e8m0 course with
    | none => XNum.nan
    | some k =>
      match code i with
      | 0 => XNum.zero
      | 1 => .fin false 1 k
      | 3 => .fin true 1 k
      | _ => if idx.head? = some i then (e4m3F.decode outlier).scale k else XNum.zero
  (vals, decide (idx.length > 1))

/-- The values of one 32-element block held on its own, elements then scale (R42, R49). -/
def blockValues (fmt : Nat) (bs : List Byte) : List XNum × Bool :=
  let x := bytesNat bs
  if fmt = 0xE then shingleValues (bits x 0 64) (bits x 64 8) (bits x 72 8)
  else
    let w := 32 * elemWidth fmt
    (mxValues fmt (bits x 0 w) (bits x w 8), false)

/-! ### Encoding blocks -/

def emaxOf : Nat → Int
  | 0x8 => 8 | 0x9 => 15 | 0xA => 4 | 0xB => 2 | 0xC => 2 | _ => 0

/-- The greatest of floor(log2 |x|) over the finite non-zero values. -/
def maxLog2 (xs : List XNum) : Option Int :=
  xs.foldl (fun acc x =>
    match x with
    | .fin _ m e =>
      if m = 0 then acc
      else
        let l : Int := (m.log2 : Int) + e
        match acc with
        | none => some l
        | some a => some (max a l)
    | _ => acc) none

/-- One element of an MX block already divided by its scale: saturating (R55, R56). -/
def mxElem (fmt : Nat) (r : Option Nat) (x : XNum) : Nat × Status :=
  if fmt = 0xD then
    match x with
    | .inf n => (if n then 0x80 else 0x7F, { overflowSat := true })
    | .nan => (0, {})
    | .fin n m e =>
      let i := roundInt n m (e + 6)
      if i > 127 then (0x7F, { overflowSat := true })
      else if i < -128 then (0x80, { overflowSat := true })
      else ((i % 256).toNat, {})
  else
    match elemF fmt with
    | some f => f.encodeNarrow true r x
    | none => (0, {})

/-- `rs` gives each element its random value when rounding is stochastic. -/
def withRandom (rs : List Nat) (stoch : Bool) (i : Nat) : Option Nat :=
  if stoch then rs[i]? else none

/-- 32 values converted to an MX block: element codes, scale byte, status (R55, R56). -/
def mxEncode (fmt : Nat) (stoch : Bool) (rs : List Nat) (xs : List XNum) : List Nat × Nat × Status :=
  if xs.any XNum.isNan then (xs.map fun _ => 0, 0xFF, {})
  else
    let (x, clamp) : Int × Bool :=
      match maxLog2 xs with
      | none => (0, false)
      | some l =>
        let x := l - emaxOf fmt
        (max (-127) (min 127 x), decide (x < -127 ∨ x > 127))
    let out := (List.range xs.length).map fun i =>
      mxElem fmt (withRandom rs stoch i) ((xs.getD i XNum.zero).scale (-x))
    (out.map (·.1), (x + 127).toNat, out.foldl (fun a p => a.or p.2) { scaleClamp := clamp })

/-- FP32 round to nearest even of an exact value, as a value. -/
def fpVal (x : XNum) : XNum := fpDecode (fpRound x).1

/-- 32 FP32 values converted to a Shingle-2 group: CODES, COURSE, OUTLIER, status (R53). -/
def shingleEncode (xs : List XNum) : Nat × Nat × Nat × Status :=
  if xs.any XNum.isNan then (0, 0xFF, 0, {})
  else
    let st0 : Status := { overflowSat := xs.any XNum.isInf }
    let maxF : XNum := fp32F.decode fp32F.maxCode
    let ys := xs.map fun x => match x with
      | .inf n => if n then maxF.neg else maxF
      | y => y
    let abs (i : Nat) : XNum := (ys.getD i XNum.zero).abs
    let o := (List.range 32).foldl (fun o i => if XNum.lt (abs o) (abs i) then i else o) 0
    let xo := ys.getD o XNum.zero
    let sum := (List.range 32).foldl
      (fun a i => if i = o then a else fpVal (XNum.add a (abs i)).1) XNum.zero
    let a : XNum := match sum with
      | .fin _ m e => if m = 0 then XNum.zero else fpVal (fpDivNat m e 31)
      | y => y
    if a.isZero && xo.isZero then (0, 0x7F, 0, st0)
    else
      let k : Int :=
        if a.isZero then xo.log2
        else if a.isInf then 128
        else
          let l := a.log2
          if XNum.lt a (.fin false 3 (l - 1)) then l else l + 1
      let kc := max (-127) (min 127 k)
      let half : XNum := .fin false 1 (kc - 1)
      let code (i : Nat) : Nat :=
        if i = o then 2
        else if XNum.le half (ys.getD i XNum.zero) then 1
        else if XNum.le (ys.getD i XNum.zero) half.neg then 3
        else 0
      let (out, st1) := e4m3F.encodeNarrow true none (xo.scale (-kc))
      (packElems 2 ((List.range 32).map code), (kc + 127).toNat, out,
        (st0.or st1).or { scaleClamp := decide (k < -127 ∨ k > 127) })

/-- The block held on its own, elements then scale (R42, R49). -/
def blockEncode (fmt : Nat) (stoch : Bool) (rs : List Nat) (xs : List XNum) : List Byte × Status :=
  if fmt = 0xE then
    let (codes, course, out, st) := shingleEncode xs
    (natBytes 8 codes ++ [BitVec.ofNat 8 course, BitVec.ofNat 8 out], st)
  else
    let (cs, sc, st) := mxEncode fmt stoch rs xs
    (natBytes (4 * elemWidth fmt) (packElems (elemWidth fmt) cs) ++ [BitVec.ofNat 8 sc], st)

/-! ### Stochastic rounding generator (R63, R64) -/

/-- Draw `ctr` of the core with logical ID `l` under `seed`. -/
def srDraw (seed : W) (l : Nat) (ctr : W) : W :=
  let z := seed + BitVec.ofNat 64 l * 0x9E3779B97F4A7C15#64 + ctr * 0xD1B54A32D192ED03#64
  let z := (z ^^^ (z >>> 30)) * 0xBF58476D1CE4E5B9#64
  let z := (z ^^^ (z >>> 27)) * 0x94D049BB133111EB#64
  z ^^^ (z >>> 31)

/-- The random values of `n` draws from counter `ctr`, four of a draw. -/
def srValues (seed : W) (l : Nat) (ctr : W) (n : Nat) : List Nat :=
  (List.range n).flatMap fun i =>
    let z := srDraw seed l (ctr + BitVec.ofNat 64 i)
    [fld z 0 16, fld z 16 16, fld z 32 16, fld z 48 16]

/-! ### Valleys (R77 to R83) -/

/-- One term added to a valley; `inv` when the term is itself a product of zero and infinity (R81). -/
def Valley.addTerm (vl : Valley) (t : XNum) (inv : Bool) : Valley × Status :=
  match t with
  | .fin n m e => ({ vl with v := vl.v + BitVec.ofInt 640 (alignTo n m e (-298)) }, {})
  | .nan => ({ vl with special := .nan }, { invalid := inv })
  | .inf n =>
    match vl.special, n with
    | .none, false => ({ vl with special := .posInf }, {})
    | .none, true => ({ vl with special := .negInf }, {})
    | .posInf, false => (vl, {})
    | .negInf, true => (vl, {})
    | .nan, _ => (vl, {})
    | _, _ => ({ vl with special := .nan }, { invalid := true })

/-- The special state as a term. -/
def Special.num : Special → XNum
  | .none => XNum.zero
  | .posInf => .inf false
  | .negInf => .inf true
  | .nan => .nan

/-- Merge of valley `b` into `a` (R82). -/
def Valley.merge (a b : Valley) : Valley × Status :=
  let sum : Valley := { a with v := a.v + b.v }
  if b.special = .none then (sum, {}) else sum.addTerm b.special.num false

/-- FP32 readout (R83). -/
def Valley.toFp32 (vl : Valley) : W32 × Status :=
  match vl.special with
  | .none =>
    let i := vl.v.toInt
    let (r, o) := fpRound (.fin (decide (i < 0)) i.natAbs (-298))
    (r, { accOverflow := o })
  | sp => ((fpRound sp.num).1, {})

/-- The code of a special state in a raw valley image is given with R180. -/
def Special.code : Special → Nat
  | .none => 0 | .posInf => 1 | .negInf => 2 | .nan => 3

end Sys2Proof.Machine
end

