-- ==== Sys2Proof/Machine/Pages.lean ====
section
/-! DEFINITION. The register maps of every page: for each register its offset, the fields software
sets (RW), clears by writing ones (W1C) and clears by reading (RC), and its reset value, as the map
tables of chapters 03 to 18 give them; and the offsets by name. -/

namespace Sys2Proof.Machine

open Sys2Proof

/-- The block types of R488, and the two register groups of BAR2 that are no block page (R465, R466). -/
inductive Block where
  | dev | hib | field | bay | baymem | cluster | weave | dma | gutter | thatcher | skylight | ctu | eave | gable | meter | power | sec | timekeeper | bringup | queue | hostLink
  deriving DecidableEq, Repr

/-- Type codes of R488; 0 for the two groups that are no block page. -/
def Block.code : Block → Nat
  | .dev => 0x01
  | .hib => 0x02
  | .field => 0x03
  | .bay => 0x04
  | .baymem => 0x05
  | .cluster => 0x06
  | .weave => 0x07
  | .dma => 0x08
  | .gutter => 0x09
  | .thatcher => 0x0A
  | .skylight => 0x0B
  | .ctu => 0x0C
  | .eave => 0x0D
  | .gable => 0x0E
  | .meter => 0x0F
  | .power => 0x10
  | .sec => 0x11
  | .timekeeper => 0x12
  | .bringup => 0x13
  | .queue => 0x00
  | .hostLink => 0x00

/-- A register of a map, or a run of `count` of them `stride` bytes apart. -/
structure RegSpec where
  off : Nat
  count : Nat := 1
  stride : Nat := 8
  /-- RW bits -/
  rw : Nat := 0
  /-- W1C bits -/
  w1c : Nat := 0
  /-- RC bits -/
  rc : Nat := 0
  reset : Nat := 0
  /-- what clearing a W1C bit clears with it -/
  clr : Nat := 0
  deriving DecidableEq, Repr

/-! Offsets by name. -/

namespace Off

abbrev CL_CORE_SEL : Nat := 0x100
abbrev CL_CORE_CTRL : Nat := 0x108
abbrev CL_CORE_STATE : Nat := 0x110
abbrev CL_CORE_PC : Nat := 0x118
abbrev CL_CORE_ARITH : Nat := 0x120
abbrev CL_CORE_ASTAT : Nat := 0x128
abbrev CL_CORE_SR_SEED : Nat := 0x130
abbrev CL_CORE_SR_CTR : Nat := 0x138
abbrev CL_CORE_FSTAT : Nat := 0x140
abbrev CL_CORE_FLAG_STATE : Nat := 0x148
abbrev CL_CORE_FLAG_CMD : Nat := 0x150
abbrev CL_CORE_FCOUNT0 : Nat := 0x158
abbrev CL_CORE_FCOUNT1 : Nat := 0x160
abbrev CL_CORE_FCOUNT2 : Nat := 0x168
abbrev CL_CORE_ECC : Nat := 0x170
abbrev CL_CORE_WORK : Nat := 0x178
abbrev CL_CORE_WAIT : Nat := 0x180
abbrev CL_CORE_LM_ADDR : Nat := 0x188
abbrev CL_CORE_LM_DATA : Nat := 0x190
abbrev CL_CORE_ACC_ADDR : Nat := 0x198
abbrev CL_CORE_ACC_DATA : Nat := 0x1A0
abbrev CL_CORE_S (i : Nat) : Nat := 0x200 + 0x8 * i
abbrev CL_CORE_A (i : Nat) : Nat := 0x300 + 0x8 * i
abbrev WV_CTX_STATE : Nat := 0x100
abbrev WV_CTX_CMD : Nat := 0x108
abbrev WV_CTX_ADDR : Nat := 0x110
abbrev WV_CTX_DATA : Nat := 0x118
abbrev WV_BAL_STATUS : Nat := 0x120
abbrev WV_BAL_TIME : Nat := 0x128
abbrev WV_BAL_MAX : Nat := 0x130
abbrev WV_BAL_MORE : Nat := 0x138
abbrev WV_SWITCHES : Nat := 0x140
abbrev WV_SLACK_DROP : Nat := 0x148
abbrev WV_ITEMS : Nat := 0xF00
abbrev WV_STEER_DISCARD : Nat := 0xF08
abbrev WV_WAIT : Nat := 0xF10
abbrev WV_SLACK_PEAK : Nat := 0xF18
abbrev CL_START : Nat := 0x340
abbrev CL_NOTRUN0 : Nat := 0x348
abbrev CL_NOTRUN1 : Nat := 0x350
abbrev CL_ERRSTOP0 : Nat := 0x358
abbrev CL_ERRSTOP1 : Nat := 0x360
abbrev CL_VFT_ADDR : Nat := 0x368
abbrev CL_VFT_DATA : Nat := 0x370
abbrev CL_SFU_ASTAT : Nat := 0x378
abbrev CL_STORE_ECC : Nat := 0x380
abbrev CL_HINT_DROP : Nat := 0x388
abbrev CL_FLAG_BAD : Nat := 0x390
abbrev CL_FLAG_SETS : Nat := 0xF00
abbrev CL_FLAG_DEFER : Nat := 0xF08
abbrev CL_STORE_ACC : Nat := 0xF10
abbrev CL_STORE_BG : Nat := 0xF18
abbrev DMA_Q_BASE (i : Nat) : Nat := 0x100 + 0x20 * i
abbrev DMA_Q_CFG (i : Nat) : Nat := 0x108 + 0x20 * i
abbrev DMA_Q_HEAD (i : Nat) : Nat := 0x110 + 0x20 * i
abbrev DMA_Q_TAIL (i : Nat) : Nat := 0x118 + 0x20 * i
abbrev DMA_STATE : Nat := 0x200
abbrev DMA_OUTSTANDING : Nat := 0x208
abbrev DMA_BYTES_READ : Nat := 0xF00
abbrev DMA_BYTES_WRITTEN : Nat := 0xF08
abbrev DMA_DESC_DONE : Nat := 0xF10
abbrev DMA_WAIT : Nat := 0xF18
abbrev GT_Q_BASE : Nat := 0x100
abbrev GT_Q_CFG : Nat := 0x108
abbrev GT_Q_HEAD : Nat := 0x110
abbrev GT_Q_TAIL : Nat := 0x118
abbrev GT_ASTAT : Nat := 0x120
abbrev GT_SMISS : Nat := 0x128
abbrev GT_VALLEY_BUSY : Nat := 0x130
abbrev GT_SLOT_BASE (i : Nat) : Nat := 0x200 + 0x20 * i
abbrev GT_SLOT_CFG (i : Nat) : Nat := 0x208 + 0x20 * i
abbrev GT_SLOT_COUNT (i : Nat) : Nat := 0x210 + 0x20 * i
abbrev GT_SLOT_FLAG (i : Nat) : Nat := 0x218 + 0x20 * i
abbrev GT_LINES : Nat := 0xF00
abbrev GT_TERMS : Nat := 0xF08
abbrev GT_SLOT_DROP : Nat := 0xF10
abbrev TH_Q_BASE : Nat := 0x100
abbrev TH_Q_CFG : Nat := 0x108
abbrev TH_Q_HEAD : Nat := 0x110
abbrev TH_Q_TAIL : Nat := 0x118
abbrev TH_ASTAT : Nat := 0x120
abbrev TH_BAD_TAG : Nat := 0x128
abbrev TH_BAD_BITMAP : Nat := 0x130
abbrev TH_PACKED : Nat := 0xF00
abbrev TH_DENSE : Nat := 0xF08
abbrev TH_UNPACKED : Nat := 0xF10
abbrev TH_LINES : Nat := 0xF18
abbrev SKY_Q_BASE : Nat := 0x100
abbrev SKY_Q_CFG : Nat := 0x108
abbrev SKY_Q_HEAD : Nat := 0x110
abbrev SKY_Q_TAIL : Nat := 0x118
abbrev SKY_BAD_TAG : Nat := 0x120
abbrev SKY_DOUBT : Nat := 0x128
abbrev SKY_LOST : Nat := 0x130
abbrev SKY_MADEUP : Nat := 0x138
abbrev SKY_PASSES : Nat := 0xF00
abbrev SKY_BLOCKS : Nat := 0xF08
abbrev SKY_CERTAIN : Nat := 0xF10
abbrev PARK_INFO (i : Nat) : Nat := 0x180 + 0x18 * i
abbrev PARK_VA (i : Nat) : Nat := 0x188 + 0x18 * i
abbrev PARK_PROGRESS (i : Nat) : Nat := 0x190 + 0x18 * i
abbrev RESUME : Nat := 0x1E0
abbrev BM_CFG : Nat := 0x100
abbrev BM_ECC : Nat := 0x108
abbrev BM_OUTSTANDING : Nat := 0x110
abbrev BM_KEYSLOT_VALID : Nat := 0x118
abbrev BM_KEYSLOT_TINT (i : Nat) : Nat := 0x120 + 0x8 * i
abbrev BM_RETIRE_CMD : Nat := 0x160
abbrev BM_RETIRE_STATE : Nat := 0x168
abbrev BM_READ_BYTES : Nat := 0xF00
abbrev BM_WRITE_BYTES : Nat := 0xF08
abbrev BM_BG_CMDS : Nat := 0xF10
abbrev BM_KEY_REFUSE : Nat := 0xF18
abbrev BM_WALK_READS : Nat := 0xF20
abbrev CTU_ROOT : Nat := 0x100
abbrev CTU_CFG : Nat := 0x108
abbrev CTU_INVAL_VA : Nat := 0x110
abbrev CTU_INVAL_CMD : Nat := 0x118
abbrev CTU_INVAL_STATUS : Nat := 0x120
abbrev CTU_SAVE : Nat := 0x128
abbrev CTU_SAVE_STATE : Nat := 0x130
abbrev CTU_SAVE_TIME : Nat := 0x138
abbrev CTU_PRI_OUT : Nat := 0x140
abbrev CTU_LOOKUPS : Nat := 0xF00
abbrev CTU_MISSES : Nat := 0xF08
abbrev CTU_WALK_READS : Nat := 0xF10
abbrev CTU_ATS_REQS : Nat := 0xF18
abbrev CTU_PRG_DROP : Nat := 0xF20
abbrev TK_NOW : Nat := 0x100
abbrev TK_SET : Nat := 0x108
abbrev TK_PPS_CFG : Nat := 0x110
abbrev TK_PPS_LAST : Nat := 0x118
abbrev TK_PPS_STATUS : Nat := 0x120
abbrev TK_OFFSET : Nat := 0x128
abbrev TK_TRIM : Nat := 0x130
abbrev CL_RT_STATE : Nat := 0x400
abbrev CL_RT_CMD : Nat := 0x408
abbrev CL_RT_ADDR : Nat := 0x410
abbrev CL_RT_DATA : Nat := 0x418
abbrev CL_RT_TINT : Nat := 0x420
abbrev CL_RT_CORRIDOR : Nat := 0x428
abbrev CL_RT_WINDOW : Nat := 0x430
abbrev CL_RT_ACK_TIMEOUT : Nat := 0x438
abbrev CL_RT_E2E : Nat := 0x440
abbrev CL_RT_E2E_TIME : Nat := 0x448
abbrev CL_RT_STRANGER : Nat := 0x450
abbrev CL_RT_INJECT : Nat := 0x458
abbrev CL_TB_STATUS : Nat := 0x460
abbrev CL_RT_OCCUPANCY : Nat := 0x468
abbrev CL_RT_LINK (i : Nat) : Nat := 0x480 + 0x8 * i
abbrev CL_RT_FLITS : Nat := 0xF20
abbrev CL_RT_CORR_SYMS : Nat := 0xF28
abbrev CL_RT_REPLAYS : Nat := 0xF30
abbrev CL_RT_DROP : Nat := 0xF38
abbrev CL_RT_STRANGERS : Nat := 0xF40
abbrev CL_RT_ACK_ERR : Nat := 0xF48
abbrev CL_RT_LATE : Nat := 0xF50
abbrev GB_STEP_START : Nat := 0x300
abbrev GB_STEP_NUM : Nat := 0x308
abbrev GB_STEP_REPORT : Nat := 0x310
abbrev GB_STEP_STATE : Nat := 0x318
abbrev GB_STEP_ELAPSED : Nat := 0x320
abbrev GB_STEP_DELTA : Nat := 0x328
abbrev GB_STEP_T_START : Nat := 0x330
abbrev GB_STEP_T_END : Nat := 0x338
abbrev GB_STALL_PREEMPT : Nat := 0x340
abbrev GB_STALL_FAULT : Nat := 0x348
abbrev GB_STALL_THERMAL : Nat := 0x350
abbrev GB_STALL_FABRIC : Nat := 0x358
abbrev GB_STALL_HINTMISS : Nat := 0x360
abbrev GB_STALL_BALANCE : Nat := 0x368
abbrev GB_STEP_RETRY : Nat := 0x370
abbrev CL_RT_PFLITS (i : Nat) : Nat := 0x4C0 + 0x8 * i
abbrev GB_RED_CTRL : Nat := 0x400
abbrev GB_RED_ADDR : Nat := 0x408
abbrev GB_RED_DATA : Nat := 0x410
abbrev GB_RED_STATUS : Nat := 0x418
abbrev GB_RED_DIGEST_CMD : Nat := 0x420
abbrev GB_RED_DSENT_LO : Nat := 0x428
abbrev GB_RED_DSENT_HI : Nat := 0x430
abbrev GB_RED_DRECV_LO : Nat := 0x438
abbrev GB_RED_DRECV_HI : Nat := 0x440
abbrev GB_RED_NOMATCH : Nat := 0x448
abbrev GB_RED_LATE : Nat := 0x450
abbrev GB_RED_BACKUP_TAKEN : Nat := 0x458
abbrev GB_RED_COMPARED : Nat := 0x460
abbrev EV_CFG : Nat := 0x100
abbrev EV_MAC : Nat := 0x108
abbrev EV_IP6_LO : Nat := 0x110
abbrev EV_IP6_HI : Nat := 0x118
abbrev EV_IP_CFG : Nat := 0x120
abbrev EV_LINK_STATE : Nat := 0x128
abbrev EV_TRAIN_CMD : Nat := 0x130
abbrev EV_RC_CFG : Nat := 0x138
abbrev EV_RTO : Nat := 0x140
abbrev EV_ACK_CFG : Nat := 0x148
abbrev EV_SESS_ADDR : Nat := 0x150
abbrev EV_SESS_DATA : Nat := 0x158
abbrev EV_SESS_CMD : Nat := 0x160
abbrev EV_STRANGER : Nat := 0x168
abbrev EV_STRANGER_TIME : Nat := 0x170
abbrev EV_GCNT_SEL : Nat := 0x178
abbrev EV_G_TX_PAYLOAD : Nat := 0x180
abbrev EV_G_RX_PAYLOAD : Nat := 0x188
abbrev EV_POSTQ : Nat := 0x190
abbrev EV_SEND_BAD : Nat := 0x198
abbrev EV_PFC_CFG : Nat := 0x1A0
abbrev EV_EPOCH : Nat := 0x1A8
abbrev EV_TX_FRAMES : Nat := 0xF00
abbrev EV_RX_FRAMES : Nat := 0xF08
abbrev EV_FEC_CORR : Nat := 0xF10
abbrev EV_FEC_UNCORR : Nat := 0xF18
abbrev EV_FCS_ERR : Nat := 0xF20
abbrev EV_RETX : Nat := 0xF28
abbrev EV_RTO_FIRES : Nat := 0xF30
abbrev EV_DUP : Nat := 0xF38
abbrev EV_STR_L2 : Nat := 0xF40
abbrev EV_STR_IP : Nat := 0xF48
abbrev EV_STR_FORM : Nat := 0xF50
abbrev EV_STR_SESSION : Nat := 0xF58
abbrev EV_STR_ENGINE : Nat := 0xF60
abbrev EV_STR_AUTH : Nat := 0xF68
abbrev EV_STR_REPLAY : Nat := 0xF70
abbrev EV_PAUSE_DROP : Nat := 0xF78
abbrev EV_PFC_TX : Nat := 0xF80
abbrev EV_PFC_RX : Nat := 0xF88
abbrev EV_ECN_CE : Nat := 0xF90
abbrev EV_RC_DECREASE : Nat := 0xF98
abbrev CL_EV_POST (i : Nat) : Nat := 0x500 + 0x8 * i
abbrev HQ_SQ_BASE : Nat := 0x000
abbrev HQ_SQ_CFG : Nat := 0x008
abbrev HQ_SQ_HEAD : Nat := 0x010
abbrev HQ_SQ_TAIL : Nat := 0x018
abbrev HQ_CQ_BASE : Nat := 0x020
abbrev HQ_CQ_CFG : Nat := 0x028
abbrev HQ_CQ_TAIL : Nat := 0x030
abbrev HQ_CQ_HEAD : Nat := 0x038
abbrev HQ_REFUSAL : Nat := 0x040
abbrev HQ_CMDS : Nat := 0xF00
abbrev HL_LINK : Nat := 0x000
abbrev HL_CFG : Nat := 0x008
abbrev HL_IDE : Nat := 0x010
abbrev HL_MEM_ERR : Nat := 0x018
abbrev HL_BIAS_CMD : Nat := 0x020
abbrev HL_BIAS_AUTO : Nat := 0x028
abbrev HL_WIN_CFG (i : Nat) : Nat := 0x100 + 0x80 * i
abbrev HL_WIN_LIST (i j : Nat) : Nat := 0x108 + 0x80 * i + 0x8 * j
abbrev CL_CORE_MAP (i : Nat) : Nat := 0x600 + 0x8 * i
abbrev CL_MAP_CTRL : Nat := 0x680
abbrev CL_CORE_DEAD0 : Nat := 0x688
abbrev CL_CORE_DEAD1 : Nat := 0x690
abbrev CL_CORE_DEAD2 : Nat := 0x698
abbrev DEV_IDENT : Nat := 0x100
abbrev DEV_SERIAL : Nat := 0x108
abbrev DEV_POPULATED : Nat := 0x110
abbrev DEV_HALT : Nat := 0x118
abbrev DEV_HALT_TIME : Nat := 0x120
abbrev DEV_FENCE : Nat := 0x128
abbrev DEV_ENGINE_ID : Nat := 0x130
abbrev DEV_ERR_FIRST : Nat := 0x138
abbrev DEV_ERR_TIME : Nat := 0x140
abbrev CL_WINDOW_SEL (i : Nat) : Nat := 0x100 + 0x8 * i
abbrev WMT_CMD : Nat := 0x180
abbrev WMT_STATUS : Nat := 0x188
abbrev WMT_ECC : Nat := 0x190
abbrev HIB_UNREACH : Nat := 0x198
abbrev HIB_UNREACH_COUNT : Nat := 0x1A0
abbrev HIB_BAD_ACCESS : Nat := 0x1A8
abbrev HIB_EPOCH : Nat := 0x1B0
abbrev HIB_BAR0_READS : Nat := 0xF00
abbrev HIB_BAR0_WRITES : Nat := 0xF08
abbrev GB_BAYS (i : Nat) : Nat := 0x100 + 0x8 * i
abbrev GB_CORR (i : Nat) : Nat := 0x130 + 0x8 * i
abbrev GB_CFG : Nat := 0x160
abbrev GB_ALLOT : Nat := 0x168
abbrev GB_BAYCMD : Nat := 0x170
abbrev GB_PREEMPT : Nat := 0x178
abbrev GB_PREEMPT_STATE : Nat := 0x180
abbrev GB_PREEMPT_TIME : Nat := 0x188
abbrev GB_FQ_BASE : Nat := 0x190
abbrev GB_FQ_CFG : Nat := 0x198
abbrev GB_FQ_TAIL : Nat := 0x1A0
abbrev GB_FQ_HEAD : Nat := 0x1A8
abbrev GB_MR_BASE : Nat := 0x1B0
abbrev GB_MR_CFG : Nat := 0x1B8
abbrev GB_MR_TAIL : Nat := 0x1C0
abbrev GB_MR_HEAD : Nat := 0x1C8
abbrev GB_STATE : Nat := 0x1D0
abbrev GB_SKY_DOUBT : Nat := 0xF00
abbrev GB_SKY_LOST : Nat := 0xF08
abbrev GB_SKY_MADEUP : Nat := 0xF10
abbrev GB_FQ_WAITS : Nat := 0xF18
abbrev MT_INTERVAL : Nat := 0x100
abbrev MT_CLOSE : Nat := 0x108
abbrev MT_SEL : Nat := 0x110
abbrev MT_LIVE_ENERGY : Nat := 0x118
abbrev MT_LIVE_PEAK : Nat := 0x120
abbrev MT_LAST_SEQ : Nat := 0x128
abbrev MT_REC_ADDR : Nat := 0x130
abbrev MT_REC_DATA : Nat := 0x138
abbrev MT_STATUS : Nat := 0x140
abbrev MT_RECORDS : Nat := 0xF00
abbrev PW_STATE : Nat := 0x100
abbrev PW_SUM : Nat := 0x108
abbrev PW_GSEL : Nat := 0x110
abbrev PW_G_CEIL : Nat := 0x118
abbrev PW_G_NEED : Nat := 0x120
abbrev PW_G_POWER : Nat := 0x128
abbrev PW_G_EMERG : Nat := 0x130
abbrev PW_BSEL : Nat := 0x138
abbrev PW_BAY_STATE : Nat := 0x140
abbrev PW_BAY_CAL : Nat := 0x148
abbrev PW_BAY_CMD : Nat := 0x150
abbrev PW_INLET : Nat := 0x158
abbrev PW_INPUT : Nat := 0x160
abbrev PW_DARK : Nat := 0x168
abbrev PW_WAKE_TIME : Nat := 0x170
abbrev PW_WAKE_CAUSE : Nat := 0x178
abbrev PW_RISE_HOLDS : Nat := 0xF00
abbrev PW_TRIPS : Nat := 0xF08
abbrev PW_OVERDRAWS : Nat := 0xF10
abbrev PW_CAL_REJECT : Nat := 0xF18
abbrev BU_STEP_CMD : Nat := 0x100
abbrev BU_STEP_STATUS : Nat := 0x108
abbrev BU_DONE : Nat := 0x110
abbrev BU_CFG : Nat := 0x118
abbrev BU_RAILS (i : Nat) : Nat := 0x120 + 0x8 * i
abbrev BU_T_STEP : Nat := 0x150
abbrev BU_LAST_RESET : Nat := 0x158
abbrev BU_RESET_CMD : Nat := 0x160
abbrev BU_TEST_BAY : Nat := 0x168
abbrev BU_IMG_ADDR : Nat := 0x170
abbrev BU_IMG_DATA : Nat := 0x178
abbrev BU_IMG_CMD : Nat := 0x180
abbrev BU_WEAR : Nat := 0x188
abbrev BU_COLD_COUNT : Nat := 0xF00
abbrev BU_WARM_COUNT : Nat := 0xF08
abbrev FC_CTRL : Nat := 0x100
abbrev FC_STATUS : Nat := 0x108
abbrev FC_HEARTBEAT : Nat := 0x110
abbrev FC_PARTNER : Nat := 0x118
abbrev BY_STATE : Nat := 0x100
abbrev BY_TEST_TIME : Nat := 0x108
abbrev BY_RIDGE_ACCESSES : Nat := 0xF00
abbrev SEC_STATE : Nat := 0x100
abbrev SEC_CTR_SEL : Nat := 0x108
abbrev SEC_CTR_VALUE : Nat := 0x110
abbrev SEC_CTR_CMD : Nat := 0x118
abbrev SEC_NONCE (i : Nat) : Nat := 0x120 + 0x8 * i
abbrev SEC_REP_CMD : Nat := 0x140
abbrev SEC_REP_ADDR : Nat := 0x148
abbrev SEC_REP_DATA : Nat := 0x150
abbrev SEC_BLOB_ADDR : Nat := 0x158
abbrev SEC_BLOB_DATA : Nat := 0x160
abbrev SEC_KEY_CMD : Nat := 0x168
abbrev SEC_KEY_BAYS (i : Nat) : Nat := 0x170 + 0x8 * i
abbrev SEC_KEY_LAST : Nat := 0x1A0
abbrev SEC_ROOT_HASH (i : Nat) : Nat := 0x1C0 + 0x8 * i
abbrev SEC_SIGNATURES : Nat := 0xF00
abbrev SEC_KEY_LOADS : Nat := 0xF08
abbrev SEC_KEY_REFUSALS : Nat := 0xF10
abbrev SEC_SPDM_MSGS : Nat := 0xF18
abbrev FC_ERR_BASE : Nat := 0x120
abbrev FC_ERR_CFG : Nat := 0x128
abbrev FC_ERR_TAIL : Nat := 0x130
abbrev FC_ERR_HEAD : Nat := 0x138
abbrev FC_ERR_LOST : Nat := 0x140
abbrev FC_MARK : Nat := 0x148
abbrev FC_WIRE_MARGINAL : Nat := 0x150
abbrev FC_ERR_RECORDS : Nat := 0xF00
abbrev FC_STORE_PASSES : Nat := 0xF08
abbrev BM_PATROL : Nat := 0x170

end Off

/-- The map of a DEV page. -/
def mapDev : List RegSpec :=
  [⟨0x100, 1, 0x8, 0x0, 0x0, 0x0, 0x1, 0⟩,
   ⟨0x108, 1, 0x8, 0x0, 0x0, 0x0, 0x0, 0⟩,
   ⟨0x110, 1, 0x8, 0x0, 0x0, 0x0, 0x0, 0⟩,
   ⟨0x118, 1, 0x8, 0x1, 0x0, 0x0, 0x0, 0⟩,
   ⟨0x120, 1, 0x8, 0x0, 0x0, 0x0, 0x0, 0⟩,
   ⟨0x128, 1, 0x8, 0x0, 0x0, 0x0, 0x0, 0⟩,
   ⟨0x130, 1, 0x8, 0x7FF, 0x0, 0x0, 0x0, 0⟩,
   ⟨0x138, 1, 0x8, 0x0, 0x0, 0x0, 0x0, 0⟩,
   ⟨0x140, 1, 0x8, 0x0, 0x0, 0x0, 0x0, 0⟩]

/-- The map of a HIB page. -/
def mapHib : List RegSpec :=
  [⟨0x100, 16, 0x8, 0x3FFFFFF, 0x0, 0x0, 0x0, 0⟩,
   ⟨0x180, 1, 0x8, 0x0, 0x0, 0x0, 0x0, 0⟩,
   ⟨0x188, 1, 0x8, 0x0, 0x2000, 0x0, 0x0, 0⟩,
   ⟨0x190, 1, 0x8, 0x0, 0x10000, 0xFFFF, 0x0, 0⟩,
   ⟨0x198, 1, 0x8, 0x0, 0x1, 0x0, 0x0, 0xFFFFFFFFFFFFFFFF⟩,
   ⟨0x1A0, 1, 0x8, 0x0, 0x0, 0xFFFFFFFF, 0x0, 0⟩,
   ⟨0x1A8, 1, 0x8, 0x0, 0x1, 0x0, 0x0, 0xFFFFFFFFFFFFFFFF⟩,
   ⟨0x1B0, 1, 0x8, 0x0, 0x0, 0x0, 0x0, 0⟩,
   ⟨0xF00, 1, 0x8, 0x0, 0x0, 0x0, 0x0, 0⟩,
   ⟨0xF08, 1, 0x8, 0x0, 0x0, 0x0, 0x0, 0⟩]

/-- The map of a FIELD page. -/
def mapField : List RegSpec :=
  [⟨0x100, 1, 0x8, 0x1, 0x0, 0x0, 0x0, 0⟩,
   ⟨0x108, 1, 0x8, 0x0, 0x2, 0x0, 0x0, 0⟩,
   ⟨0x110, 1, 0x8, 0x0, 0x0, 0x0, 0x0, 0⟩,
   ⟨0x118, 1, 0x8, 0x0, 0x0, 0x0, 0x0, 0⟩,
   ⟨0x120, 1, 0x8, 0xFFFFFFFFFFFFFFC0, 0x0, 0x0, 0x0, 0⟩,
   ⟨0x128, 1, 0x8, 0x1F, 0x0, 0x0, 0x6, 0⟩,
   ⟨0x130, 1, 0x8, 0x0, 0x0, 0x0, 0x0, 0⟩,
   ⟨0x138, 1, 0x8, 0xFFFF, 0x0, 0x0, 0x0, 0⟩,
   ⟨0x140, 1, 0x8, 0x0, 0x0, 0xFFFFFFFF, 0x0, 0⟩,
   ⟨0x148, 1, 0x8, 0x1FF3F7F, 0x0, 0x0, 0x0, 0⟩,
   ⟨0x150, 1, 0x8, 0x0, 0x1, 0x0, 0x0, 0xFFFFFFFFFFFFFFFF⟩,
   ⟨0xF00, 1, 0x8, 0x0, 0x0, 0x0, 0x0, 0⟩,
   ⟨0xF08, 1, 0x8, 0x0, 0x0, 0x0, 0x0, 0⟩]

/-- The map of a BAY page. -/
def mapBay : List RegSpec :=
  [⟨0x100, 1, 0x8, 0x0, 0x0, 0x0, 0x0, 0⟩,
   ⟨0x108, 1, 0x8, 0x0, 0x0, 0x0, 0x0, 0⟩,
   ⟨0xF00, 1, 0x8, 0x0, 0x0, 0x0, 0x0, 0⟩]

/-- The map of a BAYMEM page. -/
def mapBaymem : List RegSpec :=
  [⟨0x100, 1, 0x8, 0x1, 0x0, 0x0, 0x1, 0⟩,
   ⟨0x108, 1, 0x8, 0x0, 0x10000, 0xFFFF, 0x0, 0⟩,
   ⟨0x110, 1, 0x8, 0x0, 0x0, 0x0, 0x0, 0⟩,
   ⟨0x118, 1, 0x8, 0x0, 0x0, 0x0, 0x1, 0⟩,
   ⟨0x120, 8, 0x8, 0x0, 0x0, 0x0, 0x0, 0⟩,
   ⟨0x160, 1, 0x8, 0xFFFFF0000, 0x0, 0x0, 0x0, 0⟩,
   ⟨0x168, 1, 0x8, 0x0, 0x0, 0x0, 0x0, 0⟩,
   ⟨0xF00, 1, 0x8, 0x0, 0x0, 0x0, 0x0, 0⟩,
   ⟨0xF08, 1, 0x8, 0x0, 0x0, 0x0, 0x0, 0⟩,
   ⟨0xF10, 1, 0x8, 0x0, 0x0, 0x0, 0x0, 0⟩,
   ⟨0xF18, 1, 0x8, 0x0, 0x0, 0x0, 0x0, 0⟩,
   ⟨0xF20, 1, 0x8, 0x0, 0x0, 0x0, 0x0, 0⟩,
   ⟨0x170, 1, 0x8, 0x0, 0x0, 0x0, 0x0, 0⟩]

/-- The map of a CLUSTER page. -/
def mapCluster : List RegSpec :=
  [⟨0x100, 1, 0x8, 0x1FF, 0x0, 0x0, 0x0, 0⟩,
   ⟨0x108, 1, 0x8, 0x4, 0x0, 0x0, 0x0, 0⟩,
   ⟨0x110, 1, 0x8, 0x0, 0x0, 0x0, 0x1, 0⟩,
   ⟨0x118, 1, 0x8, 0xFFFF, 0x0, 0x0, 0x0, 0⟩,
   ⟨0x120, 1, 0x8, 0x0, 0x0, 0x0, 0x0, 0⟩,
   ⟨0x128, 1, 0x8, 0x0, 0x0, 0x0, 0x0, 0⟩,
   ⟨0x130, 1, 0x8, 0x0, 0x0, 0x0, 0x0, 0⟩,
   ⟨0x138, 1, 0x8, 0x0, 0x0, 0x0, 0x0, 0⟩,
   ⟨0x140, 1, 0x8, 0x0, 0x3, 0x0, 0x0, 0⟩,
   ⟨0x148, 1, 0x8, 0x0, 0x0, 0x0, 0x0, 0⟩,
   ⟨0x150, 1, 0x8, 0x0, 0x0, 0x0, 0x0, 0⟩,
   ⟨0x158, 1, 0x8, 0x0, 0x0, 0x0, 0x0, 0⟩,
   ⟨0x160, 1, 0x8, 0x0, 0x0, 0x0, 0x0, 0⟩,
   ⟨0x168, 1, 0x8, 0x0, 0x0, 0x0, 0x0, 0⟩,
   ⟨0x170, 1, 0x8, 0x0, 0x10000, 0xFFFF, 0x0, 0⟩,
   ⟨0x178, 1, 0x8, 0x0, 0x0, 0x0, 0x0, 0⟩,
   ⟨0x180, 1, 0x8, 0x0, 0x0, 0x0, 0x0, 0⟩,
   ⟨0x188, 1, 0x8, 0xFFFF, 0x0, 0x0, 0x0, 0⟩,
   ⟨0x190, 1, 0x8, 0xFFFFFFFFFFFFFFFF, 0x0, 0x0, 0x0, 0⟩,
   ⟨0x198, 1, 0x8, 0x7FF, 0x0, 0x0, 0x0, 0⟩,
   ⟨0x1A0, 1, 0x8, 0xFFFFFFFF, 0x0, 0x0, 0x0, 0⟩,
   ⟨0x200, 32, 0x8, 0xFFFFFFFF, 0x0, 0x0, 0x0, 0⟩,
   ⟨0x300, 8, 0x8, 0xFFFFFFFF, 0x0, 0x0, 0x0, 0⟩,
   ⟨0x340, 1, 0x8, 0x0, 0x0, 0x0, 0x0, 0⟩,
   ⟨0x348, 1, 0x8, 0x0, 0x0, 0x0, 0x0, 0⟩,
   ⟨0x350, 1, 0x8, 0x0, 0x0, 0x0, 0x0, 0⟩,
   ⟨0x358, 1, 0x8, 0x0, 0x0, 0x0, 0x0, 0⟩,
   ⟨0x360, 1, 0x8, 0x0, 0x0, 0x0, 0x0, 0⟩,
   ⟨0x368, 1, 0x8, 0x3FF, 0x0, 0x0, 0x0, 0⟩,
   ⟨0x370, 1, 0x8, 0xFFFFFFFFFFFFFFFF, 0x0, 0x0, 0x0, 0⟩,
   ⟨0x378, 1, 0x8, 0x0, 0x3, 0x0, 0x0, 0⟩,
   ⟨0x380, 1, 0x8, 0x0, 0x10000, 0xFFFF, 0x0, 0⟩,
   ⟨0x388, 1, 0x8, 0x0, 0x0, 0xFFFFFFFF, 0x0, 0⟩,
   ⟨0x390, 1, 0x8, 0x0, 0x0, 0xFFFF, 0x0, 0⟩,
   ⟨0xF00, 1, 0x8, 0x0, 0x0, 0x0, 0x0, 0⟩,
   ⟨0xF08, 1, 0x8, 0x0, 0x0, 0x0, 0x0, 0⟩,
   ⟨0xF10, 1, 0x8, 0x0, 0x0, 0x0, 0x0, 0⟩,
   ⟨0xF18, 1, 0x8, 0x0, 0x0, 0x0, 0x0, 0⟩,
   ⟨0x400, 1, 0x8, 0x0, 0x40, 0x0, 0x0, 0⟩,
   ⟨0x408, 1, 0x8, 0x0, 0x0, 0x0, 0x0, 0⟩,
   ⟨0x410, 1, 0x8, 0x7FF03, 0x0, 0x0, 0x0, 0⟩,
   ⟨0x418, 1, 0x8, 0xFFFFFFFFFFFFFFFF, 0x0, 0x0, 0x0, 0⟩,
   ⟨0x420, 1, 0x8, 0x0, 0x0, 0x0, 0x0, 0⟩,
   ⟨0x428, 1, 0x8, 0x0, 0x0, 0x0, 0x0, 0⟩,
   ⟨0x430, 1, 0x8, 0xFFFFFFFFFFFFFFFF, 0x0, 0x0, 0x7777777777777777, 0⟩,
   ⟨0x438, 1, 0x8, 0xFFFFFFFF, 0x0, 0x0, 0x186A0, 0⟩,
   ⟨0x440, 1, 0x8, 0x0, 0x1, 0x0, 0x0, 0xFFFFFFFFFFFFFFFF⟩,
   ⟨0x448, 1, 0x8, 0x0, 0x0, 0x0, 0x0, 0⟩,
   ⟨0x450, 1, 0x8, 0x0, 0x1, 0x0, 0x0, 0xFFFFFFFFFFFFFFFF⟩,
   ⟨0x458, 1, 0x8, 0x0, 0x1, 0x0, 0x0, 0xFFFFFFFFFFFFFFFF⟩,
   ⟨0x460, 1, 0x8, 0x0, 0x1, 0xFFFF0000, 0x0, 0⟩,
   ⟨0x468, 1, 0x8, 0x0, 0x0, 0x0, 0x0, 0⟩,
   ⟨0x480, 8, 0x8, 0x0, 0x0, 0x0, 0x0, 0⟩,
   ⟨0xF20, 1, 0x8, 0x0, 0x0, 0x0, 0x0, 0⟩,
   ⟨0xF28, 1, 0x8, 0x0, 0x0, 0x0, 0x0, 0⟩,
   ⟨0xF30, 1, 0x8, 0x0, 0x0, 0x0, 0x0, 0⟩,
   ⟨0xF38, 1, 0x8, 0x0, 0x0, 0x0, 0x0, 0⟩,
   ⟨0xF40, 1, 0x8, 0x0, 0x0, 0x0, 0x0, 0⟩,
   ⟨0xF48, 1, 0x8, 0x0, 0x0, 0x0, 0x0, 0⟩,
   ⟨0xF50, 1, 0x8, 0x0, 0x0, 0x0, 0x0, 0⟩,
   ⟨0x4C0, 8, 0x8, 0x0, 0x0, 0x0, 0x0, 0⟩,
   ⟨0x500, 8, 0x8, 0x80003FFFFF1FFFFF, 0x0, 0x0, 0x0, 0⟩,
   ⟨0x600, 16, 0x8, 0xFFFFFFFFFFFFFFFF, 0x0, 0x0, 0x0, 0⟩,
   ⟨0x680, 1, 0x8, 0x1, 0x2, 0x0, 0x800, 0⟩,
   ⟨0x688, 1, 0x8, 0x0, 0x0, 0x0, 0x0, 0⟩,
   ⟨0x690, 1, 0x8, 0x0, 0x0, 0x0, 0x0, 0⟩,
   ⟨0x698, 1, 0x8, 0x0, 0x0, 0x0, 0x0, 0⟩]

/-- The map of a WEAVE page. -/
def mapWeave : List RegSpec :=
  [⟨0x100, 1, 0x8, 0x0, 0x100, 0x0, 0x4, 0⟩,
   ⟨0x108, 1, 0x8, 0x0, 0x0, 0x0, 0x0, 0⟩,
   ⟨0x110, 1, 0x8, 0x1FF03, 0x0, 0x0, 0x0, 0⟩,
   ⟨0x118, 1, 0x8, 0xFFFFFFFFFFFFFFFF, 0x0, 0x0, 0x0, 0⟩,
   ⟨0x120, 1, 0x8, 0x0, 0x1, 0x0, 0x0, 0xFFFF1⟩,
   ⟨0x128, 1, 0x8, 0x0, 0x0, 0x0, 0x0, 0⟩,
   ⟨0x130, 1, 0x8, 0x0, 0x0, 0xFFFFFFFF, 0x0, 0⟩,
   ⟨0x138, 1, 0x8, 0x0, 0x0, 0xFFFF, 0x0, 0⟩,
   ⟨0x140, 1, 0x8, 0x0, 0x0, 0x0, 0x0, 0⟩,
   ⟨0x148, 1, 0x8, 0x0, 0x0, 0xFFFFFFFF, 0x0, 0⟩,
   ⟨0xF00, 1, 0x8, 0x0, 0x0, 0x0, 0x0, 0⟩,
   ⟨0xF08, 1, 0x8, 0x0, 0x0, 0x0, 0x0, 0⟩,
   ⟨0xF10, 1, 0x8, 0x0, 0x0, 0x0, 0x0, 0⟩,
   ⟨0xF18, 1, 0x8, 0x0, 0x0, 0x3FFFF, 0x0, 0⟩]

/-- The map of a DMA page. -/
def mapDma : List RegSpec :=
  [⟨0x100, 4, 0x20, 0xFFFFFF, 0x0, 0x0, 0x0, 0⟩,
   ⟨0x108, 4, 0x20, 0x3F, 0x40, 0x0, 0x3, 0⟩,
   ⟨0x110, 4, 0x20, 0x0, 0x0, 0x0, 0x0, 0⟩,
   ⟨0x118, 4, 0x20, 0xFFFF, 0x0, 0x0, 0x0, 0⟩,
   ⟨0x200, 1, 0x8, 0x0, 0x0, 0x0, 0x0, 0⟩,
   ⟨0x208, 1, 0x8, 0x0, 0x0, 0x0, 0x0, 0⟩,
   ⟨0xF00, 1, 0x8, 0x0, 0x0, 0x0, 0x0, 0⟩,
   ⟨0xF08, 1, 0x8, 0x0, 0x0, 0x0, 0x0, 0⟩,
   ⟨0xF10, 1, 0x8, 0x0, 0x0, 0x0, 0x0, 0⟩,
   ⟨0xF18, 1, 0x8, 0x0, 0x0, 0x0, 0x0, 0⟩,
   ⟨0x180, 4, 0x18, 0x0, 0x8, 0x0, 0x0, 0⟩,
   ⟨0x188, 4, 0x18, 0x0, 0x0, 0x0, 0x0, 0⟩,
   ⟨0x190, 4, 0x18, 0x0, 0x0, 0x0, 0x0, 0⟩,
   ⟨0x1E0, 1, 0x8, 0x0, 0x0, 0x0, 0x0, 0⟩]

/-- The map of a GUTTER page. -/
def mapGutter : List RegSpec :=
  [⟨0x100, 1, 0x8, 0xFFFFFF, 0x0, 0x0, 0x0, 0⟩,
   ⟨0x108, 1, 0x8, 0x1F, 0x20, 0x0, 0x3, 0⟩,
   ⟨0x110, 1, 0x8, 0x0, 0x0, 0x0, 0x0, 0⟩,
   ⟨0x118, 1, 0x8, 0xFFFF, 0x0, 0x0, 0x0, 0⟩,
   ⟨0x120, 1, 0x8, 0x0, 0x1F, 0x0, 0x0, 0⟩,
   ⟨0x128, 1, 0x8, 0x0, 0x0, 0x0, 0x0, 0⟩,
   ⟨0x130, 1, 0x8, 0x0, 0x0, 0x0, 0x0, 0⟩,
   ⟨0x200, 16, 0x20, 0xFFFFFF, 0x0, 0x0, 0x0, 0⟩,
   ⟨0x208, 16, 0x20, 0xFFFFFFFFFFFF0003, 0x0, 0x0, 0x0, 0⟩,
   ⟨0x210, 16, 0x20, 0x0, 0x0, 0x0, 0x0, 0⟩,
   ⟨0x218, 16, 0x20, 0xFFFF, 0x0, 0x0, 0x0, 0⟩,
   ⟨0xF00, 1, 0x8, 0x0, 0x0, 0x0, 0x0, 0⟩,
   ⟨0xF08, 1, 0x8, 0x0, 0x0, 0x0, 0x0, 0⟩,
   ⟨0xF10, 1, 0x8, 0x0, 0x0, 0x0, 0x0, 0⟩,
   ⟨0x180, 1, 0x8, 0x0, 0x8, 0x0, 0x0, 0⟩,
   ⟨0x188, 1, 0x8, 0x0, 0x0, 0x0, 0x0, 0⟩,
   ⟨0x190, 1, 0x8, 0x0, 0x0, 0x0, 0x0, 0⟩,
   ⟨0x1E0, 1, 0x8, 0x0, 0x0, 0x0, 0x0, 0⟩]

/-- The map of a THATCHER page. -/
def mapThatcher : List RegSpec :=
  [⟨0x100, 1, 0x8, 0xFFFFFF, 0x0, 0x0, 0x0, 0⟩,
   ⟨0x108, 1, 0x8, 0x1F, 0x20, 0x0, 0x3, 0⟩,
   ⟨0x110, 1, 0x8, 0x0, 0x0, 0x0, 0x0, 0⟩,
   ⟨0x118, 1, 0x8, 0xFFFF, 0x0, 0x0, 0x0, 0⟩,
   ⟨0x120, 1, 0x8, 0x0, 0xF, 0x0, 0x0, 0⟩,
   ⟨0x128, 1, 0x8, 0x0, 0x0, 0x0, 0x0, 0⟩,
   ⟨0x130, 1, 0x8, 0x0, 0x0, 0x0, 0x0, 0⟩,
   ⟨0xF00, 1, 0x8, 0x0, 0x0, 0x0, 0x0, 0⟩,
   ⟨0xF08, 1, 0x8, 0x0, 0x0, 0x0, 0x0, 0⟩,
   ⟨0xF10, 1, 0x8, 0x0, 0x0, 0x0, 0x0, 0⟩,
   ⟨0xF18, 1, 0x8, 0x0, 0x0, 0x0, 0x0, 0⟩,
   ⟨0x180, 1, 0x8, 0x0, 0x8, 0x0, 0x0, 0⟩,
   ⟨0x188, 1, 0x8, 0x0, 0x0, 0x0, 0x0, 0⟩,
   ⟨0x190, 1, 0x8, 0x0, 0x0, 0x0, 0x0, 0⟩,
   ⟨0x1E0, 1, 0x8, 0x0, 0x0, 0x0, 0x0, 0⟩]

/-- The map of a SKYLIGHT page. -/
def mapSkylight : List RegSpec :=
  [⟨0x100, 1, 0x8, 0xFFFFFF, 0x0, 0x0, 0x0, 0⟩,
   ⟨0x108, 1, 0x8, 0x1F, 0x20, 0x0, 0x3, 0⟩,
   ⟨0x110, 1, 0x8, 0x0, 0x0, 0x0, 0x0, 0⟩,
   ⟨0x118, 1, 0x8, 0xFFFF, 0x0, 0x0, 0x0, 0⟩,
   ⟨0x120, 1, 0x8, 0x0, 0x0, 0x0, 0x0, 0⟩,
   ⟨0x128, 1, 0x8, 0x0, 0x0, 0x0, 0x0, 0⟩,
   ⟨0x130, 1, 0x8, 0x0, 0x0, 0x0, 0x0, 0⟩,
   ⟨0x138, 1, 0x8, 0x0, 0x0, 0x0, 0x0, 0⟩,
   ⟨0xF00, 1, 0x8, 0x0, 0x0, 0x0, 0x0, 0⟩,
   ⟨0xF08, 1, 0x8, 0x0, 0x0, 0x0, 0x0, 0⟩,
   ⟨0xF10, 1, 0x8, 0x0, 0x0, 0x0, 0x0, 0⟩,
   ⟨0x180, 1, 0x8, 0x0, 0x8, 0x0, 0x0, 0⟩,
   ⟨0x188, 1, 0x8, 0x0, 0x0, 0x0, 0x0, 0⟩,
   ⟨0x190, 1, 0x8, 0x0, 0x0, 0x0, 0x0, 0⟩,
   ⟨0x1E0, 1, 0x8, 0x0, 0x0, 0x0, 0x0, 0⟩]

/-- The map of a CTU page. -/
def mapCtu : List RegSpec :=
  [⟨0x100, 1, 0x8, 0x7FFFFFFFF8000, 0x0, 0x0, 0x0, 0⟩,
   ⟨0x108, 1, 0x8, 0x3, 0x0, 0x0, 0x0, 0⟩,
   ⟨0x110, 1, 0x8, 0xFFFFFFFFFF0000, 0x0, 0x0, 0x0, 0⟩,
   ⟨0x118, 1, 0x8, 0x0, 0x0, 0x0, 0x0, 0⟩,
   ⟨0x120, 1, 0x8, 0x0, 0x0, 0x0, 0x0, 0⟩,
   ⟨0x128, 1, 0x8, 0x7FFFFFFE00000, 0x0, 0x0, 0x0, 0⟩,
   ⟨0x130, 1, 0x8, 0x0, 0x0, 0x0, 0x0, 0⟩,
   ⟨0x138, 1, 0x8, 0x0, 0x0, 0x0, 0x0, 0⟩,
   ⟨0x140, 1, 0x8, 0x0, 0x0, 0x0, 0x0, 0⟩,
   ⟨0xF00, 1, 0x8, 0x0, 0x0, 0x0, 0x0, 0⟩,
   ⟨0xF08, 1, 0x8, 0x0, 0x0, 0x0, 0x0, 0⟩,
   ⟨0xF10, 1, 0x8, 0x0, 0x0, 0x0, 0x0, 0⟩,
   ⟨0xF18, 1, 0x8, 0x0, 0x0, 0x0, 0x0, 0⟩,
   ⟨0xF20, 1, 0x8, 0x0, 0x0, 0x0, 0x0, 0⟩]

/-- The map of a EAVE page. -/
def mapEave : List RegSpec :=
  [⟨0x100, 1, 0x8, 0xFFFF00F7, 0x0, 0x0, 0x88B50010, 0⟩,
   ⟨0x108, 1, 0x8, 0xFFFFFFFFFFFF, 0x0, 0x0, 0x0, 0⟩,
   ⟨0x110, 1, 0x8, 0xFFFFFFFFFFFFFFFF, 0x0, 0x0, 0x0, 0⟩,
   ⟨0x118, 1, 0x8, 0xFFFFFFFFFFFFFFFF, 0x0, 0x0, 0x0, 0⟩,
   ⟨0x120, 1, 0x8, 0xFFFFFF3F, 0x0, 0x0, 0xC0B54000, 0⟩,
   ⟨0x128, 1, 0x8, 0x0, 0x0, 0x0, 0x0, 0⟩,
   ⟨0x130, 1, 0x8, 0x0, 0x0, 0x0, 0x0, 0⟩,
   ⟨0x138, 1, 0x8, 0xFFFFFFFFFFFFFFFF, 0x0, 0x0, 0x143280000A3E80, 0⟩,
   ⟨0x140, 1, 0x8, 0xFFFFFFFFFF, 0x0, 0x0, 0x100000C350, 0⟩,
   ⟨0x148, 1, 0x8, 0xFFFF00FF, 0x0, 0x0, 0x7D00010, 0⟩,
   ⟨0x150, 1, 0x8, 0xFFF, 0x0, 0x0, 0x0, 0⟩,
   ⟨0x158, 1, 0x8, 0xFFFFFFFFFFFFFFFF, 0x0, 0x0, 0x0, 0⟩,
   ⟨0x160, 1, 0x8, 0x0, 0x0, 0x0, 0x0, 0⟩,
   ⟨0x168, 1, 0x8, 0x0, 0x1, 0x0, 0x0, 0xFFFFFFFFFFFFFFFF⟩,
   ⟨0x170, 1, 0x8, 0x0, 0x0, 0x0, 0x0, 0⟩,
   ⟨0x178, 1, 0x8, 0x7F, 0x0, 0x0, 0x1, 0⟩,
   ⟨0x180, 1, 0x8, 0x0, 0x0, 0x0, 0x0, 0⟩,
   ⟨0x188, 1, 0x8, 0x0, 0x0, 0x0, 0x0, 0⟩,
   ⟨0x190, 1, 0x8, 0x0, 0x10000, 0x0, 0x0, 0⟩,
   ⟨0x198, 1, 0x8, 0x0, 0x0, 0x0, 0x0, 0⟩,
   ⟨0x1A0, 1, 0x8, 0xFFFFFFFFFF, 0x0, 0x0, 0xFF01000200, 0⟩,
   ⟨0x1A8, 1, 0x8, 0x0, 0x0, 0x0, 0x0, 0⟩,
   ⟨0xF00, 1, 0x8, 0x0, 0x0, 0x0, 0x0, 0⟩,
   ⟨0xF08, 1, 0x8, 0x0, 0x0, 0x0, 0x0, 0⟩,
   ⟨0xF10, 1, 0x8, 0x0, 0x0, 0x0, 0x0, 0⟩,
   ⟨0xF18, 1, 0x8, 0x0, 0x0, 0x0, 0x0, 0⟩,
   ⟨0xF20, 1, 0x8, 0x0, 0x0, 0x0, 0x0, 0⟩,
   ⟨0xF28, 1, 0x8, 0x0, 0x0, 0x0, 0x0, 0⟩,
   ⟨0xF30, 1, 0x8, 0x0, 0x0, 0x0, 0x0, 0⟩,
   ⟨0xF38, 1, 0x8, 0x0, 0x0, 0x0, 0x0, 0⟩,
   ⟨0xF40, 1, 0x8, 0x0, 0x0, 0x0, 0x0, 0⟩,
   ⟨0xF48, 1, 0x8, 0x0, 0x0, 0x0, 0x0, 0⟩,
   ⟨0xF50, 1, 0x8, 0x0, 0x0, 0x0, 0x0, 0⟩,
   ⟨0xF58, 1, 0x8, 0x0, 0x0, 0x0, 0x0, 0⟩,
   ⟨0xF60, 1, 0x8, 0x0, 0x0, 0x0, 0x0, 0⟩,
   ⟨0xF68, 1, 0x8, 0x0, 0x0, 0x0, 0x0, 0⟩,
   ⟨0xF70, 1, 0x8, 0x0, 0x0, 0x0, 0x0, 0⟩,
   ⟨0xF78, 1, 0x8, 0x0, 0x0, 0x0, 0x0, 0⟩,
   ⟨0xF80, 1, 0x8, 0x0, 0x0, 0x0, 0x0, 0⟩,
   ⟨0xF88, 1, 0x8, 0x0, 0x0, 0x0, 0x0, 0⟩,
   ⟨0xF90, 1, 0x8, 0x0, 0x0, 0x0, 0x0, 0⟩,
   ⟨0xF98, 1, 0x8, 0x0, 0x0, 0x0, 0x0, 0⟩]

/-- The map of a GABLE page. -/
def mapGable : List RegSpec :=
  [⟨0x300, 1, 0x8, 0x0, 0x0, 0x0, 0x0, 0⟩,
   ⟨0x308, 1, 0x8, 0xFFFFFFFF, 0x0, 0x0, 0x0, 0⟩,
   ⟨0x310, 1, 0x8, 0xFFFFFFFFFFFFFFFF, 0x0, 0x0, 0x0, 0⟩,
   ⟨0x318, 1, 0x8, 0x0, 0x0, 0x0, 0x0, 0⟩,
   ⟨0x320, 1, 0x8, 0x0, 0x0, 0x0, 0x0, 0⟩,
   ⟨0x328, 1, 0x8, 0x0, 0x0, 0x0, 0x0, 0⟩,
   ⟨0x330, 1, 0x8, 0x0, 0x0, 0x0, 0x0, 0⟩,
   ⟨0x338, 1, 0x8, 0x0, 0x0, 0x0, 0x0, 0⟩,
   ⟨0x340, 1, 0x8, 0x0, 0x0, 0x0, 0x0, 0⟩,
   ⟨0x348, 1, 0x8, 0x0, 0x0, 0x0, 0x0, 0⟩,
   ⟨0x350, 1, 0x8, 0x0, 0x0, 0x0, 0x0, 0⟩,
   ⟨0x358, 1, 0x8, 0x0, 0x0, 0x0, 0x0, 0⟩,
   ⟨0x360, 1, 0x8, 0x0, 0x0, 0x0, 0x0, 0⟩,
   ⟨0x368, 1, 0x8, 0x0, 0x0, 0x0, 0x0, 0⟩,
   ⟨0x370, 1, 0x8, 0x0, 0x0, 0x0, 0x0, 0⟩,
   ⟨0x400, 1, 0x8, 0xFF01, 0x0, 0x0, 0x0, 0⟩,
   ⟨0x408, 1, 0x8, 0x3FFF, 0x0, 0x0, 0x0, 0⟩,
   ⟨0x410, 1, 0x8, 0xFFFFFFFFFFFFFFFF, 0x0, 0x0, 0x0, 0⟩,
   ⟨0x418, 1, 0x8, 0x0, 0x7, 0x0, 0x0, 0⟩,
   ⟨0x420, 1, 0x8, 0xFFFF, 0x0, 0x0, 0x0, 0⟩,
   ⟨0x428, 1, 0x8, 0x0, 0x0, 0x0, 0x0, 0⟩,
   ⟨0x430, 1, 0x8, 0x0, 0x0, 0x0, 0x0, 0⟩,
   ⟨0x438, 1, 0x8, 0x0, 0x0, 0x0, 0x0, 0⟩,
   ⟨0x440, 1, 0x8, 0x0, 0x0, 0x0, 0x0, 0⟩,
   ⟨0x448, 1, 0x8, 0x0, 0x0, 0x0, 0x0, 0⟩,
   ⟨0x450, 1, 0x8, 0x0, 0x0, 0x0, 0x0, 0⟩,
   ⟨0x458, 1, 0x8, 0x0, 0x0, 0x0, 0x0, 0⟩,
   ⟨0x460, 1, 0x8, 0x0, 0x0, 0x0, 0x0, 0⟩,
   ⟨0x100, 6, 0x8, 0xFFFFFFFFFFFFFFFF, 0x0, 0x0, 0x0, 0⟩,
   ⟨0x130, 6, 0x8, 0xFFFFFFFFFFFFFFFF, 0x0, 0x0, 0x0, 0⟩,
   ⟨0x160, 1, 0x8, 0x7F3F1F, 0x0, 0x0, 0x400000, 0⟩,
   ⟨0x168, 1, 0x8, 0xFFFF, 0x0, 0x0, 0x0, 0⟩,
   ⟨0x170, 1, 0x8, 0x0, 0x0, 0x0, 0x0, 0⟩,
   ⟨0x178, 1, 0x8, 0x0, 0x4, 0x0, 0x0, 0⟩,
   ⟨0x180, 1, 0x8, 0x0, 0x0, 0x0, 0x0, 0⟩,
   ⟨0x188, 1, 0x8, 0x0, 0x0, 0x0, 0x0, 0⟩,
   ⟨0x190, 1, 0x8, 0xFFFFFFFFFFFFFFC0, 0x0, 0x0, 0x0, 0⟩,
   ⟨0x198, 1, 0x8, 0xF, 0x0, 0x0, 0x6, 0⟩,
   ⟨0x1A0, 1, 0x8, 0x0, 0x0, 0x0, 0x0, 0⟩,
   ⟨0x1A8, 1, 0x8, 0xFFFF, 0x0, 0x0, 0x0, 0⟩,
   ⟨0x1B0, 1, 0x8, 0xFFFFFFFFFFFFFC00, 0x0, 0x0, 0x0, 0⟩,
   ⟨0x1B8, 1, 0x8, 0xF, 0x0, 0x0, 0x4, 0⟩,
   ⟨0x1C0, 1, 0x8, 0x0, 0x0, 0x0, 0x0, 0⟩,
   ⟨0x1C8, 1, 0x8, 0xFFFF, 0x0, 0x0, 0x0, 0⟩,
   ⟨0x1D0, 1, 0x8, 0x0, 0x8, 0x0, 0x0, 0⟩,
   ⟨0xF00, 1, 0x8, 0x0, 0x0, 0x0, 0x0, 0⟩,
   ⟨0xF08, 1, 0x8, 0x0, 0x0, 0x0, 0x0, 0⟩,
   ⟨0xF10, 1, 0x8, 0x0, 0x0, 0x0, 0x0, 0⟩,
   ⟨0xF18, 1, 0x8, 0x0, 0x0, 0x0, 0x0, 0⟩]

/-- The map of a METER page. -/
def mapMeter : List RegSpec :=
  [⟨0x100, 1, 0x8, 0x1FFFF, 0x0, 0x0, 0xE10, 0⟩,
   ⟨0x108, 1, 0x8, 0x0, 0x0, 0x0, 0x0, 0⟩,
   ⟨0x110, 1, 0x8, 0x7F, 0x0, 0x0, 0x1, 0⟩,
   ⟨0x118, 1, 0x8, 0x0, 0x0, 0x0, 0x0, 0⟩,
   ⟨0x120, 1, 0x8, 0x0, 0x0, 0x0, 0x0, 0⟩,
   ⟨0x128, 1, 0x8, 0x0, 0x0, 0x0, 0x0, 0⟩,
   ⟨0x130, 1, 0x8, 0x7F, 0x0, 0x0, 0x0, 0⟩,
   ⟨0x138, 1, 0x8, 0x0, 0x0, 0x0, 0x0, 0⟩,
   ⟨0x140, 1, 0x8, 0x0, 0x0, 0x0, 0x0, 0⟩,
   ⟨0xF00, 1, 0x8, 0x0, 0x0, 0x0, 0x0, 0⟩]

/-- The map of a POWER page. -/
def mapPower : List RegSpec :=
  [⟨0x100, 1, 0x8, 0x0, 0x0, 0x0, 0x0, 0⟩,
   ⟨0x108, 1, 0x8, 0x0, 0x0, 0x0, 0x0, 0⟩,
   ⟨0x110, 1, 0x8, 0x7F, 0x0, 0x0, 0x1, 0⟩,
   ⟨0x118, 1, 0x8, 0x3FF, 0x0, 0x0, 0x100, 0⟩,
   ⟨0x120, 1, 0x8, 0x0, 0x0, 0x0, 0x0, 0⟩,
   ⟨0x128, 1, 0x8, 0x0, 0x0, 0x0, 0x0, 0⟩,
   ⟨0x130, 1, 0x8, 0x0, 0x0, 0x0, 0x0, 0⟩,
   ⟨0x138, 1, 0x8, 0x1FF, 0x0, 0x0, 0x0, 0⟩,
   ⟨0x140, 1, 0x8, 0x0, 0x0, 0x0, 0x0, 0⟩,
   ⟨0x148, 1, 0x8, 0x0, 0x0, 0x0, 0x1000, 0⟩,
   ⟨0x150, 1, 0x8, 0x0, 0x0, 0x0, 0x0, 0⟩,
   ⟨0x158, 1, 0x8, 0x0, 0x0, 0x0, 0x0, 0⟩,
   ⟨0x160, 1, 0x8, 0x0, 0x0, 0x0, 0x0, 0⟩,
   ⟨0x168, 1, 0x8, 0x1E, 0x0, 0x0, 0x1E, 0⟩,
   ⟨0x170, 1, 0x8, 0xFFFFFFFFFFFFFFFF, 0x0, 0x0, 0xFFFFFFFFFFFFFFFF, 0⟩,
   ⟨0x178, 1, 0x8, 0x0, 0xF, 0x0, 0x0, 0⟩,
   ⟨0xF00, 1, 0x8, 0x0, 0x0, 0x0, 0x0, 0⟩,
   ⟨0xF08, 1, 0x8, 0x0, 0x0, 0x0, 0x0, 0⟩,
   ⟨0xF10, 1, 0x8, 0x0, 0x0, 0x0, 0x0, 0⟩,
   ⟨0xF18, 1, 0x8, 0x0, 0x0, 0x0, 0x0, 0⟩]

/-- The map of a SEC page. -/
def mapSec : List RegSpec :=
  [⟨0x100, 1, 0x8, 0x0, 0x0, 0x0, 0x0, 0⟩,
   ⟨0x108, 1, 0x8, 0xF, 0x0, 0x0, 0x0, 0⟩,
   ⟨0x110, 1, 0x8, 0x0, 0x0, 0x0, 0x0, 0⟩,
   ⟨0x118, 1, 0x8, 0x0, 0x0, 0x0, 0x0, 0⟩,
   ⟨0x120, 4, 0x8, 0xFFFFFFFFFFFFFFFF, 0x0, 0x0, 0x0, 0⟩,
   ⟨0x140, 1, 0x8, 0x7F, 0x200, 0x0, 0x1, 0⟩,
   ⟨0x148, 1, 0x8, 0x7F, 0x0, 0x0, 0x0, 0⟩,
   ⟨0x150, 1, 0x8, 0x0, 0x0, 0x0, 0x0, 0⟩,
   ⟨0x158, 1, 0x8, 0x3F, 0x0, 0x0, 0x0, 0⟩,
   ⟨0x160, 1, 0x8, 0x0, 0x0, 0x0, 0x0, 0⟩,
   ⟨0x168, 1, 0x8, 0x3FFFFF, 0x0, 0x0, 0x0, 0⟩,
   ⟨0x170, 6, 0x8, 0xFFFFFFFFFFFFFFFF, 0x0, 0x0, 0x0, 0⟩,
   ⟨0x1A0, 1, 0x8, 0x0, 0x0, 0x0, 0x0, 0⟩,
   ⟨0x1C0, 8, 0x8, 0x0, 0x0, 0x0, 0x0, 0⟩,
   ⟨0xF00, 1, 0x8, 0x0, 0x0, 0x0, 0x0, 0⟩,
   ⟨0xF08, 1, 0x8, 0x0, 0x0, 0x0, 0x0, 0⟩,
   ⟨0xF10, 1, 0x8, 0x0, 0x0, 0x0, 0x0, 0⟩,
   ⟨0xF18, 1, 0x8, 0x0, 0x0, 0x0, 0x0, 0⟩]

/-- The map of a TIMEKEEPER page. -/
def mapTimekeeper : List RegSpec :=
  [⟨0x100, 1, 0x8, 0x0, 0x0, 0x0, 0x0, 0⟩,
   ⟨0x108, 1, 0x8, 0x0, 0x0, 0x0, 0x0, 0⟩,
   ⟨0x110, 1, 0x8, 0x3, 0x0, 0x0, 0x0, 0⟩,
   ⟨0x118, 1, 0x8, 0x0, 0x0, 0x0, 0x0, 0⟩,
   ⟨0x120, 1, 0x8, 0x0, 0x2, 0xFFFF0000, 0x0, 0⟩,
   ⟨0x128, 1, 0x8, 0x0, 0x0, 0x0, 0x0, 0⟩,
   ⟨0x130, 1, 0x8, 0x0, 0x0, 0x0, 0x0, 0⟩]

/-- The map of a BRINGUP page. -/
def mapBringup : List RegSpec :=
  [⟨0x100, 1, 0x8, 0x0, 0x0, 0x0, 0x0, 0⟩,
   ⟨0x108, 1, 0x8, 0x0, 0x0, 0x0, 0x0, 0⟩,
   ⟨0x110, 1, 0x8, 0x0, 0x0, 0x0, 0x0, 0⟩,
   ⟨0x118, 1, 0x8, 0x1FFF3F01, 0x0, 0x0, 0xF000000, 0⟩,
   ⟨0x120, 6, 0x8, 0xFFFFFFFFFFFFFFFF, 0x0, 0x0, 0xFFFFFFFFFFFFFFFF, 0⟩,
   ⟨0x150, 1, 0x8, 0x0, 0x0, 0x0, 0x0, 0⟩,
   ⟨0x158, 1, 0x8, 0x0, 0x0, 0x0, 0x0, 0⟩,
   ⟨0x160, 1, 0x8, 0x0, 0x0, 0x0, 0x0, 0⟩,
   ⟨0x168, 1, 0x8, 0x1FF, 0x0, 0x0, 0x0, 0⟩,
   ⟨0x170, 1, 0x8, 0x7FFFFF, 0x0, 0x0, 0x0, 0⟩,
   ⟨0x178, 1, 0x8, 0xFFFFFFFFFFFFFFFF, 0x0, 0x0, 0x0, 0⟩,
   ⟨0x180, 1, 0x8, 0x0, 0x4, 0x0, 0x0, 0⟩,
   ⟨0x188, 1, 0x8, 0x0, 0x0, 0x0, 0x0, 0⟩,
   ⟨0xF00, 1, 0x8, 0x0, 0x0, 0x0, 0x0, 0⟩,
   ⟨0xF08, 1, 0x8, 0x0, 0x0, 0x0, 0x0, 0⟩]

/-- The map of a QUEUE page. -/
def mapQueue : List RegSpec :=
  [⟨0x000, 1, 0x8, 0xFFFFFFFFFFFFFFC0, 0x0, 0x0, 0x0, 0⟩,
   ⟨0x008, 1, 0x8, 0x3F, 0x40, 0x0, 0x4, 0⟩,
   ⟨0x010, 1, 0x8, 0x0, 0x0, 0x0, 0x0, 0⟩,
   ⟨0x018, 1, 0x8, 0xFFFF, 0x0, 0x0, 0x0, 0⟩,
   ⟨0x020, 1, 0x8, 0xFFFFFFFFFFFFFFC0, 0x0, 0x0, 0x0, 0⟩,
   ⟨0x028, 1, 0x8, 0x7FF001F, 0x0, 0x0, 0xD50004, 0⟩,
   ⟨0x030, 1, 0x8, 0x0, 0x0, 0x0, 0x0, 0⟩,
   ⟨0x038, 1, 0x8, 0xFFFF, 0x0, 0x0, 0x0, 0⟩,
   ⟨0x040, 1, 0x8, 0x0, 0x0, 0x0, 0x0, 0⟩,
   ⟨0xF00, 1, 0x8, 0x0, 0x0, 0x0, 0x0, 0⟩]

/-- The map of a HOSTLINK page. -/
def mapHostLink : List RegSpec :=
  [⟨0x000, 1, 0x8, 0x0, 0x2000, 0xFFFF0000, 0x0, 0⟩,
   ⟨0x008, 1, 0x8, 0x1071F, 0x0, 0x0, 0x304, 0⟩,
   ⟨0x010, 1, 0x8, 0x0, 0x0, 0x0, 0x0, 0⟩,
   ⟨0x018, 1, 0x8, 0x0, 0x0, 0x0, 0x0, 0⟩,
   ⟨0x020, 1, 0x8, 0x1FFFFFFFFFF007, 0x0, 0x0, 0x0, 0⟩,
   ⟨0x028, 1, 0x8, 0x0, 0x0, 0x0, 0x0, 0⟩,
   ⟨0x100, 4, 0x80, 0x7F7F3F3F7F01, 0x0, 0x0, 0x0, 0⟩,
   ⟨0x108, 8, 0x8, 0x1FF01FF01FF01FF, 0x0, 0x0, 0x0, 0⟩,
   ⟨0x188, 8, 0x8, 0x1FF01FF01FF01FF, 0x0, 0x0, 0x0, 0⟩,
   ⟨0x208, 8, 0x8, 0x1FF01FF01FF01FF, 0x0, 0x0, 0x0, 0⟩,
   ⟨0x288, 8, 0x8, 0x1FF01FF01FF01FF, 0x0, 0x0, 0x0, 0⟩]

/-- The register map of a block type. -/
def Block.map : Block → List RegSpec
  | .dev => mapDev
  | .hib => mapHib
  | .field => mapField
  | .bay => mapBay
  | .baymem => mapBaymem
  | .cluster => mapCluster
  | .weave => mapWeave
  | .dma => mapDma
  | .gutter => mapGutter
  | .thatcher => mapThatcher
  | .skylight => mapSkylight
  | .ctu => mapCtu
  | .eave => mapEave
  | .gable => mapGable
  | .meter => mapMeter
  | .power => mapPower
  | .sec => mapSec
  | .timekeeper => mapTimekeeper
  | .bringup => mapBringup
  | .queue => mapQueue
  | .hostLink => mapHostLink

/-- The map row that holds the register at `off`. -/
def Block.spec (k : Block) (off : Nat) : Option RegSpec :=
  k.map.find? fun r => r.off ≤ off && off < r.off + r.count * r.stride && (off - r.off) % r.stride = 0

/-- The reset value of the register at `off` where the map states a number (R467); the identity core
map of R494 has byte `i` of word `w` at 8 w + i. -/
def Block.resetReg (k : Block) (off : Nat) : W :=
  if k = .cluster ∧ 0x600 ≤ off ∧ off < 0x680 then
    BitVec.ofNat 64 (0x0706050403020100 + (off - 0x600) / 8 * 0x0808080808080808)
  else match k.spec off with
    | some r => BitVec.ofNat 64 r.reset
    | none => 0#64

end Sys2Proof.Machine
end

