-- ==== Sys2Proof/Machine/Ops.lean ====
section
/-! DEFINITION. The named operations every meaning is written over: sparse maps, bytes of memory,
the places of R7, R17 to R20, units by number, pages, faults and their reports, what goes to the host. -/

namespace Sys2Proof.Machine

open Sys2Proof

/-- A meaning's answer. -/
abbrev Out := Host.Outcome State Fault Refusal

/-- What a command makes of the engine. -/
abbrev Eff := Host.Outcome Chip Fault Refusal

/-- A command's effect on the engine; the queue of waiting commands is not its business. -/
def State.run (s : State) (f : Chip → Eff) : Out :=
  match f s.toChip with
  | .next c => .next { s with toChip := c }
  | .fault r => .fault r
  | .refused r => .refused r

/-- The effect `s'` when the command names units the engine has. -/
def onUnit (ok : Bool) (s' : Chip) : Eff := if ok then .next s' else .fault .noSuchUnit

/-! ### Sparse maps -/

/-- What key `i` reads as; `d` for an unlisted key. -/
def SMap.get {α : Type} (d : α) : SMap α → Nat → α
  | [], _ => d
  | (k, v) :: m, i => if i = k then v else SMap.get d m i

/-- The map without key `i`. -/
def SMap.drop {α : Type} (m : SMap α) (i : Nat) : SMap α := m.filter fun p => p.1 ≠ i

/-- The map with `v` at key `i`, in canonical form. -/
def SMap.set {α : Type} [DecidableEq α] (d : α) : SMap α → Nat → α → SMap α
  | [], i, v => if v = d then [] else [(i, v)]
  | (k, x) :: m, i, v =>
    if i < k then
      if v = d then SMap.drop ((k, x) :: m) i else (i, v) :: (k, x) :: m
    else if i = k then
      if v = d then SMap.drop m i else (i, v) :: m
    else (k, x) :: SMap.set d m i v

/-- The map with `f` applied at key `i`. -/
def SMap.upd {α : Type} [DecidableEq α] (d : α) (m : SMap α) (i : Nat) (f : α → α) : SMap α :=
  SMap.set d m i (f (SMap.get d m i))

/-- Canonical form: keys strictly rising above `lo`, nothing listed that equals `d`. -/
def SMap.wfFrom {α : Type} [DecidableEq α] (d : α) : Option Nat → SMap α → Bool
  | _, [] => true
  | lo, (k, v) :: m =>
    (match lo with | none => true | some l => decide (l < k)) && decide (v ≠ d) && SMap.wfFrom d (some k) m

def SMap.wf {α : Type} [DecidableEq α] (d : α) (m : SMap α) : Bool := SMap.wfFrom d none m

/-- The map with `f` applied to every listed value. -/
def SMap.mapVals {α : Type} [DecidableEq α] (d : α) (m : SMap α) (f : Nat → α → α) : SMap α :=
  m.foldr (fun p r => SMap.set d r p.1 (f p.1 p.2)) []

/-! ### Bytes of memory: unlisted bytes read 0 (log entry 5) -/

abbrev Mem := List Host.Cell

/-- Canonical form of a memory. -/
def Memory.wf (m : Mem) : Bool := SMap.wf 0#8 m

def Memory.readByte (m : Mem) (a : Nat) : Byte := SMap.get 0#8 m a
def Memory.writeByte (m : Mem) (a : Nat) (v : Byte) : Mem := SMap.set 0#8 m a v

/-- `n` bytes from address `a`. -/
def Memory.read (m : Mem) (a n : Nat) : List Byte := (List.range n).map fun i => Memory.readByte m (a + i)

def Memory.write (m : Mem) (a : Nat) : List Byte → Mem
  | [] => m
  | b :: bs => Memory.write (Memory.writeByte m a b) (a + 1) bs

/-- Little-endian numbers (R12). -/
def leNat : List Byte → Nat
  | [] => 0
  | b :: bs => b.toNat + 256 * leNat bs

def leBytes : Nat → Nat → List Byte
  | 0, _ => []
  | n + 1, x => BitVec.ofNat 8 x :: leBytes n (x / 256)

def Memory.readNat (m : Mem) (a n : Nat) : Nat := leNat (Memory.read m a n)
def Memory.writeNat (m : Mem) (a n x : Nat) : Mem := Memory.write m a (leBytes n x)

/-- The mapping of every byte of `[a, a + n)` to zero. -/
def Memory.clear (m : Mem) (a n : Nat) : Mem := m.filter fun c => !(a ≤ c.1 && c.1 < a + n)

/-! ### Places (R7, R17 to R20, R27) -/

def clX (cl : Nat) : Nat := cl % 96
def clY (cl : Nat) : Nat := cl / 96
def clAt (x y : Nat) : Nat := 96 * y + x
def clField (cl : Nat) : Nat := clY cl / 6 * 12 + clX cl / 8
def clBayK (cl : Nat) : Nat := clY cl % 6 / 3 * 2 + clX cl % 8 / 4
def clBay (cl : Nat) : Nat := 4 * clField cl + clBayK cl
/-- Position in the bay (R19). -/
def clJ (cl : Nat) : Nat := clY cl % 3 * 4 + clX cl % 4
def bayField (b : Nat) : Nat := b / 4

/-- The twelve clusters of bay `b` in order of j. -/
def bayClusters (b : Nat) : List Nat :=
  let f := b / 4
  let k := b % 4
  let x0 := f % 12 * 8 + k % 2 * 4
  let y0 := f / 12 * 6 + k / 2 * 3
  (List.range 12).map fun j => clAt (x0 + j % 4) (y0 + j / 4)

end Sys2Proof.Machine

namespace Sys2Proof

open Sys2Proof.Machine

/-! ### Pages by reference (R483 to R485, R488) -/

def PageRef.block : PageRef → Block
  | .dev => .dev | .hib => .hib | .bringup => .bringup | .timekeeper => .timekeeper | .sec => .sec
  | .meter => .meter | .power => .power | .gable _ => .gable | .eave _ => .eave | .field _ => .field
  | .bay _ => .bay | .baymem _ => .baymem | .cluster _ => .cluster | .weave _ => .weave
  | .dma _ _ => .dma | .gutter _ => .gutter | .thatcher _ => .thatcher | .skylight _ => .skylight
  | .ctu _ => .ctu

/-- The cluster that holds a cluster page. -/
def PageRef.cluster? : PageRef → Option Nat
  | .cluster c | .weave c | .dma c _ | .gutter c | .thatcher c | .skylight c | .ctu c => some c
  | _ => none

/-- The bay that supplies a page; `none` for a device-level, gable, eave or field page. -/
def PageRef.bay? : PageRef → Option Nat
  | .bay b | .baymem b => some b
  | pg => pg.cluster?.map clBay

/-- BAR0 base of a page; a cluster page has one only through a window. -/
def PageRef.bar0? : PageRef → Option Nat
  | .dev => some 0x0000 | .hib => some 0x1000 | .bringup => some 0x2000 | .timekeeper => some 0x3000
  | .sec => some 0x4000 | .meter => some 0x5000 | .power => some 0x6000
  | .gable t => some (0x10000 + 0x1000 * (t - 1))
  | .eave p => some (0x80000 + 0x1000 * p)
  | .field f => some (0x1000000 + 0x10000 * f)
  | .bay b => some (0x1000000 + 0x10000 * (b / 4) + 0x1000 + 0x1000 * (b % 4))
  | .baymem b => some (0x1000000 + 0x10000 * (b / 4) + 0x5000 + 0x1000 * (b % 4))
  | _ => none

/-- Page offset of a cluster page within its window (R485). -/
def PageRef.winOff : PageRef → Nat
  | .weave _ => 0x1000 | .dma _ n => 0x2000 + 0x1000 * n | .gutter _ => 0x4000 | .thatcher _ => 0x5000
  | .skylight _ => 0x6000 | .ctu _ => 0x7000 | _ => 0

end Sys2Proof

namespace Sys2Proof.Machine

open Sys2Proof

/-! ### Units -/

def Chip.cl (s : Chip) (i : Nat) : Cluster := SMap.get {} s.clusters i
def Chip.setCl (s : Chip) (i : Nat) (c : Cluster) : Chip := { s with clusters := SMap.set {} s.clusters i c }
def Chip.modCl (s : Chip) (i : Nat) (f : Cluster → Cluster) : Chip := s.setCl i (f (s.cl i))
def Chip.bay (s : Chip) (i : Nat) : Bay := SMap.get {} s.bays i
def Chip.setBay (s : Chip) (i : Nat) (b : Bay) : Chip := { s with bays := SMap.set {} s.bays i b }
def Chip.modBay (s : Chip) (i : Nat) (f : Bay → Bay) : Chip := s.setBay i (f (s.bay i))
def Chip.field (s : Chip) (i : Nat) : Field := SMap.get {} s.fields i
def Chip.modField (s : Chip) (i : Nat) (f : Field → Field) : Chip :=
  { s with fields := SMap.upd {} s.fields i f }
def Chip.gable (s : Chip) (t : Nat) : Gable := SMap.get {} s.gables t
def Chip.modGable (s : Chip) (t : Nat) (f : Gable → Gable) : Chip :=
  { s with gables := SMap.upd {} s.gables t f }
def Chip.eave (s : Chip) (p : Nat) : Eave := SMap.get {} s.eaves p
def Chip.modEave (s : Chip) (p : Nat) (f : Eave → Eave) : Chip :=
  { s with eaves := SMap.upd {} s.eaves p f }

def Cluster.core (c : Cluster) (i : Nat) : Core := SMap.get {} c.cores i
def Cluster.modCore (c : Cluster) (i : Nat) (f : Core → Core) : Cluster :=
  { c with cores := SMap.upd {} c.cores i f }
def Chip.core (s : Chip) (cl i : Nat) : Core := (s.cl cl).core i
def Chip.modCore (s : Chip) (cl i : Nat) (f : Core → Core) : Chip := s.modCl cl fun c => c.modCore i f

/-- The five units that reach virtual memory, by unit number: 0 DMA 0, 1 DMA 1, 2 thatcher, 3 gutter,
4 skylight. -/
def Cluster.engine (c : Cluster) : Nat → Engine
  | 0 => c.dma0 | 1 => c.dma1 | 2 => c.thatcher | 3 => c.gutter | _ => c.skylight
def Cluster.modEngine (c : Cluster) (u : Nat) (f : Engine → Engine) : Cluster :=
  match u with
  | 0 => { c with dma0 := f c.dma0 }
  | 1 => { c with dma1 := f c.dma1 }
  | 2 => { c with thatcher := f c.thatcher }
  | 3 => { c with gutter := f c.gutter }
  | _ => { c with skylight := f c.skylight }
def Chip.modEngine (s : Chip) (cl u : Nat) (f : Engine → Engine) : Chip :=
  s.modCl cl fun c => c.modEngine u f

/-- The page of unit `u` of a cluster. -/
def unitPage (cl u : Nat) : PageRef :=
  match u with
  | 0 => .dma cl 0 | 1 => .dma cl 1 | 2 => .thatcher cl | 3 => .gutter cl | _ => .skylight cl

/-! ### Pages -/

def Chip.page (s : Chip) : PageRef → Page
  | .dev => s.dev
  | .hib => s.hib
  | .bringup => s.bringup.page
  | .timekeeper => s.tk.page
  | .sec => s.sec.page
  | .meter => s.meterPage
  | .power => s.powerPage
  | .gable t => (s.gable t).page
  | .eave p => (s.eave p).page
  | .field f => (s.field f).page
  | .bay b => (s.bay b).page
  | .baymem b => (s.bay b).memPage
  | .cluster c => (s.cl c).page
  | .weave c => (s.cl c).weavePage
  | .dma c n => ((s.cl c).engine n).page
  | .thatcher c => (s.cl c).thatcher.page
  | .gutter c => (s.cl c).gutter.page
  | .skylight c => (s.cl c).skylight.page
  | .ctu c => (s.cl c).ctu.page

def Chip.modPage (s : Chip) (pg : PageRef) (f : Page → Page) : Chip :=
  match pg with
  | .dev => { s with dev := f s.dev }
  | .hib => { s with hib := f s.hib }
  | .bringup => { s with bringup := { s.bringup with page := f s.bringup.page } }
  | .timekeeper => { s with tk := { s.tk with page := f s.tk.page } }
  | .sec => { s with sec := { s.sec with page := f s.sec.page } }
  | .meter => { s with meterPage := f s.meterPage }
  | .power => { s with powerPage := f s.powerPage }
  | .gable t => s.modGable t fun g => { g with page := f g.page }
  | .eave p => s.modEave p fun e => { e with page := f e.page }
  | .field i => s.modField i fun x => { x with page := f x.page }
  | .bay b => s.modBay b fun x => { x with page := f x.page }
  | .baymem b => s.modBay b fun x => { x with memPage := f x.memPage }
  | .cluster c => s.modCl c fun x => { x with page := f x.page }
  | .weave c => s.modCl c fun x => { x with weavePage := f x.weavePage }
  | .dma c n => s.modEngine c (if n = 0 then 0 else 1) fun e => { e with page := f e.page }
  | .thatcher c => s.modEngine c 2 fun e => { e with page := f e.page }
  | .gutter c => s.modEngine c 3 fun e => { e with page := f e.page }
  | .skylight c => s.modEngine c 4 fun e => { e with page := f e.page }
  | .ctu c => s.modCl c fun x => { x with ctu := { x.ctu with page := f x.ctu.page } }

/-- A stored register of a page of block type `k`. -/
def Page.reg (p : Page) (k : Block) (off : Nat) : W := SMap.get (k.resetReg off) p.regs off
def Page.setReg (p : Page) (k : Block) (off : Nat) (v : W) : Page :=
  { p with regs := SMap.set (k.resetReg off) p.regs off v }
def Page.modReg (p : Page) (k : Block) (off : Nat) (f : W → W) : Page := p.setReg k off (f (p.reg k off))

def Chip.reg (s : Chip) (pg : PageRef) (off : Nat) : W := (s.page pg).reg pg.block off
def Chip.setReg (s : Chip) (pg : PageRef) (off : Nat) (v : W) : Chip :=
  s.modPage pg fun p => p.setReg pg.block off v
def Chip.modReg (s : Chip) (pg : PageRef) (off : Nat) (f : W → W) : Chip :=
  s.modPage pg fun p => p.modReg pg.block off f

/-- A counter register raised by `n`, wrapping at 64 bits. -/
def Chip.count (s : Chip) (pg : PageRef) (off n : Nat) : Chip :=
  s.modReg pg off fun v => v + BitVec.ofNat 64 n

/-! ### Meters (R514, R515) -/

def billion : Nat := 1000000000

/-- The timebase (R293). -/
def Chip.now (s : Chip) : W := s.tk.now

/-- A difference of 16-bit counts. -/
def sub16 (a b : Nat) : Nat := (a + 65536 - b % 65536) % 65536

/-- Records built and not consumed: written ones and those still to be written. -/
def Chip.meterRing (s : Chip) (t : Nat) : Nat × Nat :=
  let pg := PageRef.gable t
  let used := sub16 (fld (s.reg pg Off.GB_MR_TAIL) 0 16) (fld (s.reg pg Off.GB_MR_HEAD) 0 16)
  (used, 2 ^ fld (s.reg pg Off.GB_MR_CFG) 0 4)

def Chip.meterFull (s : Chip) (t : Nat) : Bool := decide ((s.meterRing t).1 ≥ (s.meterRing t).2)

/-- Where the interval ends an open period: at its first multiple after the period's start, and after the ring last got
room back. -/
def Meter.due (m : Meter) : Nat :=
  let i := m.interval * billion
  (max m.tStart.toNat m.ringFreed.toNat / i + 1) * i

/-- Periods that the interval has ended before `now` and no command has: an event stamped now belongs to the one that
many periods on (R515). None ends while the ring is full. -/
def Meter.periodsOver (m : Meter) (now : Nat) (full : Bool) : Nat :=
  if !m.isOpen || m.interval = 0 || full || now ≤ m.due then 0 else (now - 1 - m.due) / (m.interval * billion) + 1

/-- An event of now counted for tint `t`: in the meter period that it falls in (R515), or for tint 0 (R514). -/
def Chip.metered (s : Chip) (t : Nat) (f : Meter → Meter) : Chip :=
  if t = 0 then { s with meter0 := f s.meter0 }
  else s.modGable t fun g =>
    if !g.meter.isOpen then g
    else match g.meter.periodsOver s.now.toNat (s.meterFull t) with
      | 0 => { g with meter := f g.meter }
      | k + 1 => { g with later := SMap.upd {} g.later (k + 1) f }

/-- A value with its field `[w-1:0]` raised by `n`, saturating. -/
def satField (w n : Nat) (v : W) : W := putFld v 0 w (min (2 ^ w - 1) (fld v 0 w + n))

/-- A value with its field `[w-1:0]` raised by `n`, wrapping in its width (log entry 6). -/
def wrapField (w n : Nat) (v : W) : W := putFld v 0 w ((fld v 0 w + n) % 2 ^ w)

/-- A saturating counter in bits `[w-1:0]` raised by `n`. -/
def Chip.countSat (s : Chip) (pg : PageRef) (off w n : Nat) : Chip := s.modReg pg off (satField w n)

/-- The host's write to a plain register under the access codes of R472. -/
def RegSpec.write (r : RegSpec) (old v : W) : W :=
  let rw : W := BitVec.ofNat 64 r.rw
  let w1c : W := BitVec.ofNat 64 r.w1c
  let cleared := old &&& w1c &&& v
  let also : W := if cleared = 0#64 then 0#64 else BitVec.ofNat 64 r.clr
  (old &&& ~~~rw &&& ~~~cleared &&& ~~~also) ||| (v &&& rw)

/-- The value a read leaves (R472): RC fields become 0. -/
def RegSpec.afterRead (r : RegSpec) (old : W) : W := old &&& ~~~(BitVec.ofNat 64 r.rc)

/-! ### Free values -/

/-- The next free value (log entry 3). -/
def Chip.draw (s : Chip) : W × Chip := (Config.freeValue s.draws, { s with draws := s.draws + 1 })

/-- `n` free values, as one number of 64 n bits. -/
def Chip.drawNat (s : Chip) : Nat → Nat × Chip
  | 0 => (0, s)
  | n + 1 =>
    let (x, s) := s.drawNat n
    let (w, s) := s.draw
    (x * 2 ^ 64 + w.toNat, s)

/-! ### Committed clusters and core maps (R492 to R494) -/

/-- The tint of the bay that holds a cluster. -/
def Chip.clTint (s : Chip) (cl : Nat) : Nat := (s.bay (clBay cl)).tint

/-- Where logical cluster `lc` is committed. -/
def Chip.physOf (s : Chip) (lc : Nat) : Option Nat := SMap.get none s.committed lc

/-- Physical core of logical core `c` in the core map (R494). -/
def Cluster.pcore (x : Cluster) (c : Nat) : Nat :=
  fld (x.page.reg .cluster (Off.CL_CORE_MAP (c / 8))) (8 * (c % 8)) 8

/-- Logical core number that the enabled core map gives physical core `p`. -/
def Cluster.logical (x : Cluster) (p : Nat) : Option Nat :=
  if x.mapEn then (List.range 128).find? fun c => x.pcore c = p else none

/-- The 19-bit logical core ID of R7; 0 for a core without one. -/
def Cluster.coreId (x : Cluster) (p : Nat) : Nat :=
  match x.lc, x.logical p with
  | some l, some c => l * 128 + c
  | _, _ => 0

/-- INSTANCE of a page (R485, R488). -/
def Chip.instanceOf (s : Chip) (pg : PageRef) : Nat :=
  match pg with
  | .gable t => t
  | .eave p => p
  | .field f => f
  | .bay b | .baymem b => b
  | .dma c n => match (s.cl c).lc with | some l => 2 * l + n | none => 0xFFFF
  | _ => match pg.cluster? with
    | some c => (match (s.cl c).lc with | some l => l | none => 0xFFFF)
    | none => 0

/-! ### The bays of a gable (R499) -/

/-- Bit `b` of a mask held in words of 64 bits at `off`. -/
def Chip.maskBit (s : Chip) (pg : PageRef) (off b : Nat) : Bool := bit (s.reg pg (off + 8 * (b / 64))) (b % 64)

/-- The bays of GB_BAYSw and of GB_CORRw. -/
def Chip.gableBays (s : Chip) (t : Nat) : List Nat :=
  (List.range 336).filter fun b => s.maskBit (.gable t) (Off.GB_BAYS 0) b
def Chip.gableCorr (s : Chip) (t : Nat) : List Nat :=
  (List.range 336).filter fun b => s.maskBit (.gable t) (Off.GB_CORR 0) b
/-- The clusters of a gable. -/
def Chip.gableClusters (s : Chip) (t : Nat) : List Nat := (s.gableBays t).flatMap bayClusters

/-- An MSI-X vector or ring of gable `t` is the function VF t's; PF vector of its faults (R441). -/
def faultVector (t : Nat) : Nat := t
def errorVector (t : Nat) : Nat := 64 + t

/-! ### To the host (R437, R442) -/

/-- The link meets the conditions of R435 and the minimums of HL_CFG (R437, R464). -/
def HostLink.cfg (l : HostLink) : W := SMap.get (Block.resetReg .hostLink Off.HL_CFG) l.regs Off.HL_CFG

def HostLink.meets (l : HostLink) : Bool :=
  l.up && l.cxl && 4 ≤ l.width && fld l.cfg 0 5 ≤ l.width && 3 ≤ l.speed && fld l.cfg 8 3 ≤ l.speed

/-- HL_LINK.HELD (R437, R464): under REQUIRE_IDE a stream that stopped holds traffic until both are
active again. -/
def HostLink.held (l : HostLink) : Bool := !l.meets || (bit l.cfg 16 && l.ideStopped)

/-- CXL.cache and CXL.mem serve: step HOST has enabled them, nothing holds the link's traffic, and under REQUIRE_IDE both
streams are active (R435, R437, R464). -/
def HostLink.cxlServes (l : HostLink) : Bool := l.cxlOn && !l.held && (!bit l.cfg 16 || (l.ioIde && l.cmIde))

/-- Something for the host: sent, or held in order while HELD reads 1 (R437). -/
def Chip.sendHost (s : Chip) (o : Output) : Chip :=
  if s.link.held then { s with link := { s.link with heldOut := s.link.heldOut ++ [o] } }
  else { s with out := s.out ++ [o] }

/-- Held traffic goes out in its order once nothing holds it (R437). -/
def Chip.releaseHeld (s : Chip) : Chip :=
  if s.link.held then s
  else { s with out := s.out ++ s.link.heldOut, link := { s.link with heldOut := [] } }

/-- Something that leaves the engine by another way than the host link. -/
def Chip.emit (s : Chip) (o : Output) : Chip := { s with out := s.out ++ [o] }

/-- Word `i` of the MSI-X table. Every vector is masked after reset, as the PCI Express Base
Specification has it (PRESUMED, log entry 17). -/
def HostLink.msixDefault (i : Nat) : W := if i % 2 = 1 then 1#64 <<< 32 else 0#64
def HostLink.msixWord (l : HostLink) (i : Nat) : W := SMap.get (HostLink.msixDefault i) l.msix i
def HostLink.setMsix (l : HostLink) (i : Nat) (v : W) : HostLink :=
  { l with msix := SMap.set (HostLink.msixDefault i) l.msix i v }
def HostLink.vecMasked (l : HostLink) (key : Nat) : Bool := bit (l.msixWord (2 * key + 1)) 32

/-- An MSI-X vector of function `fn` (R441, R442): pending while masked. -/
def Chip.signal (s : Chip) (fn vec : Nat) : Chip :=
  let key := 2048 * fn + vec
  if s.link.vecMasked key then
    if key ∈ s.link.pendingVec then s
    else { s with link := { s.link with pendingVec := s.link.pendingVec ++ [key] } }
  else s.sendHost (.vector fn vec)

/-- The range from `lo` to `hi` cut at the multiples of `size`. -/
def cutAt (size : Nat) : Nat → Nat → Nat → List (Nat × Nat)
  | 0, _, _ => []
  | n + 1, lo, hi =>
    if lo ≥ hi then []
    else
      let m := min (size - lo % size) (hi - lo)
      (lo, m) :: cutAt size n (lo + m) hi

/-- The negotiated Max Payload Size and Max Read Request Size (R452). -/
def HostLink.maxPayload (l : HostLink) : Nat := 128 * 2 ^ fld l.devCtl 5 3
def HostLink.maxRead (l : HostLink) : Nat := 128 * 2 ^ fld l.devCtl 12 3

/-- A read of host memory for tint `t`, in requests of at most Max Read Request Size (R439, R452). -/
def Chip.hostGet (s : Chip) (t addr n : Nat) : Chip :=
  (cutAt s.link.maxRead (n / s.link.maxRead + 2) addr (addr + n)).foldl (fun s c => s.sendHost (.hostRead t c.1 c.2)) s

/-- A write of host memory for tint `t`, in posted requests of at most Max Payload Size. -/
def Chip.hostPut (s : Chip) (t addr : Nat) (data : List Byte) : Chip :=
  (cutAt s.link.maxPayload (data.length / s.link.maxPayload + 2) addr (addr + data.length)).foldl
    (fun s c => s.sendHost (.hostWrite t c.1 ((data.drop (c.1 - addr)).take c.2))) s

/-- A posted write to host memory for tint `t` (R439). -/
def Chip.hostWrite (s : Chip) (fn addr : Nat) (data : List Byte) : Chip :=
  s.sendHost (.hostWrite fn addr data)

/-! ### Stall windows of a gable (R351) -/

/-- An arming starts at `at_`, unless one is under way (R532). -/
def Bay.arm (x : Bay) (at_ : W) : Bay := if x.arming then x else { x with arming := true, armingAt := at_ }

/-- A window of a cause opens for gable `t`; tint 0 is no gable. -/
def Chip.openWindow (s : Chip) (t : Nat) (cause : StallCause) : Chip :=
  if t = 0 then s
  else s.modGable t fun g => { g with windows := g.windows ++ [⟨cause, s.now, none⟩] }

/-- The oldest open window of the cause closes. -/
def closeFirst (cause : StallCause) (at_ : W) : List StallWindow → List StallWindow
  | [] => []
  | w :: ws =>
    if w.cause = cause ∧ w.closed = none then { w with closed := some at_ } :: ws
    else w :: closeFirst cause at_ ws

def Chip.closeWindow (s : Chip) (t : Nat) (cause : StallCause) : Chip :=
  if t = 0 then s
  else s.modGable t fun g => { g with windows := closeFirst cause s.now g.windows }

/-! ### Halt (R359 to R361) -/

/-- The JTAG instruction takes the module's pins: EXTEST, EXTEST_PULSE, EXTEST_TRAIN, CLAMP or HIGHZ (R643). -/
def Module.tapTakes (m : Module) : Bool := m.tapIr ∈ [0x00, 0x08, 0x09, 0x04, 0x05]

/-- EB_EXTEST_PULSE or EB_EXTEST_TRAIN is in the instruction register (R643). -/
def Module.ebTakes (m : Module) : Bool := m.tapIr ∈ [0x18, 0x19]

/-- The engine halt is raised: by DEV_HALT.HALT, HALT_N low or treated as low, or an ENGINE-FATAL error
(R495, R603, R643). -/
def Chip.halting (s : Chip) : Bool := s.module.haltReg || !s.module.haltN || s.module.fatalHalt || s.module.tapTakes

/-- From the pre-emption command of a gable until its restore completes (R449). -/
def Chip.preempted (s : Chip) (t : Nat) : Bool :=
  t ≠ 0 && ((s.gable t).saving || (s.gable t).dormant || (s.gable t).restoring)

/-- The TINT field of a session entry (R428). -/
def Session.tintOf (x : Session) : Nat := fld (SMap.get 0#64 x.words 0) 16 7
/-- The link of a session: FLAGS[0]. -/
def Session.link (x : Session) : Nat := fld (SMap.get 0#64 x.words 0) 24 1
def Eave.linkOf (e : Eave) (l : Nat) : EaveLink := if l = 0 then e.link0 else e.link1

/-- The retransmission timers of a session hold: under a halt, while its link is not UP, and while its
gable is pre-empted (R398, R424, R425). -/
def Chip.timersHold (s : Chip) (e : Eave) (x : Session) : Bool :=
  s.halting || (e.linkOf x.link).state ≠ .up || s.preempted x.tintOf

/-- A hold begins at `now`, or ends and leaves the timers where it found them. -/
def Session.hold (x : Session) (held : Bool) (now : W) : Session :=
  match held, x.heldAt with
  | true, none => { x with heldAt := some now }
  | false, some h =>
    { x with heldAt := none, inflight := x.inflight.map fun f => { f with sentAt := f.sentAt + (now - h) } }
  | _, _ => x

/-- Every session's timers brought in line with what holds them now. -/
def Chip.syncHolds (s : Chip) : Chip :=
  { s with eaves := SMap.mapVals {} s.eaves fun _ e => { e with
      sessions := SMap.mapVals {} e.sessions fun _ x => if x.state = 1 then x.hold (s.timersHold e x) s.now else x } }

/-- A halt stops a save where it is: its clusters go back to STOPPING and the host starts the
pre-emption again after the release (R284, R512). -/
def Cluster.haltSave (x : Cluster) : Cluster :=
  match x.ctu.phase with
  | .draining | .saving => { x with ctu := { x.ctu with phase := .stopping } }
  | _ => x

/-- Every enabled gable changed. -/
def Chip.eachGable (s : Chip) (f : Chip → Nat → Chip) : Chip :=
  (s.gables.filter fun p => p.2.page.enable).foldl (fun s p => f s p.1) s

/-- A halt's rise or fall: PF vector 0 (R441); HALTED clears and FAULT windows close when it ends (R351,
R495). -/
def Chip.haltChange (was : Bool) (s : Chip) : Chip :=
  if was = s.halting then s
  else if s.halting then
    let s := { s with
      clusters := SMap.mapVals {} s.clusters fun _ x => x.haltSave
      gables := SMap.mapVals {} s.gables fun _ g => { g with saving := false } }
    (s.eachGable fun s t => s.openWindow t .fault).syncHolds.signal 0 0
  else
    let s := { s with module := { s.module with haltedBit := false } }
    (s.eachGable fun s t => s.closeWindow t .fault).syncHolds.signal 0 0

/-- Raises the halt of an ENGINE-FATAL error (R603). -/
def Chip.raiseFatalHalt (s : Chip) : Chip :=
  Chip.haltChange s.halting { s with module := { s.module with fatalHalt := true } }

/-! ### Faults (R469, R470, R599, R600) -/

/-- FAULT_CAUSE bits with an error class, by block type (chapters 04 to 18). CORE_STOP takes the class
of its cause. -/
def errClass (k : Block) (b : Nat) : Option ErrClass :=
  match k, b with
  | .dev, 0 | .dev, 1 => some .engineFatal
  | .field, 0 | .field, 2 | .field, 3 | .field, 4 => some .corrected
  | .field, 1 => some .contained
  | .baymem, 0 => some .contained
  | .cluster, 0 => some .contained
  | .cluster, 1 | .cluster, 2 | .cluster, 8 | .cluster, 10 | .cluster, 12 => some .contained
  | .cluster, 11 => some .gableFatal
  | .weave, 0 | .weave, 1 | .weave, 2 => some .contained
  | .dma, 0 | .dma, 3 | .dma, 4 => some .gableFatal
  | .dma, 2 => some .contained
  | .gutter, 0 | .gutter, 1 | .gutter, 4 => some .gableFatal
  | .gutter, 3 => some .contained
  | .thatcher, 0 | .thatcher, 1 | .thatcher, 2 | .thatcher, 3 | .thatcher, 6 => some .gableFatal
  | .thatcher, 5 => some .contained
  | .skylight, 0 | .skylight, 1 | .skylight, 4 => some .gableFatal
  | .skylight, 3 => some .contained
  | .eave, 0 | .eave, 1 => some .contained
  | .eave, 2 | .eave, 3 => some .gableFatal
  | .eave, 5 => some .corrected
  | .gable, 8 | .gable, 9 => some .contained
  | .power, 0 => some .contained
  | .power, 1 | .power, 4 | .power, 5 => some .corrected
  | .power, 2 | .power, 3 => some .engineFatal
  | .sec, 0 | .sec, 1 | .sec, 2 => some .engineFatal
  | _, _ => none

/-- Bits of IRQ_MASK that software may write: those without an error class (R470). -/
def irqWritable (k : Block) (m : W) : W :=
  (List.range 64).foldl (fun a b => if errClass k b = none then a else clrBit a b) m

/-- The tint a report is made for (R600). -/
def Chip.reportTint (s : Chip) (pg : PageRef) : Nat :=
  match pg with
  | .gable t => t
  | _ => match pg.bay? with
    | some b => (s.bay b).tint
    | none => 0

/-- A FAULT_CAUSE bit becomes 1: IRQ_STATUS follows; for a classed bit a report falls due; the page's
interrupt goes to the HIB as PF vector 0 for the HIB page (R470, R498). -/
def Chip.raiseWith (s : Chip) (pg : PageRef) (b : Nat) (cls : Option ErrClass) (detail tint : Nat)
    (patrol : Bool) : Chip :=
  let p := s.page pg
  if bit p.fault b then s
  else
    let rs := match cls with
      | some c => p.reports ++ [{ bit := b, cls := c, time := s.now, detail, tint, patrol }]
      | none => p.reports
    let s := s.modPage pg fun p =>
      { p with fault := setBit p.fault b, irqStat := setBit p.irqStat b, reports := rs }
    let s := if pg = .hib ∧ cls = none ∧ bit p.irqMask b = false then s.signal 0 0 else s
    match pg.block, cls with
    | .power, some .engineFatal => s.raiseFatalHalt
    | .dev, some .engineFatal => s.raiseFatalHalt
    | _, _ => s

/-- A fault of a page's own unit, with DETAIL (R601). -/
def Chip.raise (s : Chip) (pg : PageRef) (b : Nat) (detail : Nat := 0) : Chip :=
  s.raiseWith pg b (errClass pg.block b) detail (s.reportTint pg) false

/-! ### Refusals (R477, R480) -/

/-- A refusal recorded on a page: code, offset, index. -/
def refusalWord (code off idx : Nat) : W := BitVec.ofNat 64 (code + off <<< 16 + idx <<< 32)

def Page.refuse (p : Page) (code off idx : Nat) : Page :=
  { p with refused := true, refusal := refusalWord code off idx }

def Chip.refuse (s : Chip) (pg : PageRef) (code off : Nat) (idx : Nat := 0) : Chip :=
  s.modPage pg fun p => p.refuse code off idx

/-- The outcome of a check: none admits, otherwise the first failure (code, offset, index). -/
abbrev Verdict := Option (Nat × Nat × Nat)

/-- The first failure of a list of conditions, in the order listed. -/
def firstFail (l : List (Bool × (Nat × Nat × Nat))) : Verdict := (l.find? (·.1)).map (·.2)

/-- The least failure by offset, then code (R478). -/
def leastFail (l : List (Nat × Nat × Nat)) : Verdict :=
  l.foldl (fun acc x => match acc with
    | none => some x
    | some a => if x.2.1 < a.2.1 ∨ (x.2.1 = a.2.1 ∧ x.1 < a.1) then some x else some a) none

/-- The least failure by index, then code (R478, for an image or table). -/
def leastIdx (l : List (Nat × Nat × Nat)) : Verdict :=
  l.foldl (fun acc x => match acc with
    | none => some x
    | some a => if x.2.2 < a.2.2 ∨ (x.2.2 = a.2.2 ∧ x.1 < a.1) then some x else some a) none

/-- Failures among conditions. -/
def failsOf (l : List (Bool × (Nat × Nat × Nat))) : List (Nat × Nat × Nat) := (l.filter (·.1)).map (·.2)

/-! ### Reachability (R32, R488, R498) -/

/-- BU_CFG at reset: MIN_CLUSTERS is the GRADE of the wafer record (R554, R571). -/
def Chip.gradeCfg (s : Chip) : Chip := s.setReg .bringup Off.BU_CFG (BitVec.ofNat 64 (s.bringup.record.grade * 65536))

/-- The wafer holds its power (PW_STATE.MODULE not unpowered). -/
def Chip.powered (s : Chip) : Bool := s.module.standby && s.module.bus48 && !s.module.dark

def Bay.supplied (b : Bay) : Bool := b.power = .shaded || b.power = .lit

def Chip.bayOk (s : Chip) (b : Nat) : Bool := s.powered && (s.bay b).supplied

/-- Bay `b` runs its clusters' units: it is Lit (R538, R539) and belongs to a gable. A tint 0 corridor
bay is Lit for its routers only (R526). -/
def Chip.bayRuns (s : Chip) (b : Nat) : Bool :=
  s.powered && decide ((s.bay b).power = .lit) && decide ((s.bay b).tint ≠ 0)

/-- A page the host reaches. -/
def Chip.reachable (s : Chip) (pg : PageRef) : Bool :=
  match pg with
  | .field f => s.powered && (List.range 4).any fun k => (s.bay (4 * f + k)).supplied
  | .eave _ => s.powered
  | _ => match pg.bay? with
    | some b => s.bayOk b
    | none => s.module.standby

/-- An unreachable access recorded and counted (R32, R498). -/
def Chip.noteUnreach (s : Chip) (write : Bool) (kind off : Nat) : Chip :=
  let s := s.countSat .hib Off.HIB_UNREACH_COUNT 32 1
  let s := if bit (s.reg .hib Off.HIB_UNREACH) 0 then s
    else s.setReg .hib Off.HIB_UNREACH
      (BitVec.ofNat 64 (1 + 2 * b2n write + 4 * kind + (off % 2 ^ 26) <<< 6))
  s.raise .hib 0

/-- An unreachable access to a page: for a cluster page the window it came through is a free value. -/
def Chip.noteUnreachAt (s : Chip) (pg : PageRef) (write : Bool) (off : Nat) : Chip :=
  match pg.bar0? with
  | some b => s.noteUnreach write 0 (b + off)
  | none =>
    let (w, s) := s.draw
    s.noteUnreach write 0 (0x800000 + 0x8000 * (w.toNat % 16) + pg.winOff + off)

/-- The counters of an access that reaches its page. -/
def Chip.countAccess (s : Chip) (pg : PageRef) (write : Bool) : Chip :=
  let s := s.count .hib (if write then Off.HIB_BAR0_WRITES else Off.HIB_BAR0_READS) 1
  match pg.bay? with
  | some b => s.count (.bay b) Off.BY_RIDGE_ACCESSES 1
  | none => s

/-! ### The wear log (R555, R582) -/

/-- Entries the log holds. -/
def wearSize : Nat := 1048576
def Chip.wearFull (s : Chip) : Bool := decide (s.bringup.wear.length ≥ wearSize)

/-- An entry appended, and the WEAR_SEQ counter advanced after it; a full log keeps nothing more. -/
def Chip.wearAdd (s : Chip) (kind : Nat) (data : List Nat) : Chip :=
  if s.wearFull then s
  else { s with
    bringup := { s.bringup with wear := s.bringup.wear ++ [{ kind, time := s.now, data }] }
    sec := { s.sec with counters := s.sec.counters.set 2 (s.bringup.wear.length + 1) } }

/-! ### Local memory, accumulators and flags of a core -/

def Core.sreg (c : Core) (i : Nat) : W32 := if i = 0 then 0#32 else SMap.get 0#32 c.s i
def Core.setS (c : Core) (i : Nat) (v : W32) : Core := if i = 0 then c else { c with s := SMap.set 0#32 c.s i v }
def Core.areg (c : Core) (i : Nat) : W32 := SMap.get 0#32 c.a i
def Core.setA (c : Core) (i : Nat) (v : W32) : Core := { c with a := SMap.set 0#32 c.a i v }
def Core.accAt (c : Core) (i : Nat) : W32 := SMap.get 0#32 c.acc i
def Core.setAcc (c : Core) (i : Nat) (v : W32) : Core := { c with acc := SMap.set 0#32 c.acc i v }
def Core.flag (c : Core) (i : Nat) : Flag := SMap.get {} c.flags i
def Core.setFlag (c : Core) (i : Nat) (f : Flag) : Core := { c with flags := SMap.set {} c.flags i f }
def Core.status (c : Core) (st : Status) : Core := { c with astat := c.astat ||| st.astat }

/-! ### Field controllers (R563 to R565) -/

/-- The partner of a field (R563). -/
def partner (f : Nat) : Nat := f ^^^ 1

/-- The controller that dispatches for field `f`: its own, or the partner that covers it; none while it is lost. -/
def Chip.dispatcher (s : Chip) (f : Nat) : Option Nat :=
  if (s.field f).running then some f else if (s.field (partner f)).covering then some (partner f) else none

/-- Thermal response and fault containment in field `f`: its own controller, or the partner that took them over (R564). -/
def Chip.guarded (s : Chip) (f : Nat) : Bool := (s.field f).running || (s.field (partner f)).interim

/-! ### Rotations (R649) -/

/-- The member served next: the least above the one served last, else the least (R649). -/
def rotate (last : Option Nat) (members : List Nat) : Option Nat :=
  let least (l : List Nat) : Option Nat := l.foldl (fun a m => match a with
    | none => some m
    | some b => some (min b m)) none
  match least (members.filter fun m => match last with | none => true | some l => l < m) with
  | some m => some m
  | none => least members

end Sys2Proof.Machine
end

