-- ==== Sys2Proof/Machine/CoreOps.lean ====
section
/-! DEFINITION. What every core instruction is made of: error-checked access to local memory,
accumulators and the cluster store, flags, weave queues, the issue of an instruction with its stops
(R125) and its next PC (R95, R99). -/

namespace Sys2Proof.Machine

open Sys2Proof

/-! ### Error correction (R113, R114, R171) -/

/-- Marks at keys lo ≤ k < hi: the corrected ones counted, the first uncorrectable one. -/
def eccScan (m : SMap (Option EccMark)) (lo hi : Nat) : Nat × Option Nat :=
  let here := m.filter fun p => lo ≤ p.1 && p.1 < hi
  ((here.filter fun p => p.2 = some false).length, (here.find? fun p => p.2 = some true).map (·.1))

/-- Marks left when the correctable errors of lo ≤ k < hi are corrected. -/
def eccFix (m : SMap (Option EccMark)) (lo hi : Nat) : SMap (Option EccMark) :=
  m.filter fun p => !(lo ≤ p.1 && p.1 < hi && p.2 = some false)

/-- Marks left when the words lo ≤ k < hi are rewritten. -/
def eccWipe (m : SMap (Option EccMark)) (lo hi : Nat) : SMap (Option EccMark) :=
  m.filter fun p => !(lo ≤ p.1 && p.1 < hi)

/-- CL_CORE_ECC after `n` corrected errors and perhaps an uncorrectable one, the last at `word`. -/
def eccNote (old : W) (n : Nat) (unc : Bool) (acc : Bool) (word : Nat) : W :=
  if n = 0 && !unc then old
  else
    let v := satField 16 n old
    let v := if unc then setBit v 16 else v
    putFld (putFld v 17 1 (b2n acc)) 32 13 word

/-- The last marked word of a range, for CL_CORE_ECC.WORD. -/
def lastMark (m : SMap (Option EccMark)) (lo hi : Nat) : Nat :=
  ((m.filter fun p => lo ≤ p.1 && p.1 < hi).getLast?.map (·.1)).getD 0

/-- A read of words lo ≤ w < hi of local memory: corrections, and whether one is uncorrectable. -/
def Core.lmScan (c : Core) (lo hi : Nat) : Core × Bool :=
  let (n, u) := eccScan c.lmErr lo hi
  let word := u.getD (lastMark c.lmErr lo hi)
  ({ c with lmErr := eccFix c.lmErr lo hi, ecc := eccNote c.ecc n u.isSome false word }, u.isSome)

/-- A read of `n` bytes from local address `a`; `none` when a word is uncorrectable. -/
def Core.lmRead (c : Core) (a n : Nat) : Core × Option (List Byte) :=
  let (c, bad) := c.lmScan (a / 8) ((a + n + 7) / 8)
  (c, if bad then none else some (Memory.read c.lm a n))

/-- A write of bytes at local address `a`: partly written words are merged, which reads them. -/
def Core.lmWrite (c : Core) (a : Nat) (bs : List Byte) : Core × Bool :=
  let n := bs.length
  let lo := a / 8
  let hi := (a + n + 7) / 8
  let (c, b1) := if a % 8 = 0 then (c, false) else c.lmScan lo (lo + 1)
  let (c, b2) := if (a + n) % 8 = 0 then (c, false) else c.lmScan (hi - 1) hi
  if b1 || b2 then (c, false)
  else ({ c with lm := Memory.write c.lm a bs, lmErr := eccWipe c.lmErr lo hi }, true)

/-- A read of accumulator entries lo ≤ e < hi. -/
def Core.accScan (c : Core) (lo hi : Nat) : Core × Bool :=
  let (n, u) := eccScan c.accErr lo hi
  let word := u.getD (lastMark c.accErr lo hi)
  ({ c with accErr := eccFix c.accErr lo hi, ecc := eccNote c.ecc n u.isSome true word }, u.isSome)

/-- A write of accumulator entries from `e`. -/
def Core.accWrite (c : Core) (e : Nat) (vs : List W32) : Core :=
  { c with
    acc := (List.range vs.length).foldl (fun m i => SMap.set 0#32 m (e + i) (vs.getD i 0#32)) c.acc
    accErr := eccWipe c.accErr e (e + vs.length) }

/-- CL_STORE_ECC after `n` corrected errors and perhaps an uncorrectable one in line `line`. -/
def storeEccNote (old : W) (n : Nat) (unc : Bool) (line : Nat) : W :=
  if n = 0 && !unc then old
  else
    let v := satField 16 n old
    putFld (if unc then setBit v 16 else v) 24 18 line

/-- A scan of 64-bit words lo ≤ w < hi of the cluster store (R171, R172). -/
def Cluster.storeScan (x : Cluster) (lo hi : Nat) : Cluster × Bool :=
  let (n, u) := eccScan x.storeErr lo hi
  let word := u.getD (lastMark x.storeErr lo hi)
  let p := x.page.modReg .cluster Off.CL_STORE_ECC fun v => storeEccNote v n u.isSome (word / 8)
  ({ x with storeErr := eccFix x.storeErr lo hi, page := p }, u.isSome)

/-- Lines touched by `n` bytes at `a`. -/
def linesOf (a n : Nat) : Nat := if n = 0 then 0 else (a + n - 1) / 64 - a / 64 + 1

/-- A read of `n` bytes of the cluster store in `acc` accesses; `none` when a word is uncorrectable. -/
def Cluster.storeReadIn (x : Cluster) (a n acc : Nat) : Cluster × Option (List Byte) :=
  let (x, bad) := x.storeScan (a / 8) ((a + n + 7) / 8)
  let x := { x with page := x.page.modReg .cluster Off.CL_STORE_ACC (· + BitVec.ofNat 64 acc) }
  (x, if bad then none else some (Memory.read x.store a n))

/-- A read of one access for each line it touches. -/
def Cluster.storeRead (x : Cluster) (a n : Nat) : Cluster × Option (List Byte) := x.storeReadIn a n (linesOf a n)

/-- A write of bytes of the cluster store in `acc` accesses; `false` when a merge meets an uncorrectable word. -/
def Cluster.storeWriteIn (x : Cluster) (a : Nat) (bs : List Byte) (acc : Nat) : Cluster × Bool :=
  let n := bs.length
  let lo := a / 8
  let hi := (a + n + 7) / 8
  let (x, b1) := if a % 8 = 0 then (x, false) else x.storeScan lo (lo + 1)
  let (x, b2) := if (a + n) % 8 = 0 then (x, false) else x.storeScan (hi - 1) hi
  let x := { x with page := x.page.modReg .cluster Off.CL_STORE_ACC (· + BitVec.ofNat 64 acc) }
  if b1 || b2 then (x, false)
  else ({ x with store := Memory.write x.store a bs, storeErr := eccWipe x.storeErr lo hi }, true)

/-- A write of one access for each line it touches. -/
def Cluster.storeWrite (x : Cluster) (a : Nat) (bs : List Byte) : Cluster × Bool :=
  x.storeWriteIn a bs (linesOf a bs.length)

/-- Bytes of the cluster store (R167). -/
def storeSize : Nat := 0xC00000

/-- The STORE_ECC stop of a cluster (R172). -/
def Chip.storeStop (s : Chip) (cl : Nat) (patrol : Bool) : Chip :=
  let s := s.modCl cl fun x => { x with storeStop := true }
  let pg := PageRef.cluster cl
  s.raiseWith pg 2 (some .contained) (s.reg pg Off.CL_STORE_ECC).toNat (s.reportTint pg) patrol

/-! ### Flags (R115 to R117, R120) -/

/-- FSTAT with bit `b` set and the first flag recorded in the six bits from `lo`. -/
def fstatNote (old : W) (b lo f : Nat) : W := if bit old b then old else putFld (setBit old b) lo 6 f

/-- A set applied to flag `f` (R115). -/
def Core.applySet (c : Core) (f : Nat) : Core :=
  let g := c.flag f
  if !g.isSet then c.setFlag f { isSet := true, count := 0 }
  else if g.count < 15 then c.setFlag f { g with count := g.count + 1 }
  else { c with fstat := fstatNote c.fstat 0 8 f }

/-- A clear applied to flag `f` (R116). -/
def Core.applyClear (c : Core) (f : Nat) : Core :=
  let g := c.flag f
  if !g.isSet then { c with fstat := fstatNote c.fstat 1 16 f }
  else if g.count > 0 then c.setFlag f { g with count := g.count - 1 }
  else c.setFlag f {}

/-- A new FLAG_OVERRUN or FLAG_UNDERRUN raises the cluster's flag error (R120). -/
def Chip.flagErr (s : Chip) (cl : Nat) (was now : W) : Chip :=
  if (now &&& ~~~was) &&& 3#64 = 0#64 then s else s.raise (.cluster cl) 1

/-- A change of one core, with the flag error it may cause. -/
def Chip.modCoreF (s : Chip) (cl p : Nat) (f : Core → Core) : Chip :=
  let was := (s.core cl p).fstat
  let s := s.modCore cl p f
  s.flagErr cl was (s.core cl p).fstat

/-! ### Weave queues of a core (R129, R130, R135, R136) -/

/-- The logical number under which the weave knows physical core `p`: the resolution of the active
context (R133, R159), or the core map while none is active. -/
def Cluster.weaveNo (x : Cluster) (p : Nat) : Option Nat :=
  match x.weave.active with
  | some ctx => (List.range 128).find? fun c => SMap.get 0 x.weave.resolved (128 * ctx + c) = p + 1
  | none => x.logical p

/-- Queue address of queue `q` of physical core `p`; a core without a number has queues no connection
names. -/
def Cluster.coreQueue (x : Cluster) (p q : Nat) : Nat :=
  match x.weaveNo p with
  | some c => 4 * c + q
  | none => 4096 + 4 * p + q

def Weave.iq (w : Weave) (qa : Nat) : List Item := SMap.get [] w.inq qa
def Weave.setIq (w : Weave) (qa : Nat) (l : List Item) : Weave := { w with inq := SMap.set [] w.inq qa l }
def Weave.oq (w : Weave) (qa : Nat) : List Item := SMap.get [] w.outq qa
def Weave.setOq (w : Weave) (qa : Nat) (l : List Item) : Weave := { w with outq := SMap.set [] w.outq qa l }

/-- Entries of a queue (R130). -/
def queueDepth : Nat := 8

/-- `n` items taken from an input queue; a LAST among them is remembered for END (R156). -/
def Weave.take (w : Weave) (qa n : Nat) : Weave :=
  let l := w.iq qa
  let seen := if (l.take n).any (·.last) && !(qa ∈ w.lastSeen) then w.lastSeen ++ [qa] else w.lastSeen
  { w.setIq qa (l.drop n) with lastSeen := seen }

/-- The head of a queue has an uncorrectable error. -/
def headBad (l : List Item) : Bool := (l.head?.map (·.bad)).getD false

/-- The weave freezes for an uncorrectable error in context memory (bit 1) or in a queue entry (bit 2) (R165). -/
def Chip.weaveEcc (s : Chip) (cl b : Nat) : Chip :=
  (s.modCl cl fun x => { x with weave := { x.weave with faultFreeze := true } }).raise (.weave cl) b

/-- Core `p` needs the head item of its input queue `q`: QUEUE_ECC where that entry cannot be corrected. -/
def Chip.queueEcc (s : Chip) (cl p q : Nat) : Chip :=
  if q < 4 && headBad ((s.cl cl).weave.iq ((s.cl cl).coreQueue p q)) then s.weaveEcc cl 2 else s

/-- Bytes of an item. -/
def Item.bytes (i : Item) : List Byte := leBytes 64 i.data.toNat

/-- An item of up to 64 bytes, completed with zeros. -/
def Item.ofBytes (bs : List Byte) (last : Bool := false) : Item :=
  { data := BitVec.ofNat 512 (leNat bs), last }

/-- Bytes cut into items. -/
def itemsOf (bs : List Byte) : List Item :=
  (List.range ((bs.length + 63) / 64)).map fun i => Item.ofBytes ((bs.drop (64 * i)).take 64)

/-- Backlogged items enter the core's output queues while there is room. -/
def Cluster.pumpOut (x : Cluster) (p : Nat) : Cluster :=
  (List.range 2).foldl (fun x q =>
    let c := x.core p
    let b := SMap.get [] c.backlog q
    let qa := x.coreQueue p q
    let o := x.weave.oq qa
    let k := queueDepth - o.length
    let x := { x with weave := x.weave.setOq qa (o ++ b.take k) }
    x.modCore p fun c => { c with backlog := SMap.set [] c.backlog q (b.drop k) }) x

/-- Items handed to output queue `q` of a core. -/
def Cluster.coreSend (x : Cluster) (p q : Nat) (items : List Item) : Cluster :=
  (x.modCore p fun c => { c with backlog := SMap.upd [] c.backlog q (· ++ items) }).pumpOut p

/-! ### Addresses of a core (R94, R95, R141) -/

/-- Where `n` bytes at a core address lie: local memory, the cluster store, or in neither. -/
inductive Place where
  | lm (a : Nat)
  | store (off : Nat)
  | outside
  deriving DecidableEq, Repr

def placeOf (a n : Nat) : Place :=
  if a + n ≤ 0xC000 then .lm a
  else if 0x1000000 ≤ a ∧ a + n ≤ 0x1C00000 then .store (a - 0x1000000)
  else .outside

/-- Byte `i` of context image `ctx` (R150). -/
def Weave.img (w : Weave) (ctx off n : Nat) : Nat := Memory.readNat w.images (4096 * ctx + off) n

/-- The store port of a core under the active context, when that port is in ACCESS mode (R141). -/
def Cluster.portOf (x : Cluster) (p : Nat) : Option Nat :=
  match x.weave.active, x.weaveNo p with
  | some ctx, some c =>
    let port := x.weave.img ctx (2720 + c) 1
    if port < 8 ∧ x.weave.img ctx (2848 + 32 * port) 1 = 1 then some port else none
  | _, _ => none

/-- The place, with the cluster store only through a port. -/
def Cluster.place (x : Cluster) (p a n : Nat) : Place :=
  match placeOf a n with
  | .store o => if (x.portOf p).isSome then .store o else .outside
  | y => y

/-! ### Issue (R90, R95, R97, R99, R125) -/

/-- Where execution goes after an instruction. -/
inductive Next where
  | seq
  | jump (target : Int)
  /-- the body of a LOOP is skipped: execution goes on as after the instruction at `last` -/
  | after (last : Nat)
  | stop
  deriving DecidableEq, Repr

/-- What issuing an instruction does to its cluster. -/
inductive Res where
  /-- it takes effect -/
  | ok (x : Cluster) (n : Next)
  /-- the core stops at it (R125) -/
  | stopAt (x : Cluster) (cause : StopCause)
  /-- it cannot issue yet: input queue `q`, or output queue `q - 4`, or an unfinished instruction on it holds it
  (R90, R136) -/
  | hold (q : Nat)
  /-- an uncorrectable word of the cluster store stops the cluster (R172) -/
  | storeEcc (x : Cluster)

def StopCause.code : StopCause → Nat
  | .none => 0 | .done => 1 | .host => 2 | .illegal => 3 | .addrRange => 4 | .opndRange => 5
  | .vflagMiss => 6 | .eccLocal => 7 | .eccAcc => 8

/-- Error class of a stop (R125). -/
def StopCause.cls : StopCause → Option ErrClass
  | .illegal | .addrRange | .opndRange | .vflagMiss => some .gableFatal
  | .eccLocal | .eccAcc => some .contained
  | _ => Option.none

/-- The core is held by an engine halt, a STORE_ECC stop, a save, or a gable reset's draining (R126, R172,
R277, R568). -/
def Chip.coreHeld (s : Chip) (cl : Nat) : Bool :=
  let x := s.cl cl
  s.halting || x.storeStop || x.ctu.phase.holds || (s.gable (s.clTint cl)).resetting

/-- The core issues instructions. -/
def Chip.canIssue (s : Chip) (cl p : Nat) : Bool :=
  let c := s.core cl p
  s.bayRuns (clBay cl) && decide (c.run = .running) && !s.coreHeld cl &&
    (match c.wait with
     | .none | .queue _ => true
     | _ => false)

/-- Core `p` waits no more; the HINTMISS window of a rise that was held closes (R533). -/
def Chip.endWait (s : Chip) (cl p : Nat) : Chip :=
  let rise := (s.core cl p).wait = .rise
  let s := s.modCore cl p fun c => { c with wait := .none }
  if rise then s.closeWindow (s.clTint cl) .hintmiss else s

/-- Held rises of a cluster are held no more (R533). -/
def Chip.releaseRises (s : Chip) (cl : Nat) : Chip :=
  (List.range 136).foldl (fun s p => if (s.core cl p).wait = .rise then s.endWait cl p else s) s

/-- A core stops; every cause but DONE sets CORE_STOP, with the cause's class (R125, R601). -/
def Chip.stopCore (s : Chip) (cl p : Nat) (cause : StopCause) : Chip :=
  let s := (s.endWait cl p).modCore cl p fun c => { c with run := .stopped, cause := cause }
  if cause = .done then s
  else
    let pg := PageRef.cluster cl
    let lg := ((s.cl cl).logical p).getD 0
    s.raiseWith pg 0 cause.cls (lg + p <<< 8 + cause.code <<< 16) (s.reportTint pg) false

/-- The next address after the instruction at `a` completed without a jump: a body that ends there
is repeated while passes remain (R99). -/
def loopNext : List LoopLevel → Nat → List LoopLevel × Nat
  | [], a => ([], a + 8)
  | l :: ls, a =>
    if l.last = a then
      if l.remaining > 0 then ({ l with remaining := l.remaining - 1 } :: ls, l.start)
      else loopNext ls a
    else (l :: ls, a + 8)

/-- The core moves on; a next address outside 0x0000 to 0xBFF8 stops it before the fetch (R95). -/
def Chip.goTo (s : Chip) (cl p : Nat) (loops : List LoopLevel) (target : Int) : Chip :=
  let s := s.modCore cl p fun c => { c with pc := BitVec.ofInt 16 target, loops, wait := .none }
  if 0 ≤ target ∧ target ≤ 0xBFF8 then s else s.stopCore cl p .addrRange

/-! ### Interlocks (R90, R100, R124) -/

/-- What an instruction needs settled before it issues, and the results it leaves with the cycles until each is
usable. -/
structure Use where
  needs : List Lock := []
  leaves : List Pend := []

/-- The two name a register or a byte in common; s0 is never awaited (R91). -/
def Lock.meets : Lock → Lock → Bool
  | .s r, .s q => r = q && r ≠ 0
  | .a r, .a q => r = q
  | .acc l n, .acc k m => l < k + m && k < l + n
  | .mem l n, .mem k m => l < k + m && k < l + n
  | .src l n, .src k m => l < k + m && k < l + n
  | _, _ => false

/-- Cycles an instruction is interlocked on results of earlier ones. -/
def Core.stall (c : Core) (u : Use) : Nat :=
  c.pend.foldl (fun n p => if u.needs.any p.lock.meets then max n p.left else n) 0

/-- The results not yet usable `n` cycles later. -/
def agePend (l : List Pend) (n : Nat) : List Pend :=
  l.filterMap fun p => if p.left > n then some { p with left := p.left - n } else none

/-- Work cycles counted: they overlap the occupancy of an instruction in progress (R124). -/
def Core.workCycles (c : Core) (n : Nat) : Core :=
  { c with work := c.work + BitVec.ofNat 64 n, occ := c.occ - n, pend := agePend c.pend n, acted := true }

/-- The core at the issue of an instruction: the cycles of its interlocks are behind it. -/
def Core.ready (c : Core) (u : Use) : Core := { c.workCycles (c.stall u) with portUse := false }

/-- The core after the `cyc` issue cycles of an instruction. -/
def Core.issued (c : Core) (u : Use) (cyc : Nat) : Core :=
  let c := c.workCycles cyc
  { c with pend := c.pend ++ agePend u.leaves cyc }

/-- What a core fetches at its PC: it stops, or it reads an instruction, with the corrections of that read. -/
inductive Fetched where
  | stops (s : Chip)
  | reads (c : Core) (i : Instr)

/-- The instruction word at the PC. -/
def Core.word (c : Core) : BitVec 64 := BitVec.ofNat 64 (Memory.readNat c.lm (c.pc.toNat / 8 * 8) 8)

/-- The fetch (R95 to R97, R113): a PC outside local memory and an uncorrectable word stop the core; CLASS and OP of
the word choose the instruction, and unlisted ones stop the core with ILLEGAL. -/
def Chip.fetch (s : Chip) (cl p : Nat) : Fetched :=
  let c := s.core cl p
  if c.pc.toNat > 0xBFF8 then .stops (s.stopCore cl p .addrRange)
  else
    let (k, bad) := c.lmScan (c.pc.toNat / 8) (c.pc.toNat / 8 + 1)
    if bad then .stops ((s.modCore cl p fun _ => k).stopCore cl p .eccLocal)
    else match decodeCore cl p c.word with
      | some i => .reads k i
      | none => .stops ((s.modCore cl p fun _ => k).stopCore cl p .illegal)

/-- One instruction `i` of `cyc` issue cycles whose effect is `f` and whose interlocks are `u`. A core issues the
instruction that it fetches at its PC and no other: where that is not `i`, nothing happens (R96). Where `gate` holds
it is held, with `held` for its effect (R119, R533). A next address outside local memory stops the core before the
fetch (R95). A STOP leaves the PC on the next instruction, PC + 8, whatever loops are active: R99 and R125 do not
say that its LOOP level advances (log entry 52). -/
def Chip.issueG (s : Chip) (i : Instr) (cl p cyc : Nat) (gate : Chip → Bool) (held : Chip → Chip)
    (f : Cluster → Core → Res) (u : Cluster → Core → Use := fun _ _ => {}) : Chip :=
  if !s.canIssue cl p then s
  else match s.fetch cl p with
  | .stops s => s
  | .reads c j =>
    if j ≠ i then s
    else
      let s := s.modCore cl p fun _ => c
      let u := u (s.cl cl) c
      match f (s.cl cl) (c.ready u) with
      | .hold q => (s.modCore cl p fun c => { c with wait := .queue q }).queueEcc cl p q
      | .stopAt x cause => (s.setCl cl x).stopCore cl p cause
      | .storeEcc x => (s.setCl cl x).storeStop cl false
      | .ok x n =>
       if gate s then held s
       else
        let was := c.fstat
        let s := s.setCl cl x
        let s := s.modCore cl p fun c => c.issued u cyc
        let s := s.flagErr cl was (s.core cl p).fstat
        match n with
        | .seq =>
          let (ls, a) := loopNext c.loops c.pc.toNat
          s.goTo cl p ls a
        | .after last =>
          let (ls, a) := loopNext c.loops last
          s.goTo cl p ls a
        | .jump t => s.goTo cl p (s.core cl p).loops t
        | .stop =>
          let s := s.modCore cl p fun c => { c with pc := c.pc + 8#16 }
          s.stopCore cl p .done

/-- An instruction that nothing but its own operands holds. -/
def Chip.issue (s : Chip) (i : Instr) (cl p cyc : Nat) (f : Cluster → Core → Res)
    (u : Cluster → Core → Use := fun _ _ => {}) : Chip :=
  s.issueG i cl p cyc (fun _ => false) id f u

/-- A core instruction of the table, with its operand bits `w`: the identifiers exist, the instruction issues. -/
def coreInstr (op : Nat → Nat → BitVec 56 → Instr) (cl core : Nat) (w : BitVec 56) (s : Chip) (cyc : Nat)
    (f : Cluster → Core → Res) (u : Cluster → Core → Use := fun _ _ => {}) : Eff :=
  onUnit (cl < 4032 && core < 136) (s.issue (op cl core w) cl core cyc f u)

/-- A change of the issuing core alone. -/
def okCore (x : Cluster) (p : Nat) (c : Core) (n : Next := .seq) : Res :=
  .ok (x.modCore p fun _ => c) n

/-- The input queue of an unfinished QRECV that still writes a local range (R90). -/
def Core.lmBusy (c : Core) (a n : Nat) : Option Nat :=
  c.qops.findSome? fun o => match o with
    | .recv q b k => if a < b + 64 * k ∧ b < a + n then some q else none
    | .tmul _ => none

/-- The input queue of an unfinished tensor instruction that still reads its operand A in the range (R90). -/
def Core.srcBusy (c : Core) (a n : Nat) : Option Nat :=
  c.qops.findSome? fun o => match o with
    | .tmul j => if a < j.addr + j.a.length ∧ j.addr < a + n then some j.queue else none
    | .recv _ _ _ => none

/-- The input queue of a tensor instruction still in progress on it. -/
def Core.tensorBusy (c : Core) : Option Nat :=
  c.qops.findSome? fun o => match o with
    | .tmul j => some j.queue
    | _ => none

/-- The queue that holds up the oldest queue instruction still in progress, or items not yet in an output queue
(4 and 5). -/
def Core.blockedOn (c : Core) : Option Nat :=
  match c.qops with
  | .recv q _ _ :: _ => some q
  | .tmul j :: _ => some j.queue
  | [] => c.backlog.head?.map fun p => 4 + p.1

/-- An instruction waits for the tensor instruction in progress (R106, R109). -/
def Core.afterTensor (c : Core) (r : Res) : Res :=
  match c.tensorBusy with
  | some q => .hold q
  | none => r

/-- `n` bytes at a core address of either range (R95), in `acc` accesses where they lie in the cluster store. -/
def getBytesIn (acc : Nat) (x : Cluster) (p : Nat) (c : Core) (a n : Nat) (k : Cluster → Core → List Byte → Res) : Res :=
  if n = 0 then k x c []
  else match x.place p a n with
    | .outside => .stopAt x .addrRange
    | .lm a =>
      match c.lmBusy a n with
      | some q => .hold q
      | none => match c.lmRead a n with
        | (c, some bs) => k x c bs
        | (c, none) => .stopAt (x.modCore p fun _ => c) .eccLocal
    | .store o =>
      match x.storeReadIn o n acc with
      | (x, some bs) => k x { c with portUse := true } bs
      | (x, none) => .storeEcc (x.modCore p fun _ => c)

/-- Bytes stored at a core address of either range (R95), in `acc` accesses where it is the cluster store. -/
def putBytesIn (acc : Nat) (x : Cluster) (p : Nat) (c : Core) (a : Nat) (bs : List Byte) (k : Cluster → Core → Res) : Res :=
  if bs.isEmpty then k x c
  else match x.place p a bs.length, c.srcBusy a bs.length with
    | .outside, _ => .stopAt x .addrRange
    | _, some q => .hold q
    | .lm a, none =>
      match c.lmBusy a bs.length with
      | some q => .hold q
      | none => match c.lmWrite a bs with
        | (c, true) => k x c
        | (c, false) => .stopAt (x.modCore p fun _ => c) .eccLocal
    | .store o, none =>
      match x.storeWriteIn o bs acc with
      | (x, true) => k x { c with portUse := true }
      | (x, false) => .storeEcc (x.modCore p fun _ => c)

/-- An operand of a multiplier instruction: one access for each line it touches (R141). -/
def getBytes (x : Cluster) (p : Nat) (c : Core) (a n : Nat) (k : Cluster → Core → List Byte → Res) : Res :=
  getBytesIn (linesOf a n) x p c a n k
def putBytes (x : Cluster) (p : Nat) (c : Core) (a : Nat) (bs : List Byte) (k : Cluster → Core → Res) : Res :=
  putBytesIn (linesOf a bs.length) x p c a bs k

/-- The bytes lie within one range of R94. -/
def Cluster.inRange (x : Cluster) (p a n : Nat) : Bool := n = 0 || decide (x.place p a n ≠ .outside)

/-! ### Fields of an instruction word -/

def ibits (w : BitVec 56) (lo n : Nat) : Nat := bits w.toNat lo n

/-- IMM as a signed number. -/
def immS (w : BitVec 56) : Int := signedOf 32 (ibits w 0 32)

def imm32 (w : BitVec 56) : W32 := BitVec.ofNat 32 w.toNat

end Sys2Proof.Machine
end

