-- ==== Sys2Proof/Machine/Scalar.lean ====
section
/-! DEFINITION. Core instructions of classes 0x0 to 0x4: scalar integer, scalar FP32, load and store,
address, control (R98 to R100, R647). `w` holds the instruction's bits [55:0]. -/

namespace Sys2Proof.Machine

open Sys2Proof

/-! ### Fields of R98 -/

def fRd (w : BitVec 56) : Nat := ibits w 51 5
def fRs1 (w : BitVec 56) : Nat := ibits w 46 5
def fRs2 (w : BitVec 56) : Nat := ibits w 41 5
def fI (w : BitVec 56) : Nat := ibits w 40 1
def fAr (w : BitVec 56) : Nat := ibits w 37 3
def fPost (w : BitVec 56) : Nat := ibits w 36 1

/-- Which fields of R98 an operation uses (the Fields column of R647). -/
structure Uses where
  rd : Bool := false
  rs1 : Bool := false
  rs2 : Bool := false
  /-- operand b: I selects RS2 or IMM -/
  b : Bool := false
  ar : Bool := false
  post : Bool := false
  imm : Bool := false
  deriving DecidableEq, Repr

/-- Every field an operation does not use is 0 (R647). -/
def reservedOk (u : Uses) (w : BitVec 56) : Bool :=
  (u.rd || fRd w = 0) && (u.rs1 || fRs1 w = 0) && (u.ar || fAr w = 0) && (u.post || fPost w = 0) &&
    ibits w 32 4 = 0 &&
    (if u.b then (if fI w = 0 then ibits w 0 32 = 0 else fRs2 w = 0)
     else fI w = 0 && (u.rs2 || fRs2 w = 0) && (u.imm || ibits w 0 32 = 0))

/-- Operand b (R647). -/
def opB (c : Core) (w : BitVec 56) : W32 := if fI w = 0 then c.sreg (fRs2 w) else imm32 w

/-- An operation with the reserved-field check of R97 in front. -/
def checked (u : Uses) (w : BitVec 56) (x : Cluster) (r : Res) : Res :=
  if reservedOk u w then r else .stopAt x .illegal

/-! ### Interlocks (R90, R100): the registers an operation reads, and the cycles until its result is usable -/

def useB (w : BitVec 56) : List Lock := if fI w = 0 then [.s (fRs2 w)] else []

/-- RS1 and b to RD, usable `lat` cycles after issue. -/
def aluUse (lat : Nat) (w : BitVec 56) (_ : Cluster) (_ : Core) : Use where
  needs := .s (fRs1 w) :: useB w
  leaves := [⟨.s (fRd w), lat⟩]

/-- FFMA reads RD as well. -/
def fmaUse (w : BitVec 56) (_ : Cluster) (_ : Core) : Use where
  needs := .s (fRd w) :: .s (fRs1 w) :: useB w
  leaves := [⟨.s (fRd w), 4⟩]

/-- RS1 alone to RD. -/
def cvtUse (w : BitVec 56) (_ : Cluster) (_ : Core) : Use where
  needs := [.s (fRs1 w)]
  leaves := [⟨.s (fRd w), 4⟩]

/-- Registers read; the result, if any, is usable by the next instruction. -/
def regUse (l : List Lock) (_ : Cluster) (_ : Core) : Use where
  needs := l

/-- RD ← f(RS1, b). -/
def aluOp (core : Nat) (w : BitVec 56) (f : W32 → W32 → W32) (x : Cluster) (c : Core) : Res :=
  checked { rd := true, rs1 := true, b := true } w x
    (okCore x core (c.setS (fRd w) (f (c.sreg (fRs1 w)) (opB c w))))

def boolW (b : Bool) : W32 := if b then 1#32 else 0#32

/-! ### Scalar integer -/

/-- ADD (R647): RD ← RS1 + b. -/
def execAdd (cl core : Nat) (w : BitVec 56) (s : State) : Out := s.run fun s =>
  coreInstr Instr.add cl core w s 1 (aluOp core w fun a b => a + b) (aluUse 1 w)

/-- SUB (R647): RD ← RS1 − b. -/
def execSub (cl core : Nat) (w : BitVec 56) (s : State) : Out := s.run fun s =>
  coreInstr Instr.sub cl core w s 1 (aluOp core w fun a b => a - b) (aluUse 1 w)

/-- AND (R647). -/
def execAnd (cl core : Nat) (w : BitVec 56) (s : State) : Out := s.run fun s =>
  coreInstr Instr.and cl core w s 1 (aluOp core w fun a b => a &&& b) (aluUse 1 w)

/-- OR (R647). -/
def execOr (cl core : Nat) (w : BitVec 56) (s : State) : Out := s.run fun s =>
  coreInstr Instr.or cl core w s 1 (aluOp core w fun a b => a ||| b) (aluUse 1 w)

/-- XOR (R647). -/
def execXor (cl core : Nat) (w : BitVec 56) (s : State) : Out := s.run fun s =>
  coreInstr Instr.xor cl core w s 1 (aluOp core w fun a b => a ^^^ b) (aluUse 1 w)

/-- SHL (R647): by b[4:0], zeros shifted in. -/
def execShl (cl core : Nat) (w : BitVec 56) (s : State) : Out := s.run fun s =>
  coreInstr Instr.shl cl core w s 1 (aluOp core w fun a b => a <<< (b.toNat % 32)) (aluUse 1 w)

/-- SHR (R647): by b[4:0], zeros shifted in. -/
def execShr (cl core : Nat) (w : BitVec 56) (s : State) : Out := s.run fun s =>
  coreInstr Instr.shr cl core w s 1 (aluOp core w fun a b => a >>> (b.toNat % 32)) (aluUse 1 w)

/-- SRA (R647): by b[4:0], copies of bit 31 shifted in. -/
def execSra (cl core : Nat) (w : BitVec 56) (s : State) : Out := s.run fun s =>
  coreInstr Instr.sra cl core w s 1 (aluOp core w fun a b => a.sshiftRight (b.toNat % 32)) (aluUse 1 w)

/-- SLT (R647): signed. -/
def execSlt (cl core : Nat) (w : BitVec 56) (s : State) : Out := s.run fun s =>
  coreInstr Instr.slt cl core w s 1 (aluOp core w fun a b => boolW (BitVec.slt a b)) (aluUse 1 w)

/-- SLTU (R647): unsigned. -/
def execSltu (cl core : Nat) (w : BitVec 56) (s : State) : Out := s.run fun s =>
  coreInstr Instr.sltu cl core w s 1 (aluOp core w fun a b => boolW (BitVec.ult a b)) (aluUse 1 w)

/-- SEQ (R647). -/
def execSeq (cl core : Nat) (w : BitVec 56) (s : State) : Out := s.run fun s =>
  coreInstr Instr.seq cl core w s 1 (aluOp core w fun a b => boolW (a = b)) (aluUse 1 w)

/-- MIN (R647): the lesser, compared signed. -/
def execMin (cl core : Nat) (w : BitVec 56) (s : State) : Out := s.run fun s =>
  coreInstr Instr.min cl core w s 1 (aluOp core w fun a b => if BitVec.slt b a then b else a) (aluUse 1 w)

/-- MAX (R647): the greater, compared signed. -/
def execMax (cl core : Nat) (w : BitVec 56) (s : State) : Out := s.run fun s =>
  coreInstr Instr.max cl core w s 1 (aluOp core w fun a b => if BitVec.slt a b then b else a) (aluUse 1 w)

/-- MUL (R647): bits [31:0] of the product. -/
def execMul (cl core : Nat) (w : BitVec 56) (s : State) : Out := s.run fun s =>
  coreInstr Instr.mul cl core w s 1 (aluOp core w fun a b => a * b) (aluUse 3 w)

/-- LI (R647): RD ← IMM. -/
def execLi (cl core : Nat) (w : BitVec 56) (s : State) : Out := s.run fun s =>
  coreInstr Instr.li cl core w s 1 fun x c =>
    checked { rd := true, imm := true } w x (okCore x core (c.setS (fRd w) (imm32 w)))

/-! ### Scalar FP32 (R98): a NaN from non-NaN operands sets INVALID; overflow sets nothing -/

/-- RD ← r with INVALID when the operation was invalid. -/
def fpResult (core : Nat) (w : BitVec 56) (x : Cluster) (c : Core) (r : W32 × Bool × Bool) : Res :=
  okCore x core ((c.setS (fRd w) r.1).status { invalid := r.2.1 })

def fpOp (core : Nat) (w : BitVec 56) (f : W32 → W32 → W32 → W32 × Bool × Bool) (x : Cluster) (c : Core) : Res :=
  checked { rd := true, rs1 := true, b := true } w x
    (fpResult core w x c (f (c.sreg (fRs1 w)) (opB c w) (c.sreg (fRd w))))

/-- The value with its sign bit inverted. -/
def fpNeg (a : W32) : W32 := a ^^^ 0x80000000#32

/-- FADD (R647). -/
def execFadd (cl core : Nat) (w : BitVec 56) (s : State) : Out := s.run fun s =>
  coreInstr Instr.fadd cl core w s 1 (fpOp core w fun a b _ => fpAdd a b) (aluUse 4 w)

/-- FSUB (R647). -/
def execFsub (cl core : Nat) (w : BitVec 56) (s : State) : Out := s.run fun s =>
  coreInstr Instr.fsub cl core w s 1 (fpOp core w fun a b _ => fpAdd a (fpNeg b)) (aluUse 4 w)

/-- FMUL (R647). -/
def execFmul (cl core : Nat) (w : BitVec 56) (s : State) : Out := s.run fun s =>
  coreInstr Instr.fmul cl core w s 1 (fpOp core w fun a b _ => fpMul a b) (aluUse 4 w)

/-- FFMA (R647): RS1 × b + RD with one rounding. -/
def execFfma (cl core : Nat) (w : BitVec 56) (s : State) : Out := s.run fun s =>
  coreInstr Instr.ffma cl core w s 1 (fpOp core w fun a b d => fpFma a b d) (fmaUse w)

/-- FMIN (R647): no status is set. -/
def execFmin (cl core : Nat) (w : BitVec 56) (s : State) : Out := s.run fun s =>
  coreInstr Instr.fmin cl core w s 1 (fpOp core w fun a b _ => (fpMin a b, false, false)) (aluUse 4 w)

/-- FMAX (R647): no status is set. -/
def execFmax (cl core : Nat) (w : BitVec 56) (s : State) : Out := s.run fun s =>
  coreInstr Instr.fmax cl core w s 1 (fpOp core w fun a b _ => (fpMax a b, false, false)) (aluUse 4 w)

/-- F2I (R647, R59, R60). -/
def execF2i (cl core : Nat) (w : BitVec 56) (s : State) : Out := s.run fun s =>
  coreInstr Instr.f2i cl core w s 1 (fun x c =>
    let (r, st) := encodeInt 32 (fpDecode (c.sreg (fRs1 w)))
    checked { rd := true, rs1 := true } w x
      (okCore x core ((c.setS (fRd w) (BitVec.ofNat 32 r)).status st))) (cvtUse w)

/-- I2F (R647, R58). -/
def execI2f (cl core : Nat) (w : BitVec 56) (s : State) : Out := s.run fun s =>
  coreInstr Instr.i2f cl core w s 1 (fun x c =>
    checked { rd := true, rs1 := true } w x
      (okCore x core (c.setS (fRd w) (fpRound (XNum.ofInt (c.sreg (fRs1 w)).toInt)).1))) (cvtUse w)

/-! ### Load and store (R95, R98, R141) -/

/-- The address of a load or store: AR + IMM, or AR when POSTINC = 1. -/
def memAddr (c : Core) (w : BitVec 56) : Nat :=
  (if fPost w = 1 then c.areg (fAr w) else c.areg (fAr w) + imm32 w).toNat

/-- AR after the access. -/
def postInc (c : Core) (w : BitVec 56) : Core :=
  if fPost w = 1 then c.setA (fAr w) (c.areg (fAr w) + imm32 w) else c

/-- LD of `n` bytes, zero-extended. -/
def loadOp (core n : Nat) (w : BitVec 56) (x : Cluster) (c : Core) : Res :=
  checked { rd := true, ar := true, post := true, imm := true } w x <|
    getBytesIn 1 x core c (memAddr c w) n fun x c bs =>
      okCore x core ((postInc c w).setS (fRd w) (BitVec.ofNat 32 (leNat bs)))

/-- ST of the low `n` bytes of RD. -/
def storeOp (core n : Nat) (w : BitVec 56) (x : Cluster) (c : Core) : Res :=
  checked { rd := true, ar := true, post := true, imm := true } w x <|
    putBytesIn 1 x core c (memAddr c w) (leBytes n (c.sreg (fRd w)).toNat) fun x c =>
      okCore x core (postInc c w)

/-- A load's result is usable 3 cycles after issue from local memory, 14 from the cluster store (R100, R141). -/
def loadUse (core n : Nat) (w : BitVec 56) (x : Cluster) (c : Core) : Use where
  needs := [.a (fAr w), .mem (memAddr c w) n]
  leaves := [⟨.s (fRd w), match x.place core (memAddr c w) n with | .store _ => 14 | _ => 3⟩]

/-- A store waits for its operands and for instructions that still read its bytes. -/
def storeUse (n : Nat) (w : BitVec 56) (_ : Cluster) (c : Core) : Use where
  needs := [.s (fRd w), .a (fAr w), .src (memAddr c w) n]

/-- LD.B (R647). -/
def execLdB (cl core : Nat) (w : BitVec 56) (s : State) : Out := s.run fun s => coreInstr Instr.ldB cl core w s 1 (loadOp core 1 w) (loadUse core 1 w)
/-- LD.H (R647). -/
def execLdH (cl core : Nat) (w : BitVec 56) (s : State) : Out := s.run fun s => coreInstr Instr.ldH cl core w s 1 (loadOp core 2 w) (loadUse core 2 w)
/-- LD.W (R647). -/
def execLdW (cl core : Nat) (w : BitVec 56) (s : State) : Out := s.run fun s => coreInstr Instr.ldW cl core w s 1 (loadOp core 4 w) (loadUse core 4 w)
/-- ST.B (R647). -/
def execStB (cl core : Nat) (w : BitVec 56) (s : State) : Out := s.run fun s => coreInstr Instr.stB cl core w s 1 (storeOp core 1 w) (storeUse 1 w)
/-- ST.H (R647). -/
def execStH (cl core : Nat) (w : BitVec 56) (s : State) : Out := s.run fun s => coreInstr Instr.stH cl core w s 1 (storeOp core 2 w) (storeUse 2 w)
/-- ST.W (R647). -/
def execStW (cl core : Nat) (w : BitVec 56) (s : State) : Out := s.run fun s => coreInstr Instr.stW cl core w s 1 (storeOp core 4 w) (storeUse 4 w)

/-! ### Address -/

/-- AADD (R647): AR ← AR + b. -/
def execAadd (cl core : Nat) (w : BitVec 56) (s : State) : Out := s.run fun s =>
  coreInstr Instr.aadd cl core w s 1 (fun x c =>
    checked { ar := true, b := true } w x (okCore x core (c.setA (fAr w) (c.areg (fAr w) + opB c w))))
    (regUse (.a (fAr w) :: useB w))

/-- AMOV.SA (R647): AR ← RS1. -/
def execAmovSa (cl core : Nat) (w : BitVec 56) (s : State) : Out := s.run fun s =>
  coreInstr Instr.amovSa cl core w s 1 (fun x c =>
    checked { ar := true, rs1 := true } w x (okCore x core (c.setA (fAr w) (c.sreg (fRs1 w)))))
    (regUse [.s (fRs1 w)])

/-- AMOV.AS (R647): RD ← AR. -/
def execAmovAs (cl core : Nat) (w : BitVec 56) (s : State) : Out := s.run fun s =>
  coreInstr Instr.amovAs cl core w s 1 (fun x c =>
    checked { ar := true, rd := true } w x (okCore x core (c.setS (fRd w) (c.areg (fAr w)))))
    (regUse [.a (fAr w)])

/-- ALI (R647): AR ← IMM. -/
def execAli (cl core : Nat) (w : BitVec 56) (s : State) : Out := s.run fun s =>
  coreInstr Instr.ali cl core w s 1 fun x c =>
    checked { ar := true, imm := true } w x (okCore x core (c.setA (fAr w) (imm32 w)))

/-! ### Control -/

/-- A displacement of J and the branches is a multiple of 8 (R647). -/
def dispOk (w : BitVec 56) : Bool := ibits w 0 3 = 0

/-- J (R647): PC ← PC + IMM. -/
def execJ (cl core : Nat) (w : BitVec 56) (s : State) : Out := s.run fun s =>
  coreInstr Instr.j cl core w s 1 fun x c =>
    if reservedOk { imm := true } w && dispOk w then okCore x core c (.jump (c.pc.toNat + immS w))
    else .stopAt x .illegal

/-- JR (R647): PC ← RS1 + IMM modulo 2^32; a sum that is no multiple of 8 is OPND_RANGE. -/
def execJr (cl core : Nat) (w : BitVec 56) (s : State) : Out := s.run fun s =>
  coreInstr Instr.jr cl core w s 2 (fun x c =>
    checked { rs1 := true, imm := true } w x <|
      let t := c.sreg (fRs1 w) + imm32 w
      if t.toNat % 8 = 0 then okCore x core c (.jump t.toNat) else .stopAt x .opndRange)
    (regUse [.s (fRs1 w)])

/-- A branch: PC ← PC + IMM when the condition holds. -/
def branchOp (core : Nat) (w : BitVec 56) (f : W32 → W32 → Bool) (x : Cluster) (c : Core) : Res :=
  if reservedOk { rs1 := true, rs2 := true, imm := true } w && dispOk w then
    if f (c.sreg (fRs1 w)) (c.sreg (fRs2 w)) then okCore x core (c.workCycles 1) (.jump (c.pc.toNat + immS w))
    else okCore x core c
  else .stopAt x .illegal

/-- BEQ (R647). -/
def execBeq (cl core : Nat) (w : BitVec 56) (s : State) : Out := s.run fun s =>
  coreInstr Instr.beq cl core w s 1 (branchOp core w fun a b => a = b) (regUse [.s (fRs1 w), .s (fRs2 w)])
/-- BNE (R647). -/
def execBne (cl core : Nat) (w : BitVec 56) (s : State) : Out := s.run fun s =>
  coreInstr Instr.bne cl core w s 1 (branchOp core w fun a b => a ≠ b) (regUse [.s (fRs1 w), .s (fRs2 w)])
/-- BLT (R647): signed. -/
def execBlt (cl core : Nat) (w : BitVec 56) (s : State) : Out := s.run fun s =>
  coreInstr Instr.blt cl core w s 1 (branchOp core w fun a b => BitVec.slt a b) (regUse [.s (fRs1 w), .s (fRs2 w)])
/-- BGE (R647): signed. -/
def execBge (cl core : Nat) (w : BitVec 56) (s : State) : Out := s.run fun s =>
  coreInstr Instr.bge cl core w s 1 (branchOp core w fun a b => !BitVec.slt a b) (regUse [.s (fRs1 w), .s (fRs2 w)])

/-- LOOP (R99): the body PC + 8 to PC + IMM, RS1 times; a third level is ILLEGAL. One issue cycle, for which
R100 has no row (DESIGN CHOICE, log entry 52). -/
def execLoop (cl core : Nat) (w : BitVec 56) (s : State) : Out := s.run fun s =>
  coreInstr Instr.loop cl core w s 1 (fun x c =>
    if !(reservedOk { rs1 := true, imm := true } w && dispOk w && 8 ≤ immS w) then .stopAt x .illegal
    else if c.loops.length ≥ 2 then .stopAt x .illegal
    else
      let last := c.pc.toNat + (immS w).toNat
      let n := (c.sreg (fRs1 w)).toNat
      if n = 0 then okCore x core c (.after last)
      else okCore x core { c with loops := ⟨c.pc.toNat + 8, last, n - 1⟩ :: c.loops } (.jump (c.pc.toNat + 8)))
    (regUse [.s (fRs1 w)])

/-- STOP (R125): the core stops with DONE, PC on the next instruction, once its earlier instructions
have completed. One issue cycle, for which R100 has no row (DESIGN CHOICE, log entry 52). -/
def execStop (cl core : Nat) (w : BitVec 56) (s : State) : Out := s.run fun s =>
  coreInstr Instr.stop cl core w s 1 fun x c =>
    checked {} w x <|
      match c.blockedOn with
      | some q => .hold q
      | none => okCore x core (c.workCycles c.occ) .stop

end Sys2Proof.Machine
end

