-- ==== Sys2Proof/Machine/Tensor.lean ====
section
/-! DEFINITION. Core instructions of classes 0x5 to 0x7: the tensor multiplier, accumulators,
conversions (R67 to R75, R101 to R112, R648), and the end of their occupancy. -/

namespace Sys2Proof.Machine

open Sys2Proof

/-! ### Operand pairs (R67, R68) -/

def isFp4 (f : Nat) : Bool := f = 0x6 || f = 0xC
def isFp86 (f : Nat) : Bool :=
  f = 0x2 || f = 0x3 || f = 0x4 || f = 0x5 || f = 0x8 || f = 0x9 || f = 0xA || f = 0xB || f = 0xD

/-- MACs per cycle of an accepted pair. -/
def pairRate (a b : Nat) : Option Nat :=
  if a = 0xE && isFp4 b then some 128
  else if a = 0xE && isFp86 b then some 32
  else if isFp4 a && isFp4 b then some 64
  else if (isFp4 a || isFp86 a) && isFp86 b then some 32
  else if isFp86 a && isFp4 b then some 32
  else if a = 0x7 && b = 0x7 then some 32
  else if a = 0x1 && b = 0x1 then some 8
  else if a = 0x0 && b = 0x0 then some 2
  else none

/-- Elements of a block along K (R104). -/
def pairG (a : Nat) : Nat := if a = 0x0 then 1 else 32

/-- Bytes of a stored block (R104). -/
def pairBlock (f : Nat) : Nat :=
  if f = 0x0 then 4 else if isBlock f then blockBytes f else 4 * elemWidth f

/-- The values of one stored block, and whether a Shingle-2 group is malformed. -/
def pairValues (f : Nat) (bs : List Byte) : List XNum × Bool :=
  if f = 0x0 then ([fp32F.decode (leNat bs)], false)
  else if isBlock f then blockValues f bs
  else
    let x := leNat bs
    ((List.range 32).map fun i => elemDecode f (elemAt (elemWidth f) x i), false)

/-! ### Accumulation (R69 to R74) -/

/-- The exact value of a block: the products summed exactly; zero is +0 (R70, R71, R73). -/
def blockSum (a b : List XNum) : XNum × Bool :=
  let ps := List.zipWith XNum.mul a b
  let inv := ps.any (·.2)
  let pos := ps.any fun p => p.1 = .inf false
  let neg := ps.any fun p => p.1 = .inf true
  if ps.any fun p => p.1.isNan then (.nan, inv || (pos && neg))
  else if pos && neg then (.nan, true)
  else if pos then (.inf false, inv)
  else if neg then (.inf true, inv)
  else
    let v := ps.foldl (fun acc p => (XNum.add acc p.1).1) XNum.zero
    (if v.isZero then XNum.zero else v, inv)

/-- A block value added to an FP32 entry with one rounding (R71, R73). -/
def accAdd (e : W32) (v : XNum) : W32 × Status :=
  let (x, inv) := XNum.add (fpDecode e) v
  let (r, o) := fpRound x
  (r, { invalid := inv, accOverflow := o })

/-- An INT8 block added to an INT32 entry modulo 2^32 (R74). -/
def accAddInt (e : W32) (v : Int) : W32 × Status :=
  let t := e.toInt + v
  (BitVec.ofInt 32 t, { intWrap := decide (t < -2147483648 ∨ t > 2147483647) })

/-- One step of an entry: the block of A and the block of B of one kb, of which the first `n` elements of B
count and the others are zero (R69, R108). -/
def accStep (fa fb : Nat) (n : Nat) (e : W32) (a b : List Byte) : W32 × Status :=
  if fa = 0x7 then
    let f (bs : List Byte) (i : Nat) : Int := signedOf 8 (elemAt 8 (leNat bs) i)
    accAddInt e ((List.range 32).foldl (fun acc i => acc + f a i * (if i < n then f b i else 0)) 0)
  else
    let (va, bad) := pairValues fa a
    let vb := (pairValues fb b).1
    let vb := vb.take n ++ (vb.drop n).map fun _ => XNum.zero
    if fa = 0x0 then
      let (p, i1) := XNum.mul (va.getD 0 .nan) (vb.getD 0 .nan)
      let (r, st) := accAdd e p
      (r, st.or { invalid := i1 })
    else
      let (v, inv) := blockSum va vb
      let (r, st) := accAdd e v
      (r, st.or { invalid := inv, shingleMalformed := bad })

/-- A slice of bytes. -/
def slice (bs : List Byte) (off n : Nat) : List Byte := (bs.drop off).take n

/-- Entry (m, n) of the block of dot products: the blocks enter in ascending kb (R72). `bk` is K where B comes
from a queue: its elements beyond K are zero, where those of a stored B are read as they lie (R108). -/
def dotEntry (fa fb kb ncols m n : Nat) (bk : Option Nat) (a b : List Byte) (e : W32) : W32 × Status :=
  let sa := pairBlock fa
  let sb := pairBlock fb
  (List.range kb).foldl (fun (p : W32 × Status) k =>
    let live := match bk with | some k' => k' - pairG fa * k | none => pairG fa
    let (r, st) := accStep fa fb live p.1 (slice a ((m * kb + k) * sa) sa) (slice b ((k * ncols + n) * sb) sb)
    (r, p.2.or st)) (e, {})

/-! ### TMUL (R101 to R108) -/

structure TFields where
  fa : Nat
  fb : Nat
  areg : Nat
  bsrc : Nat
  bidx : Nat
  m : Nat
  n : Nat
  kreg : Nat
  base : Nat
  deriving DecidableEq, Repr

def tFields (w : BitVec 56) : TFields where
  fa := ibits w 52 4
  fb := ibits w 48 4
  areg := ibits w 45 3
  bsrc := ibits w 44 1
  bidx := ibits w 41 3
  m := ibits w 35 6 + 1
  n := ibits w 29 6 + 1
  kreg := ibits w 24 5
  base := ibits w 13 11

def ceilDiv (a b : Nat) : Nat := (a + b - 1) / b

/-- Blocks along K. -/
def TFields.kb (f : TFields) (k : Nat) : Nat := ceilDiv k (pairG f.fa)

/-- Occupancy T (R105). -/
def TFields.occ (f : TFields) (k : Nat) : Nat :=
  ceilDiv (f.m * f.n * f.kb k * pairG f.fa) ((pairRate f.fa f.fb).getD 1)

/-- The entries written by a tensor instruction whose operands are at hand. -/
def Core.tmulRun (c : Core) (f : TFields) (zero : Bool) (k : Nat) (bk : Option Nat) (a b : List Byte) : Core :=
  let kb := f.kb k
  let rs := (List.range (f.m * f.n)).map fun i =>
    dotEntry f.fa f.fb kb f.n (i / f.n) (i % f.n) bk a b (if zero then 0#32 else c.accAt (f.base + i))
  let c := c.accWrite f.base (rs.map (·.1))
  -- SHINGLE_MALFORMED is set when any group of A that is used is malformed
  c.status (rs.foldl (fun st r => st.or r.2) {})

/-- Occupancy started by an instruction of the multiplier's datapath. -/
def Core.occupy (c : Core) (n : Nat) : Core := { c with occ := n }

/-- A tensor, accumulator or conversion instruction waits for the one before it (R106, R109). -/
def Core.settle (c : Core) : Core := c.workCycles c.occ

/-- The operand formats as a key of the activity counters (R522). -/
def TFields.formats (f : TFields) : Nat := 16 * f.fa + f.fb

/-- Occupancy cycles of a multiplier on operands of these formats are counted (R522). -/
def Cluster.tensorRan (x : Cluster) (formats n : Nat) : Cluster :=
  { x with tensorCyc := SMap.upd 0 x.tensorCyc formats (· + n) }

/-- A multiplier of the cluster is occupied at `t` (R532). -/
def Cluster.busyAt (x : Cluster) (t : W) : Cluster := { x with lastBusy := some t, busyCyc := some x.cyc }

def TFields.an (f : TFields) (k : Nat) : Nat := f.m * f.kb k * pairBlock f.fa
def TFields.bn (f : TFields) (k : Nat) : Nat := f.n * f.kb k * pairBlock f.fb

/-- An operand lies in the cluster store. -/
def inStore (x : Cluster) (core a n : Nat) : Bool :=
  n ≠ 0 && (match x.place core a n with | .store _ => true | _ => false)

/-- The work cycles by which an operand read from the cluster store delays the first occupancy cycle (R141). -/
def storeLead (x : Cluster) (core a n : Nat) : Nat := if inStore x core a n then 14 else 0

/-- TMUL.ACC and TMUL.ZERO. -/
def tmulOp (core : Nat) (zero : Bool) (w : BitVec 56) (x : Cluster) (c : Core) : Res :=
  let f := tFields w
  let k := (c.sreg f.kreg).toNat
  let aa := (c.areg f.areg).toNat
  let ba := (c.areg f.bidx).toNat
  if ibits w 0 13 ≠ 0 || pairRate f.fa f.fb = none || (f.bsrc = 0 && f.bidx ≥ 4) then .stopAt x .illegal
  else if k = 0 || k > 16384 || f.base + f.m * f.n > 2048 then .stopAt x .opndRange
  else if !(x.inRange core aa (f.an k) && (f.bsrc = 0 || x.inRange core ba (f.bn k))) then .stopAt x .addrRange
  else c.afterTensor <|
    let c := c.settle
    let (c, bad) := if zero then (c, false) else c.accScan f.base (f.base + f.m * f.n)
    if bad then .stopAt (x.modCore core fun _ => c) .eccAcc
    else
      getBytes x core c aa (f.an k) fun x c a =>
        if f.bsrc = 1 then
          getBytes x core c ba (f.bn k) fun x c b =>
            let lead := max (storeLead x core aa (f.an k)) (storeLead x core ba (f.bn k))
            okCore (x.tensorRan f.formats (f.occ k)) core ((c.tmulRun f zero k none a b).occupy (f.occ k + lead))
        else
          let job : TensorJob :=
            { queue := f.bidx, word := w, zero, k, addr := aa, a, lead := storeLead x core aa (f.an k) }
          okCore x core { c with qops := c.qops ++ [.tmul job] }

/-- What a tensor instruction waits for, and when its entries become readable and its operands free: 8 cycles
after its last occupancy cycle, and after it (R90, R107). Operand A of one that takes B from a queue is free when its
job ends (`Core.srcBusy`). -/
def tmulUse (core : Nat) (zero : Bool) (w : BitVec 56) (x : Cluster) (c : Core) : Use :=
  let f := tFields w
  let k := (c.sreg f.kreg).toNat
  let aa := (c.areg f.areg).toNat
  let ba := (c.areg f.bidx).toNat
  let own := f.bsrc = 1
  let t := f.occ k + max (storeLead x core aa (f.an k)) (storeLead x core ba (f.bn k))
  { needs := [.a f.areg, .s f.kreg, .mem aa (f.an k)] ++ (if own then [.a f.bidx, .mem ba (f.bn k)] else []) ++
      (if zero then [] else [.acc f.base (f.m * f.n)])
    leaves := if own then
        [⟨.acc f.base (f.m * f.n), t + 7⟩, ⟨.src aa (f.an k), t⟩, ⟨.src ba (f.bn k), t⟩]
      else [] }

/-! ### Operand B from a queue (R105, R137, R648) -/

def TensorJob.f (j : TensorJob) : TFields := tFields j.word

/-- Blocks of the stream, items that hold it, occupancy cycles. -/
def TensorJob.blocks (j : TensorJob) : Nat := j.f.kb j.k * j.f.n
def TensorJob.items (j : TensorJob) : Nat := ceilDiv (j.f.bn j.k) 64
def TensorJob.total (j : TensorJob) : Nat := j.f.occ j.k

/-- M × G and P: block q is first used in occupancy cycle floor(q × M × G / P) (R648). -/
def TensorJob.num (j : TensorJob) : Nat := j.f.m * pairG j.f.fa
def TensorJob.den (j : TensorJob) : Nat := (pairRate j.f.fa j.f.fb).getD 1

/-- Items removed from the queue by the end of occupancy cycle `c - 1`: those whose last block has been used. -/
def TensorJob.removed (j : TensorJob) (c : Nat) : Nat :=
  let used := min j.blocks (ceilDiv (c * j.den) j.num)
  if used = j.blocks then j.items else used * pairBlock j.f.fb / 64

/-- Occupancy cycles that `r` items in all allow: the multiplier waits in the one that first uses a block not yet
whole. -/
def TensorJob.reach (j : TensorJob) (r : Nat) : Nat :=
  if r ≥ j.items then j.total else 64 * r / pairBlock j.f.fb * j.num / j.den

/-- The job `n` cycles later: the delay of its operand A passes, then the occupancy goes on while B is there, and
frees the queue entries it is done with. -/
def TensorJob.advance (j : TensorJob) (q : List Item) (n : Nat) : TensorJob × Nat :=
  let have_ := j.removed j.cyc
  let cyc := max j.cyc (min (j.cyc + (n - j.lead)) (j.reach (have_ + q.length)))
  let k := j.removed cyc - have_
  ({ j with lead := j.lead - n, cyc, got := j.got ++ (q.take k).flatMap Item.bytes }, k)

/-- Queue instructions of core `p` take the items that have arrived, each queue serving the oldest instruction on
it; a tensor instruction goes on for `n` cycles. `busy` lists queues an earlier instruction still waits on. The
number is that of the multiplier's occupied cycles. QRECV takes every item that has arrived (log entry 52). -/
def pumpOps (x : Cluster) (p : Nat) (c : Core) (busy : List Nat) (n : Nat) :
    List QOp → Cluster × Core × List QOp × Nat
  | [] => (x, c, [], 0)
  | .recv q addr need :: ops =>
    if q ∈ busy then
      let (x, c, r, u) := pumpOps x p c busy n ops
      (x, c, .recv q addr need :: r, u)
    else
      let qa := x.coreQueue p q
      let items := ((x.weave.iq qa).take need).takeWhile fun i => !i.bad
      let c := { c with
        lm := Memory.write c.lm addr (items.flatMap Item.bytes)
        lmErr := eccWipe c.lmErr (addr / 8) (addr / 8 + 8 * items.length) }
      let x := { x with weave := x.weave.take qa items.length }
      let left := need - items.length
      if left = 0 then pumpOps x p c busy n ops
      else
        let (x, c, r, u) := pumpOps x p c (q :: busy) n ops
        (x, c, .recv q (addr + 64 * items.length) left :: r, u)
  | .tmul j :: ops =>
    if j.queue ∈ busy then
      let (x, c, r, u) := pumpOps x p c busy n ops
      (x, c, .tmul j :: r, u)
    else
      let qa := x.coreQueue p j.queue
      let (j', k) := j.advance ((x.weave.iq qa).takeWhile fun i => !i.bad) n
      let x := { x with weave := x.weave.take qa k }.tensorRan j.f.formats (j'.cyc - j.cyc)
      let spent := j'.cyc - j.cyc + (j.lead - j'.lead)
      if j'.cyc = j'.total then
        let c := c.tmulRun j.f j.zero j.k (some j.k) j.a j'.got
        let c := { c with pend := c.pend ++ [⟨.acc j.f.base (j.f.m * j.f.n), 7⟩] }
        let (x, c, r, u) := pumpOps x p c busy n ops
        (x, c, r, u + spent)
      else
        let (x, c, r, u) := pumpOps x p c (j.queue :: busy) n ops
        (x, c, .tmul j' :: r, u + spent)

/-- The unfinished queue instructions of core `p` go on for `n` cycles, occupied ones of which count as work; the
core goes on if a queue held it. -/
def Cluster.pumpIn (x : Cluster) (p n : Nat) (t : W) : Cluster :=
  let c := x.core p
  let (x, c, r, u) := pumpOps x p c [] n c.qops
  let x := if u > 0 then x.busyAt t else x
  x.modCore p fun _ => { c with
    qops := r
    work := c.work + BitVec.ofNat 64 u
    acted := c.acted || decide (u > 0)
    wait := match c.wait with | .queue _ => .none | y => y }

/-- The pump runs for a core that is running and not held, and takes no item whose entry has an uncorrectable error
(R165). -/
def Chip.pumpBy (s : Chip) (cl p n : Nat) : Chip :=
  if (s.core cl p).run = .running ∧ s.coreHeld cl = false then
    let s := s.modCl cl fun x => x.pumpIn p n s.now
    match (s.core cl p).blockedOn with
    | some q => s.queueEcc cl p q
    | none => s
  else s

/-- Items that have arrived reach the queue instructions of core `p`. While a core is STOPPED or held, an
unfinished QRECV or tensor instruction stays as it is until the core runs again (log entry 52). -/
def Chip.pumpCore (s : Chip) (cl p : Nat) : Chip := s.pumpBy cl p 0

/-! ### Rises (R532, R533) -/

/-- No multiplier of the cluster has been occupied for 1,024 cycles of its clock, stretched as it was (R532, R534). -/
def Chip.quiet (s : Chip) (cl : Nat) : Bool :=
  let x := s.cl cl
  ((List.range 136).all fun p => (x.core p).occ = 0 && (x.core p).tensorBusy.isNone) &&
    (match x.busyCyc with
     | none => true
     | some n => decide (n + 1024 ≤ x.cyc))

/-- A tensor instruction whose start is a rise in a bay that is not armed is held (R533). -/
def riseGate (cl : Nat) (s : Chip) : Bool := s.quiet cl && !(s.bay (clBay cl)).armed

/-- The hold: arming starts, a HINTMISS window opens, PW_RISE_HOLDS counts. -/
def riseHeld (cl core : Nat) (s : Chip) : Chip :=
  let s := s.modCore cl core fun c => { c with wait := .rise }
  let s := s.modBay (clBay cl) fun b => b.arm s.now
  let s := s.openWindow (s.clTint cl) .hintmiss
  s.count .power Off.PW_RISE_HOLDS 1

/-- A tensor instruction: held on a rise, otherwise issued and pumped. -/
def tensorInstr (op : Nat → Nat → BitVec 56 → Instr) (cl core : Nat) (w : BitVec 56) (s : Chip) (f : Cluster → Core → Res) (u : Cluster → Core → Use) : Eff :=
  onUnit (cl < 4032 && core < 136)
    (let g : Cluster → Core → Res := fun x c =>
      match f x c with
      | .ok x n => .ok (x.busyAt s.now) n
      | r => r
     (s.issueG (op cl core w) cl core 1 (riseGate cl) (riseHeld cl core) g u).pumpCore cl core)

/-- TMUL.ACC (R101): from the value in each entry. -/
def execTmulAcc (cl core : Nat) (w : BitVec 56) (s : State) : Out := s.run fun s =>
  tensorInstr Instr.tmulAcc cl core w s (tmulOp core false w) (tmulUse core false w)

/-- TMUL.ZERO (R101): from +0, or 0 for the INT8 pair. -/
def execTmulZero (cl core : Nat) (w : BitVec 56) (s : State) : Out := s.run fun s =>
  tensorInstr Instr.tmulZero cl core w s (tmulOp core true w) (tmulUse core true w)

/-- Cycles the tensor instruction in progress on a queue still needs, if all of its operand B is there. -/
def Cluster.jobLeft (x : Cluster) (p : Nat) : Nat :=
  ((x.core p).qops.findSome? fun o => match o with
    | .tmul j =>
      if j.removed j.cyc + (x.weave.iq (x.coreQueue p j.queue)).length ≥ j.items then some (j.lead + j.total - j.cyc) else none
    | _ => none).getD 0

/-- TENSOR_INSTRUCTION_END (R105, R107, R124): the occupancy ends and counts as work. -/
def execTensorInstructionEnd (cl core : Nat) (s : State) : Out := s.run fun s =>
  onUnit (cl < 4032 && core < 136)
    (let c := s.core cl core
     if c.run ≠ .running || s.coreHeld cl || !s.bayRuns (clBay cl) then s
     else if c.occ > 0 then s.modCl cl fun x => (x.modCore core Core.settle).busyAt s.now
     else s.pumpBy cl core ((s.cl cl).jobLeft core))

/-! ### Accumulator instructions (R109, R112) -/

def aBase (w : BitVec 56) : Nat := ibits w 45 11
def aCount (c : Core) (w : BitVec 56) : Nat := (c.sreg (ibits w 40 5)).toNat
def aAreg (w : BitVec 56) : Nat := ibits w 37 3

/-- Reserved bits of class 0x6: [29:0], and the fields an operation does not use. -/
def accReserved (w : BitVec 56) (areg queue cvt : Bool) : Bool :=
  ibits w 0 30 = 0 && (areg || aAreg w = 0) && (queue || ibits w 36 1 = 0) && (cvt || ibits w 30 6 = 0)

/-- The count and the base lie within the file. -/
def accRange (c : Core) (w : BitVec 56) : Bool := aCount c w ≤ 2048 && aBase w + aCount c w ≤ 2048

/-- Registers a class 0x6 instruction reads. -/
def accNeeds (w : BitVec 56) : List Lock := [.s (ibits w 40 5)]

/-- ACC.CLR: +0 in n entries. -/
def execAccClr (cl core : Nat) (w : BitVec 56) (s : State) : Out := s.run fun s =>
  coreInstr Instr.accClr cl core w s 1 (fun x c =>
    if !accReserved w false false false then .stopAt x .illegal
    else if !accRange c w then .stopAt x .opndRange
    else c.afterTensor <|
      let n := aCount c w
      okCore x core ((c.settle.accWrite (aBase w) (List.replicate n 0#32)).occupy (ceilDiv n 32)))
    fun _ c =>
      let n := aCount c w
      { needs := accNeeds w, leaves := [⟨.acc (aBase w) n, ceilDiv n 32⟩] }

/-- ACC.LD: n words from the core address in AREG. -/
def execAccLd (cl core : Nat) (w : BitVec 56) (s : State) : Out := s.run fun s =>
  coreInstr Instr.accLd cl core w s 1 (fun x c =>
    let a := (c.areg (aAreg w)).toNat
    let n := aCount c w
    if !accReserved w true false false then .stopAt x .illegal
    else if !accRange c w || a % 4 ≠ 0 then .stopAt x .opndRange
    else if !x.inRange core a (4 * n) then .stopAt x .addrRange
    else c.afterTensor <|
      getBytes x core c.settle a (4 * n) fun x c bs =>
        let vs := (List.range n).map fun i => BitVec.ofNat 32 (leNat (slice bs (4 * i) 4))
        okCore x core ((c.accWrite (aBase w) vs).occupy (ceilDiv n 16 + storeLead x core a (4 * n))))
    fun x c =>
      let n := aCount c w
      let a := (c.areg (aAreg w)).toNat
      let t := ceilDiv n 16 + storeLead x core a (4 * n)
      { needs := .a (aAreg w) :: .mem a (4 * n) :: accNeeds w
        leaves := [⟨.acc (aBase w) n, t⟩, ⟨.src a (4 * n), t⟩] }

/-- n entries as little-endian words. -/
def Core.accBytes (c : Core) (base n : Nat) : List Byte :=
  (List.range n).flatMap fun i => leBytes 4 (c.accAt (base + i)).toNat

/-- ACC.ST: n entries to the core address in AREG. -/
def execAccSt (cl core : Nat) (w : BitVec 56) (s : State) : Out := s.run fun s =>
  coreInstr Instr.accSt cl core w s 1 (fun x c =>
    let a := (c.areg (aAreg w)).toNat
    let n := aCount c w
    if !accReserved w true false false then .stopAt x .illegal
    else if !accRange c w || a % 4 ≠ 0 then .stopAt x .opndRange
    else if !x.inRange core a (4 * n) then .stopAt x .addrRange
    else c.afterTensor <|
      match c.settle.accScan (aBase w) (aBase w + n) with
      | (c, true) => .stopAt (x.modCore core fun _ => c) .eccAcc
      | (c, false) =>
        putBytes x core c a (c.accBytes (aBase w) n) fun x c =>
          okCore x core (c.occupy (ceilDiv n 16)))
    fun _ c =>
      let n := aCount c w
      let a := (c.areg (aAreg w)).toNat
      { needs := .a (aAreg w) :: .acc (aBase w) n :: .src a (4 * n) :: accNeeds w
        leaves := [⟨.mem a (4 * n), ceilDiv n 16⟩] }

/-- ACC.SEND (R138): ceil(n / 16) items on an output queue, no LAST. -/
def execAccSend (cl core : Nat) (w : BitVec 56) (s : State) : Out := s.run fun s =>
  coreInstr Instr.accSend cl core w s 1 (fun x c =>
    let n := aCount c w
    if !accReserved w false true false then .stopAt x .illegal
    else if !accRange c w then .stopAt x .opndRange
    else c.afterTensor <|
      match c.settle.accScan (aBase w) (aBase w + n) with
      | (c, true) => .stopAt (x.modCore core fun _ => c) .eccAcc
      | (c, false) =>
        let x := x.modCore core fun _ => c.occupy (ceilDiv n 16)
        .ok (x.coreSend core (ibits w 36 1) (itemsOf (c.accBytes (aBase w) n))) .seq)
    fun _ c =>
      { needs := .acc (aBase w) (aCount c w) :: accNeeds w }

/-! ### Conversions (R110, R111) -/

/-- A destination that may be rounded stochastically (R61). -/
def stochOk (f : Nat) : Bool :=
  f = 0x2 || f = 0x3 || f = 0x4 || f = 0x5 || f = 0x6 || f = 0x8 || f = 0x9 || f = 0xA || f = 0xB || f = 0xC

/-- n must be a multiple of this for a format (R110). -/
def countUnit (f : Nat) : Nat :=
  if isBlock f then 32 else if f = 0x4 || f = 0x5 then 4 else if f = 0x6 then 2 else 1

def countOk (f g n : Nat) : Bool := n % countUnit f = 0 && n % countUnit g = 0

/-- Bytes of n elements of a format. -/
def runBytes (f n : Nat) : Nat :=
  if isBlock f then n / 32 * blockBytes f else (n * elemWidth f + 7) / 8

/-- The values of n stored elements, and whether a group is malformed. -/
def runValues (f n : Nat) (bs : List Byte) : List XNum × Bool :=
  if isBlock f then
    (List.range (n / 32)).foldl (fun (acc : List XNum × Bool) i =>
      let (v, b) := blockValues f (slice bs (i * blockBytes f) (blockBytes f))
      (acc.1 ++ v, acc.2 || b)) ([], false)
  else
    let x := leNat bs
    ((List.range n).map fun i => elemDecode f (elemAt (elemWidth f) x i), false)

/-- n values converted to a format, as bytes. -/
def runEncode (f : Nat) (sat stoch : Bool) (rs : List Nat) (xs : List XNum) : List Byte × Status :=
  let n := xs.length
  if isBlock f then
    (List.range (n / 32)).foldl (fun (acc : List Byte × Status) i =>
      let (b, st) := blockEncode f stoch (rs.drop (32 * i)) ((xs.drop (32 * i)).take 32)
      (acc.1 ++ b, acc.2.or st)) ([], {})
  else
    let out := (List.range n).map fun i =>
      elemEncode f sat (withRandom rs stoch i) (xs.getD i XNum.zero)
    (natBytes (runBytes f n) (packElems (elemWidth f) (out.map (·.1))),
      out.foldl (fun st p => st.or p.2) {})

/-- Occupancy cycles of a conversion of n elements (R111). -/
def cvtOcc (df n : Nat) : Nat := if isBlock df then 2 * (n / 32) else ceilDiv n 32

/-- The values converted and stored; the generator advances by ceil(n / 4) draws (R64). A conversion that stops in
its store leaves the generator and the status as they were (R125). The values are exact, as R57 has them: an MX or
Shingle-2 source value beyond FP32's range, which its widening to FP32 would not hold, and an INT32 source of an MX
or Shingle-2 destination are not rounded to FP32 on the way (log entry 51). -/
def convertStore (core : Nat) (x : Cluster) (c : Core) (df dst : Nat) (stoch : Bool) (xs : List XNum)
    (bad : Bool) (lead : Nat) : Res :=
  let n := xs.length
  let draws := if stoch then ceilDiv n 4 else 0
  let rs := srValues c.srSeed (x.coreId core) c.srCtr draws
  let (bs, st) := runEncode df c.satFp8 stoch rs xs
  putBytes x core c dst bs fun x c =>
    let c := { c with srCtr := c.srCtr + BitVec.ofNat 64 draws }
    okCore x core ((c.status (st.or { shingleMalformed := bad })).occupy (cvtOcc df n + lead))

/-- CVT.ACC (R110): n entries, FP32 or INT32, to a format at the core address in AREG. -/
def execCvtAcc (cl core : Nat) (w : BitVec 56) (s : State) : Out := s.run fun s =>
  coreInstr Instr.cvtAcc cl core w s 1 (fun x c =>
    let a := (c.areg (aAreg w)).toNat
    let n := aCount c w
    let df := ibits w 32 4
    let stoch := ibits w 30 1 = 1
    let int := ibits w 31 1 = 1
    if !accReserved w true false true || (stoch && !stochOk df) then .stopAt x .illegal
    else if !accRange c w || a % 4 ≠ 0 || n % countUnit df ≠ 0 then .stopAt x .opndRange
    else if !x.inRange core a (runBytes df n) then .stopAt x .addrRange
    else c.afterTensor <|
      match c.settle.accScan (aBase w) (aBase w + n) with
      | (c, true) => .stopAt (x.modCore core fun _ => c) .eccAcc
      | (c, false) =>
        let xs := (List.range n).map fun i =>
          let e := c.accAt (aBase w + i)
          if int then XNum.ofInt e.toInt else fpDecode e
        convertStore core x c df a stoch xs false 0)
    fun _ c =>
      let n := aCount c w
      let df := ibits w 32 4
      let a := (c.areg (aAreg w)).toNat
      { needs := .a (aAreg w) :: .acc (aBase w) n :: .src a (runBytes df n) :: accNeeds w
        leaves := [⟨.mem a (runBytes df n), cvtOcc df n + 3⟩] }

/-- CVT.LM (R110): n elements between two core addresses. -/
def execCvtLm (cl core : Nat) (w : BitVec 56) (s : State) : Out := s.run fun s =>
  coreInstr Instr.cvtLm cl core w s 1 (fun x c =>
    let sf := ibits w 52 4
    let df := ibits w 48 4
    let src := (c.areg (ibits w 45 3)).toNat
    let dst := (c.areg (ibits w 42 3)).toNat
    let n := (c.sreg (ibits w 37 5)).toNat
    let stoch := ibits w 36 1 = 1
    if ibits w 0 36 ≠ 0 || (stoch && !stochOk df) then .stopAt x .illegal
    else if !countOk sf df n then .stopAt x .opndRange
    else if !(x.inRange core src (runBytes sf n) && x.inRange core dst (runBytes df n)) then
      .stopAt x .addrRange
    else c.afterTensor <|
      getBytes x core c.settle src (runBytes sf n) fun x c bs =>
        let (xs, bad) := runValues sf n bs
        convertStore core x c df dst stoch xs bad (storeLead x core src (runBytes sf n)))
    fun x c =>
      let sf := ibits w 52 4
      let df := ibits w 48 4
      let src := (c.areg (ibits w 45 3)).toNat
      let dst := (c.areg (ibits w 42 3)).toNat
      let n := (c.sreg (ibits w 37 5)).toNat
      let t := cvtOcc df n + storeLead x core src (runBytes sf n)
      { needs := [.a (ibits w 45 3), .a (ibits w 42 3), .s (ibits w 37 5), .mem src (runBytes sf n), .src dst (runBytes df n)]
        leaves := [⟨.mem dst (runBytes df n), t + 3⟩, ⟨.src src (runBytes sf n), t⟩] }

end Sys2Proof.Machine
end

