-- ==== Sys2Proof/Machine/QueueFlag.lean ====
section
/-! DEFINITION. Core instructions of classes 0x8 to 0xB: weave queues (R134 to R136), native flags
(R118 to R120), virtual flags (R121, R122), system (R112, R123), and the end of a flag wait. -/

namespace Sys2Proof.Machine

open Sys2Proof

/-! ### Weave queues (R134, R135) -/

def qReg (w : BitVec 56) : Nat := ibits w 51 5
def qCount (c : Core) (w : BitVec 56) : Nat := (c.sreg (ibits w 46 5)).toNat
/-- Bits [2:0] of the address are taken as 0. -/
def qAddr (c : Core) (w : BitVec 56) : Nat := (c.areg (ibits w 43 3)).toNat / 8 * 8
def qNum (w : BitVec 56) : Nat := ibits w 41 2
def qLast (w : BitVec 56) : Bool := ibits w 40 1 = 1

/-- Fields an operation does not use are 0. -/
def queueReserved (w : BitVec 56) (reg creg areg last : Bool) : Bool :=
  ibits w 0 40 = 0 && (reg || qReg w = 0) && (creg || ibits w 46 5 = 0) && (areg || ibits w 43 3 = 0) &&
    (last || ibits w 40 1 = 0)

/-- n × 64 bytes of local memory, which class 0x8 uses alone. -/
def localOk (a n : Nat) : Bool := n = 0 || a + 64 * n ≤ 0xC000

/-- QRECV: n items from an input queue to consecutive bytes of local memory. R100 has no row for the weave-queue
instructions: each takes one issue cycle (DESIGN CHOICE, log entry 52). -/
def execQrecv (cl core : Nat) (w : BitVec 56) (s : State) : Out := s.run fun s =>
  onUnit (cl < 4032 && core < 136)
    ((s.issue (.qrecv cl core w) cl core 1 (fun x c =>
      let n := qCount c w
      let a := qAddr c w
      if !queueReserved w false true true false then .stopAt x .illegal
      else if !localOk a n then .stopAt x .addrRange
      else if n = 0 then okCore x core c
      else match (c.lmBusy a (64 * n)).orElse fun _ => c.srcBusy a (64 * n) with
        | some q => .hold q
        | none => okCore x core { c with qops := c.qops ++ [.recv (qNum w) a n] })
      fun _ c => { needs := [.s (ibits w 46 5), .a (ibits w 43 3), .src (qAddr c w) (64 * qCount c w)] }).pumpCore cl core)

/-- The items of a send, the last marked when LAST = 1. -/
def markLast (last : Bool) (l : List Item) : List Item :=
  match l.reverse with
  | [] => []
  | i :: r => (({ i with last := last } : Item) :: r).reverse

/-- QSEND: n × 64 bytes of local memory to an output queue as n items. -/
def execQsend (cl core : Nat) (w : BitVec 56) (s : State) : Out := s.run fun s =>
  coreInstr Instr.qsend cl core w s 1 (fun x c =>
    let n := qCount c w
    let a := qAddr c w
    if !queueReserved w false true true true || qNum w ≥ 2 then .stopAt x .illegal
    else if !localOk a n then .stopAt x .addrRange
    else
      getBytes x core c a (64 * n) fun x c bs =>
        .ok ((x.modCore core fun _ => c).coreSend core (qNum w) (markLast (qLast w) (itemsOf bs))) .seq)
    fun _ c => { needs := [.s (ibits w 46 5), .a (ibits w 43 3), .mem (qAddr c w) (64 * qCount c w)] }

/-- An earlier instruction still takes items from input queue `q`. -/
def Core.queueBusy (c : Core) (q : Nat) : Bool :=
  c.qops.any fun o => match o with
    | .recv q' _ _ => q' = q
    | .tmul j => j.queue = q

/-- QPOP.S: one item removed, its bytes [3:0] to REG. -/
def execQpopS (cl core : Nat) (w : BitVec 56) (s : State) : Out := s.run fun s =>
  coreInstr Instr.qpopS cl core w s 1 fun x c =>
    if !queueReserved w true false false false then .stopAt x .illegal
    else if c.queueBusy (qNum w) then .hold (qNum w)
    else
      let qa := x.coreQueue core (qNum w)
      match x.weave.iq qa with
      | [] => .hold (qNum w)
      | i :: _ =>
        if i.bad then .hold (qNum w)
        else okCore { x with weave := x.weave.take qa 1 } core (c.setS (qReg w) (i.data.setWidth 32))

/-- QPUSH.S: one item holding REG in bytes [3:0] and zeros elsewhere. -/
def execQpushS (cl core : Nat) (w : BitVec 56) (s : State) : Out := s.run fun s =>
  coreInstr Instr.qpushS cl core w s 1 (fun x c =>
    if !queueReserved w true false false true || qNum w ≥ 2 then .stopAt x .illegal
    else
      let i : Item := { data := (c.sreg (qReg w)).setWidth 512, last := qLast w }
      .ok ((x.modCore core fun _ => c).coreSend core (qNum w) [i]) .seq)
    (regUse [.s (qReg w)])

/-! ### Native flags -/

def fFlag (w : BitVec 56) : Nat := ibits w 0 6
def fTarget (w : BitVec 56) : Nat := ibits w 8 8

/-- Reserved bits of class 0x9 (R112). -/
def flagReserved (w : BitVec 56) (target rd : Bool) : Bool :=
  ibits w 6 2 = 0 && (target || fTarget w = 0) && ibits w 16 35 = 0 && (rd || fRd w = 0)

/-- A set handed to the flag unit by a core; a core without a logical number has no place in the
source order and comes last. -/
def coreSet (x : Cluster) (core : Nat) (t : SetTarget) : Cluster :=
  { x with sets := x.sets ++ [⟨.core ((x.logical core).getD 128), t⟩] }

/-- FSET (R118, R196): a set for a core flag, whose numbers 48 to 63 are ILLEGAL (R120), or a doorbell, for which
IMM[5:0] is ignored. -/
def execFset (cl core : Nat) (w : BitVec 56) (s : State) : Out := s.run fun s =>
  coreInstr Instr.fset cl core w s 1 fun x c =>
    let t := fTarget w
    if !flagReserved w true false || (t < 0x80 && fFlag w ≥ 48) || t > 0x8A then .stopAt x .illegal
    else if t < 0x80 then okCore (coreSet x core (.flag (64 * t + fFlag w))) core c
    else okCore (coreSet x core (.doorbell t)) core c

/-- FCLR (R116): one clear of an own flag. -/
def execFclr (cl core : Nat) (w : BitVec 56) (s : State) : Out := s.run fun s =>
  coreInstr Instr.fclr cl core w s 1 fun x c =>
    if !flagReserved w false false || fFlag w ≥ 48 then .stopAt x .illegal
    else okCore x core (c.applyClear (fFlag w))

/-- FWAIT and FWAITC (R119): with the flag set the instruction completes, FWAITC with one clear; otherwise the core
waits at it, with its issue cycles behind it and the PC on it. R100 has no row for its issue: it takes one cycle (DESIGN CHOICE, log
entry 52). -/
def waitInstr (op : Nat → Nat → BitVec 56 → Instr) (cl core : Nat) (w : BitVec 56) (cyc : Nat) (s : Chip)
    (g : Cluster → Core → Except Res Nat) (consume : Bool) : Eff :=
  let clear (s : Chip) : Option Nat :=
    match g (s.cl cl) (s.core cl core) with
    | .ok f => if ((s.core cl core).flag f).isSet then none else some f
    | .error _ => none
  onUnit (cl < 4032 && core < 136)
    (s.issueG (op cl core w) cl core cyc (fun s => (clear s).isSome)
      (fun s => s.modCore cl core fun c =>
        { c.workCycles cyc with wait := match clear s with | some f => .flag f consume | none => c.wait })
      (fun x c =>
        match g x c with
        | .error r => r
        | .ok f => okCore x core (if consume && (c.flag f).isSet then c.applyClear f else c)))

def nativeFlag (w : BitVec 56) (x : Cluster) (_ : Core) : Except Res Nat :=
  if !flagReserved w false false || fFlag w ≥ 48 then .error (.stopAt x .illegal) else .ok (fFlag w)

/-- FWAIT (R119). -/
def execFwait (cl core : Nat) (w : BitVec 56) (s : State) : Out := s.run fun s => waitInstr Instr.fwait cl core w 1 s (nativeFlag w) false

/-- FWAITC (R119): one clear once the flag is set. -/
def execFwaitc (cl core : Nat) (w : BitVec 56) (s : State) : Out := s.run fun s => waitInstr Instr.fwaitc cl core w 1 s (nativeFlag w) true

/-- FTEST (R119): bit 0 the state, bits [4:1] the count. -/
def execFtest (cl core : Nat) (w : BitVec 56) (s : State) : Out := s.run fun s =>
  coreInstr Instr.ftest cl core w s 1 fun x c =>
    if !flagReserved w false true || fFlag w ≥ 48 then .stopAt x .illegal
    else
      let g := c.flag (fFlag w)
      okCore x core (c.setS (fRd w) (BitVec.ofNat 32 (b2n g.isSet + 2 * (if g.isSet then g.count else 0))))

/-- `n` cycles in which a core issues nothing: those its multiplier is occupied in are work cycles (R124). -/
def Core.passed (c : Core) (n : Nat) : Core :=
  let ovl := min n c.occ
  { c with
    occ := c.occ - ovl
    pend := agePend c.pend n
    work := c.work + BitVec.ofNat 64 ovl
    acted := c.acted || decide (ovl > 0) }

/-- `n` cycles in which a core waits: those without work are wait cycles (R124). -/
def Core.waited (c : Core) (n : Nat) : Core :=
  { c.passed n with waitCycles := c.waitCycles + BitVec.ofNat 64 (n - min n c.occ) }

/-- FLAG_WAIT_END (R119, R124): the core's flag is set; FWAITC applies its clear, and the core goes on after the
instruction. `n` counts the wait cycles that no nanosecond of the clock has counted (log entry 33). -/
def execFlagWaitEnd (cl core n : Nat) (s : State) : Out := s.run fun s =>
  onUnit (cl < 4032 && core < 136)
    (let c := s.core cl core
     match c.wait with
     | .flag f consume =>
       if (c.flag f).isSet && decide (c.run = .running) && !s.coreHeld cl && s.bayRuns (clBay cl) then
         let s := s.modCoreF cl core fun c =>
           let c := c.waited n
           if consume then c.applyClear f else c
         let (ls, a) := loopNext c.loops c.pc.toNat
         s.goTo cl core ls a
       else s
     | _ => s)

/-! ### Virtual flags (R121, R122, R199) -/

/-- Entry of a virtual ID. -/
def Cluster.vftEntry (x : Cluster) (id : Nat) : BitVec 16 := SMap.get 0#16 x.vft id

/-- The native flag of a valid entry and its owner. -/
def Cluster.vflag (x : Cluster) (id : Nat) : Option (Nat × Nat) :=
  let e := (x.vftEntry id).toNat
  if bits e 15 1 = 1 ∧ bits e 0 6 < 48 then some (bits e 8 7, bits e 0 6) else none

/-- Reserved bits of class 0xA (R112): all but the virtual ID. -/
def vfReserved (w : BitVec 56) : Bool := ibits w 12 44 = 0

/-- The native flag that a VFCLR, VFWAIT or VFWAITC acts on: valid and owned by the core. -/
def virtualFlag (core : Nat) (w : BitVec 56) (x : Cluster) (c : Core) : Except Res Nat :=
  if !vfReserved w || !c.o2 then .error (.stopAt x .illegal)
  else match x.vflag (ibits w 0 12) with
    | some (own, f) => if x.logical core = some own then .ok f else .error (.stopAt x .vflagMiss)
    | none => .error (.stopAt x .vflagMiss)

/-- VFSET (R121): a set of the entry's native flag. -/
def execVfset (cl core : Nat) (w : BitVec 56) (s : State) : Out := s.run fun s =>
  coreInstr Instr.vfset cl core w s 3 fun x c =>
    if !vfReserved w || !c.o2 then .stopAt x .illegal
    else match x.vflag (ibits w 0 12) with
      | some (own, f) => okCore (coreSet x core (.flag (64 * own + f))) core c
      | none => .stopAt x .vflagMiss

/-- VFCLR (R121). -/
def execVfclr (cl core : Nat) (w : BitVec 56) (s : State) : Out := s.run fun s =>
  coreInstr Instr.vfclr cl core w s 3 fun x c =>
    match virtualFlag core w x c with
    | .ok f => okCore x core (c.applyClear f)
    | .error r => r

/-- VFWAIT (R121). -/
def execVfwait (cl core : Nat) (w : BitVec 56) (s : State) : Out := s.run fun s => waitInstr Instr.vfwait cl core w 3 s (virtualFlag core w) false

/-- VFWAITC (R121). -/
def execVfwaitc (cl core : Nat) (w : BitVec 56) (s : State) : Out := s.run fun s => waitInstr Instr.vfwaitc cl core w 3 s (virtualFlag core w) true

/-! ### System (R112, R123) -/

/-- NOP. -/
def execNop (cl core : Nat) (w : BitVec 56) (s : State) : Out := s.run fun s =>
  coreInstr Instr.nop cl core w s 1 fun x c => if w = 0#56 then okCore x core c else .stopAt x .illegal

/-- A cluster's timebase (R293, R295), which never decreases (R296). -/
def Chip.clTime (s : Chip) (cl : Nat) : W :=
  let x := s.cl cl
  let n := s.now + BitVec.ofInt 64 x.tbOff
  if n.toNat < x.tbFloor.toNat then x.tbFloor else n

/-- A hint enters the hint queue of 8, the oldest discarded when it is full (R123). -/
def Cluster.pushHint (x : Cluster) (h : Hint) : Cluster :=
  if x.hints.length < 8 then { x with hints := x.hints ++ [h] }
  else { x with
    hints := x.hints.drop 1 ++ [h]
    page := x.page.modReg .cluster Off.CL_HINT_DROP (wrapField 32 1) }

/-- HINT (R123): stamped with the cluster's timebase. -/
def execHint (cl core : Nat) (w : BitVec 56) (s : State) : Out := s.run fun s =>
  coreInstr Instr.hint cl core w s 1 fun x c =>
    if ibits w 16 16 ≠ 0 then .stopAt x .illegal
    else okCore (x.pushHint ⟨s.clTime cl, ibits w 32 24, ibits w 0 16⟩) core c

/-- ASCLR (R112): the masked CL_CORE_ASTAT bits are cleared. -/
def execAsclr (cl core : Nat) (w : BitVec 56) (s : State) : Out := s.run fun s =>
  coreInstr Instr.asclr cl core w s 1 fun x c =>
    if ibits w 8 48 ≠ 0 then .stopAt x .illegal
    else okCore x core { c with astat := c.astat &&& ~~~(BitVec.ofNat 64 (ibits w 0 8)) }

end Sys2Proof.Machine
end

