-- ==== Sys2Proof/Machine/Route.lean ====
section
/-! DEFINITION. What a packet meets on its way (chapter 08): ports and neighbours, the header, route
tables, strangers, windows; and the exchange of an engine's or walker's request and its answer. -/

namespace Sys2Proof.Machine

open Sys2Proof

/-! ### Ports and neighbours (R291, R314, R393, R433) -/

/-- The cluster at the other end of port `p`, when this router has that port. -/
def neighbour (cl p : Nat) : Option Nat :=
  let x := clX cl
  let y := clY cl
  match p with
  | 0 => if x + 1 < 96 then some (clAt (x + 1) y) else none
  | 1 => if 1 ≤ x then some (clAt (x - 1) y) else none
  | 2 => if y + 1 < 42 then some (clAt x (y + 1)) else none
  | 3 => if 1 ≤ y then some (clAt x (y - 1)) else none
  | 4 => if x % 8 = 0 ∧ x + 8 < 96 then some (clAt (x + 8) y) else none
  | 5 => if x % 8 = 0 ∧ 8 ≤ x then some (clAt (x - 8) y) else none
  | 6 => if y % 8 = 0 ∧ y + 8 < 42 then some (clAt x (y + 8)) else none
  | 7 => if y % 8 = 0 ∧ 8 ≤ y then some (clAt x (y - 8)) else none
  | _ => none

/-- The port at the other end of a link. -/
def oppPort (p : Nat) : Nat := if p % 2 = 0 then p + 1 else p - 1

/-- Eave port attached at a cluster. -/
def eaveAt (cl : Nat) : Option Nat :=
  let x := clX cl
  let y := clY cl
  if y = 0 ∧ 16 ≤ x ∧ x < 24 then some (x - 16)
  else if y = 0 ∧ 72 ≤ x ∧ x < 80 then some (8 + (x - 72))
  else if y = 41 ∧ 16 ≤ x ∧ x < 24 then some (16 + (x - 16))
  else if y = 41 ∧ 72 ≤ x ∧ x < 80 then some (24 + (x - 72))
  else none

/-- Attach cluster of an eave port, and the two of the host bridge. -/
def eaveCluster (p : Nat) : Nat := clAt ((if p / 8 % 2 = 0 then 16 else 72) + p % 8) (if p < 16 then 0 else 41)
def hostCluster (a : Nat) : Nat := clAt (51 + a) 0
def hostAt (cl : Nat) : Bool := cl = hostCluster 0 || cl = hostCluster 1

/-- The host bridge takes packets through attach cluster `cl`: its link there is not OUT (R433). -/
def Chip.hostOpen (s : Chip) (cl : Nat) : Bool := hostAt cl && !(cl ∈ s.link.attachOut)

/-! ### Packets (R298 to R304) -/

/-- The router of `cl` is in service (R331). -/
def Chip.inService (s : Chip) (cl : Nat) : Bool := s.bayOk (clBay cl) && !(s.cl cl).hole && !(s.cl cl).router.resetting

/-- The 128 bits of a header (R299), as a number. -/
def Packet.header (k : Packet) : Nat :=
  k.destLC % 4096 + (k.destCore % 128) <<< 12 + (k.destUnit % 32) <<< 19 + (k.srcLC % 4096) <<< 24 +
    (k.srcSub % 128) <<< 36 + (k.srcUnit % 32) <<< 43 + (k.tint % 256) <<< 48 + (k.channel % 16) <<< 56 +
    (k.epoch % 2) <<< 60 + b2n k.mcast <<< 61 + (k.esc % 4) <<< 62 + (k.mIndex % 1024) <<< 64 +
    (k.payload.length % 16384) <<< 74 + (k.seq % 65536) <<< 88 + (k.ptype % 16) <<< 104 + (k.ackCh % 16) <<< 108

/-- The packet of a header and the bytes after it (R298, R299). -/
def Packet.ofBytes (h : Nat) (rest : List Byte) : Packet :=
  { destLC := bits h 0 12, destCore := bits h 12 7, destUnit := bits h 19 5, srcLC := bits h 24 12
    srcSub := bits h 36 7, srcUnit := bits h 43 5, tint := bits h 48 8, channel := bits h 56 4
    epoch := bits h 60 1, mcast := h.testBit 61, esc := bits h 62 2, mIndex := bits h 64 10
    seq := bits h 88 16, ptype := bits h 104 4, ackCh := bits h 108 4, payload := rest.take (bits h 74 14) }

/-- 128-byte flits of a packet (R298). -/
def Packet.flits (k : Packet) : Nat := (16 + k.payload.length + 127) / 128

/-- The key of a source unit's channel (R302, R307): unit code and channel. -/
def srcKey (unit ch : Nat) : Nat := unit * 16 + ch
def Packet.srcKey (k : Packet) : Nat := Sys2Proof.Machine.srcKey k.srcUnit k.channel

/-- Index of a destination in a route table (R313). -/
def routeIx (unit lc : Nat) : Option Nat :=
  if unit ≤ 0x0D then some (lc % 4096)
  else if unit = 0x10 ∨ unit = 0x11 then (if lc < 336 then some (4096 + lc) else none)
  else if unit = 0x12 then (if lc < 32 then some (4432 + lc) else none)
  else if unit = 0x13 then some 4464
  else none

/-- The channel a packet occupies in a router of tint `t` (R304). -/
def Packet.occupies (k : Packet) (t : Nat) : Nat :=
  if k.channel = 15 then 15
  else if k.esc = 1 then 12
  else if k.esc = 2 then 13
  else if k.tint ≠ t then 10
  else k.channel

def Router.routeWord (r : Router) (e w : Nat) : W := SMap.get 0#64 r.route (2048 * e + w)
def Router.mcastWord (r : Router) (e w : Nat) : W := SMap.get 0#64 r.mcast (2048 * e + w)
def Router.routeEntry (r : Router) (e i : Nat) : Nat := fld (r.routeWord e (i / 4)) (16 * (i % 4)) 16
def Router.valid (r : Router) (e : Nat) : Bool := if e = 0 then r.valid0 else r.valid1
def Router.link (r : Router) (p : Nat) : Link := SMap.get {} r.links p

def Chip.router (s : Chip) (cl : Nat) : Router := (s.cl cl).router
def Chip.modRouter (s : Chip) (cl : Nat) (f : Router → Router) : Chip :=
  s.modCl cl fun x => { x with router := f x.router }
def Chip.modLink (s : Chip) (cl p : Nat) (f : Link → Link) : Chip :=
  s.modRouter cl fun r => { r with links := SMap.upd {} r.links p f }

/-- A packet only for the units, and of the types, that multicast carries (R319). -/
def Packet.mcastOk (k : Packet) : Bool := k.destUnit ≤ 0x08 && (k.ptype = 0 || k.ptype = 1)

/-- The output ports of a packet and its escape level after them; `none`: discarded (R315, R316, R319). -/
def Router.lookup (r : Router) (k : Packet) : Option (List Nat × Nat) :=
  if !r.valid k.epoch then none
  else if k.mcast then
    let w := r.mcastWord k.epoch k.mIndex
    if bit w 63 && k.mcastOk then some ((List.range 9).filter fun p => bit w p, k.esc) else none
  else match routeIx k.destUnit k.destLC with
    | none => none
    | some i =>
      let e := r.routeEntry k.epoch i
      if bits e 0 1 = 1 then some ([bits e 1 4], max k.esc (bits e 5 2)) else none

/-- A port that takes packets: delivery always; a link when UP. -/
def Router.portUp (r : Router) (p : Nat) : Bool := 8 ≤ p || (r.link p).state = .up
/-- A port that holds packets until calibration ends (R327). -/
def Router.portHolds (r : Router) (p : Nat) : Bool := p < 8 && (r.link p).state = .failing

/-! ### Strangers (R332 to R334) -/

/-- A stranger recorded at router `cl`. -/
def Chip.stranger (s : Chip) (cl : Nat) (k : Packet) (atDelivery : Bool) : Chip :=
  let pg := PageRef.cluster cl
  let s := s.count pg Off.CL_RT_STRANGERS 1
  let s := if bit (s.reg pg Off.CL_RT_STRANGER) 0 then s
    else s.setReg pg Off.CL_RT_STRANGER
      (BitVec.ofNat 64 (1 + 2 * b2n atDelivery + (k.tint % 256) <<< 8 + (k.srcLC % 4096) <<< 16 + (k.srcUnit % 32) <<< 28))
  s.raise pg 9

/-- A packet may enter the router from a link (R332). -/
def Chip.mayEnter (s : Chip) (cl tint : Nat) : Bool :=
  tint = s.clTint cl || tint = 0 || bit (s.router cl).corridor (tint - 1)

/-! ### Buffers and windows (R306, R307, R322) -/

/-- The port a unit is delivered by, and injects by (R314). -/
def unitPort (unit : Nat) : Nat := if unit ≤ 0x0D then 8 else if unit ≤ 0x11 then 9 else 0xA

/-- Flits in the input buffer of a port's channel (R306). -/
def Router.flitsAt (r : Router) (t port ch : Nat) : Nat :=
  (r.inbuf.filter fun i => i.port = port && i.pkt.occupies t = ch).foldl (fun n i => n + i.pkt.flits) 0

/-- Flits one input buffer holds per channel (R306). -/
def bufFlits : Nat := 8

/-- The input buffer of port `port` takes a packet of channel `ch` in: it has a hop credit for the header flit (R306). -/
def Chip.bufferRoom (s : Chip) (cl port ch : Nat) : Bool :=
  decide ((s.router cl).flitsAt (s.clTint cl) port ch < bufFlits)

/-- A packet waits in the input buffer of a port's channel. -/
def Router.waitsAt (r : Router) (t port ch : Nat) : Bool := r.inbuf.any fun i => i.port = port && i.pkt.occupies t = ch

/-- A source unit may inject on a channel: no more than W_c of its packets are unacknowledged (R307), it does not await
its flip (R322), and its port's input buffer has room (R306). -/
def Chip.mayInject (s : Chip) (cl unit ch : Nat) : Bool :=
  let r := s.router cl
  let n := (r.outstanding.filter fun o => o.unit = unit && o.channel = ch).length
  r.up && !(srcKey unit ch ∈ r.flipping) && decide (n ≤ fld (s.reg (.cluster cl) Off.CL_RT_WINDOW) (4 * ch) 4) &&
    s.bufferRoom cl (unitPort unit) ch

/-! ### Crossing a link (R325, R326) -/

/-- What becomes of flits that cross a link: flits received, wires and symbols corrected in them, and the link after
them. -/
structure Crossing where
  got : Nat
  fixed : List Nat
  symbols : Nat
  link : Link

/-- Symbols in error of a flit whose wires `ws` arrive inverted: data symbols 0 to 127, check symbols after them. -/
def symbolsOf (ws : List Nat) : Nat := ((ws.filter (· < 1088)).map (· / 8)).dedup.length

/-- Flits cross one by one: up to three symbols are corrected; with more the flit is refused, and none follows it.
R325 gives no bound above five: those are refused too (log entry 12). -/
def Link.cross (l : Link) : Nat → Crossing
  | 0 => ⟨0, [], 0, l⟩
  | n + 1 =>
    match l.noise with
    | [] => ⟨n + 1, [], 0, l⟩
    | ws :: rest =>
      if symbolsOf ws > 3 then ⟨0, [], 0, { l with noise := rest }⟩
      else
        let c := Link.cross { l with noise := rest } n
        ⟨c.got + 1, ws ++ c.fixed, symbolsOf ws + c.symbols, c.link⟩

/-- A whole packet's passage over a link: whether it passed, what was corrected, the replays it took, the link after. -/
structure Passage where
  passed : Bool
  fixed : List Nat
  symbols : Nat
  replays : Nat
  link : Link

/-- `n` flits cross, a refused flit and those after it again and again, until one has been replayed eight times in vain
(R326, R327); `row` counts the replays of the next flit, the first argument bounds the refusals. -/
def Link.pass : Nat → Link → Nat → Nat → Passage
  | 0, l, _, _ => ⟨true, [], 0, 0, l⟩
  | fuel + 1, l, n, row =>
    let c := l.cross n
    let row := if c.got = 0 then row else 0
    if c.got ≥ n then ⟨true, c.fixed, c.symbols, 0, c.link⟩
    else if row ≥ 8 then ⟨false, c.fixed, c.symbols, 0, c.link⟩
    else
      let p := Link.pass fuel c.link (n - c.got) (row + 1)
      { p with fixed := c.fixed ++ p.fixed, symbols := c.symbols + p.symbols, replays := p.replays + 1 }

/-- The receiver counts the symbols it corrected, and the wires that had flipped (R325). -/
def Chip.countFixed (s : Chip) (nb port : Nat) (ws : List Nat) (symbols : Nat) : Chip :=
  if ws.isEmpty then s
  else
    let s := s.count (.cluster nb) Off.CL_RT_CORR_SYMS symbols
    s.modRouter nb fun r => { r with
      wireErr := ws.foldl (fun m w => SMap.upd 0 m (2048 * port + w) (· + 1)) r.wireErr }

/-- Both ends of a link changed. -/
def Chip.modBoth (s : Chip) (cl p : Nat) (f : Link → Link) : Chip :=
  match neighbour cl p with
  | none => s
  | some nb => (s.modLink cl p f).modLink nb (oppPort p) f

/-! ### Carrying a packet (R306, R315, R316, R325 to R327, R332) -/

/-- Hops no route without a loop exceeds: every router once at each escape level. -/
def maxHops : Nat := 3 * 4032

/-- Where a packet waits of which nothing has happened: it is not yet injected; it is on its way; at a bay memory
controller's ingress (R238), or tracked by the controller (R243); or at a link that refused one of its flits to the
end of its replays (R327): the link's router and port, and the replays. -/
inductive Hold where
  | unsent
  | mesh
  | ingress
  | tracked
  | failing (cl p replays : Nat)
  deriving DecidableEq, Repr

/-- What a waiting packet leaves behind: a link it found FAILING is so at both ends. -/
def Chip.waiting (s : Chip) (h : Hold) : Chip :=
  match h with
  | .failing cl p n => (s.modBoth cl p fun l => { l with state := .failing }).count (.cluster cl) Off.CL_RT_REPLAYS n
  | _ => s

/-- Where a packet ends: delivered at a router's port; held on its way; discarded (R316, R332). -/
inductive Trip where
  | at (s : Chip) (cl port : Nat)
  | held (h : Hold)
  | lost (s : Chip)

/-- Flits that leave a router by a link, and those of them that count as traffic (R338, R342). -/
def Chip.countFlits (s : Chip) (cl p : Nat) (k : Packet) : Chip :=
  let s := if k.channel = 15 then s else s.count (.cluster cl) (Off.CL_RT_PFLITS p) k.flits
  s.count (.cluster cl) Off.CL_RT_FLITS k.flits

/-- The packet carried from input port `ip` of router `cl` on; `fuel` bounds its hops. Behind a packet that waits in the
same buffer it waits (R306), and behind one that a link still replays (R326). -/
def Chip.carryFrom (s : Chip) (k : Packet) : Nat → Nat → Nat → Trip
  | 0, _, _ => .lost s
  | fuel + 1, cl, ip =>
    let r := s.router cl
    let drop : Trip := .lost (s.count (.cluster cl) Off.CL_RT_DROP 1)
    if !r.up || r.waitsAt (s.clTint cl) ip (k.occupies (s.clTint cl)) then .held .mesh
    else match r.lookup k with
      | some ([p], esc) =>
        let k := { k with esc }
        if r.portHolds p then .held .mesh
        else if 8 ≤ p then .at s cl p
        else if !r.portUp p then drop
        else match neighbour cl p with
          | none => drop
          | some nb =>
            let c := Link.pass ((r.link p).noise.length + 1) (r.link p) k.flits 0
            if (r.link p).replaying.isSome then .held .mesh
            else if !c.passed then .held (.failing cl p c.replays)
            else
              let s := (s.modLink cl p fun _ => c.link).countFixed nb (oppPort p) c.fixed c.symbols
              let s := (s.countFlits cl p k).count (.cluster cl) Off.CL_RT_REPLAYS c.replays
              if s.mayEnter nb k.tint then Chip.carryFrom s k fuel nb (oppPort p) else .lost (s.stranger nb k false)
      | _ => drop

/-- The packet carried from router `cl`, where its source's port takes it in. -/
def Chip.carry (s : Chip) (k : Packet) (fuel cl : Nat) : Trip := s.carryFrom k fuel cl (unitPort k.srcUnit)

/-! ### Field controllers (R302, R303, R305, R562)

No rule names the router a field controller injects at, nor a unit code for it: its packets enter at the first router
in service of its field, which counts their SEQ under a key of its own, and an answer to them has no route entry (log
entry 56). -/

/-- The key under which a router counts a field controller's packets. -/
def fieldUnit : Nat := 31

/-- A field controller's packet completed at router `cl` (R302): its SEQ is counted. -/
def Chip.fieldStamped (s : Chip) (cl : Nat) (k : Packet) : Packet × Chip :=
  let r := s.router cl
  let key := Sys2Proof.Machine.srcKey fieldUnit k.channel
  let seq := SMap.get 0 r.seqs key
  ({ k with epoch := r.cur, seq }, s.modRouter cl fun r => { r with seqs := SMap.set 0 r.seqs key ((seq + 1) % 65536) })

/-- The clusters of a field. -/
def fieldClusters (f : Nat) : List Nat := (List.range 4).flatMap fun k => bayClusters (4 * f + k)

/-- Where field controller `f` injects. -/
def Chip.fieldRouter (s : Chip) (f : Nat) : Option Nat := (fieldClusters f).find? fun cl => (s.router cl).up

/-- Every route entry of the packet from router `cl` to its destination is valid and holds VCX = 0 (R305). -/
def Chip.plainRoute (s : Chip) (k : Packet) : Nat → Nat → Bool
  | 0, _ => false
  | fuel + 1, cl =>
    let r := s.router cl
    match routeIx k.destUnit k.destLC with
    | none => false
    | some i =>
      let e := r.routeEntry k.epoch i
      let p := bits e 1 4
      r.valid k.epoch && bits e 0 1 = 1 && bits e 5 2 = 0 &&
        (if 8 ≤ p then p = unitPort k.destUnit
         else r.portUp p && (match neighbour cl p with | some nb => Chip.plainRoute s k fuel nb | none => false))

/-- Background work of field controller `f` for a unit at cluster or bay `lc` of its own field: one header on channel 15,
tint 0, when the destination qualifies; else the work goes by the ridge tree, which carries no packet (R305). -/
def Chip.background (s : Chip) (f unit lc : Nat) : Chip :=
  match s.fieldRouter f with
  | none => s
  | some cl =>
    let (k, s1) := s.fieldStamped cl { destLC := lc, destUnit := unit, channel := 15 }
    if !s.plainRoute k maxHops cl then s
    else match s1.carry k maxHops cl with
      | .at s _ _ => s
      | .held h => s.waiting h
      | .lost s => s

/-! ### Engines and walkers (R237, R264, R302, R303, R307 to R309)

A request of an engine or walker and its answer are carried whole within the command that needs them: hop
by hop through the tables, links and tints of now (log entry 54). -/

/-- What the answer of a unit at its target is. `busy`: nothing of it has happened, and the request waits. `lost`: the
request or its answer was discarded on the way. -/
inductive StackRes where
  | ok (s : Chip) (bs : List Byte)
  | refused (s : Chip)
  | uncorr (s : Chip)
  | busy (h : Hold)
  | lost (s : Chip)

/-- The tint a delivery point takes (R333); microcode alone is taken as tint 0 whatever the cluster's. -/
def Chip.tintHere (s : Chip) (cl unit : Nat) : Nat := if unit = 0x08 then 0 else s.clTint cl

/-- A response or acknowledgement of a packet, sent on channel 9 from the router it was delivered at
(R301, R302, R307, R651). -/
def Chip.answerTo (s : Chip) (cl : Nat) (k : Packet) (ptype : Nat) (payload : List Byte := []) : Packet :=
  { destLC := k.srcLC, destCore := k.srcSub, destUnit := k.srcUnit
    srcLC := if k.destUnit ≤ 0x0D then (s.cl cl).lc.getD 0 else if k.destUnit ≤ 0x11 then clBay cl else k.destLC
    srcSub := k.destCore, srcUnit := k.destUnit
    tint := if k.destUnit ≥ 0x12 then k.tint else s.clTint cl
    channel := 9, epoch := k.epoch, seq := k.seq, ptype
    ackCh := if ptype = 3 then 0 else k.channel, payload }

/-- The input buffer that the answer to packet `k`, delivered at router `cl`, enters has room for it (R306): a target
takes no packet that it could not answer. -/
def Chip.answerRoom (s : Chip) (cl : Nat) (k : Packet) : Bool :=
  s.bufferRoom cl (unitPort k.destUnit) ((s.answerTo cl k 4).occupies (s.clTint cl))

/-- A packet completed by its source's router at injection (R302), its record as outstanding, and the router with
its SEQ counted. -/
def Chip.stamped (s : Chip) (src : Nat) (k : Packet) : Packet × Outstanding × Chip :=
  let r := s.router src
  let seq := SMap.get 0 r.seqs k.srcKey
  ({ k with tint := s.clTint src, epoch := r.cur, esc := 0, seq },
   ⟨k.srcUnit, k.srcSub, k.channel, seq, s.clTime src, 1, s.clTint src⟩,
   s.modRouter src fun r => { r with seqs := SMap.set 0 r.seqs k.srcKey ((seq + 1) % 65536) })

/-- An answer delivered at router `home` by port `p` has come to its source: the cluster `src`, its bay, an eave port,
or the host bridge, whose packets both its clusters take (R393, R433). -/
def Packet.isHome (a : Packet) (src home p : Nat) : Bool :=
  p = unitPort a.destUnit &&
    (if p = 8 then home = src else if p = 9 then clBay home = clBay src
     else if a.destUnit = 0x12 then eaveAt home = some a.destLC else hostAt home)

/-- A delivery point of the cluster or bay takes packets of its own tint alone (R333); bridges take every tint. -/
def Chip.delivers (s : Chip) (cl : Nat) (k : Packet) : Bool :=
  0x11 < k.destUnit || k.tint = s.tintHere cl k.destUnit

/-- The answer `a` of what was delivered at `far`, carried back to its source; then `done`. -/
def Chip.goBack (s : Chip) (src far : Nat) (a : Packet) (lost : Chip → StackRes) (done : Chip → StackRes) : StackRes :=
  match s.carry a maxHops far with
  | .held h => .busy h
  | .lost s => lost s
  | .at s home p =>
    if !a.isHome src home p then lost (s.count (.cluster home) Off.CL_RT_LATE 1)
    else if !s.delivers home a then lost (s.stranger home a true)
    else done s

/-- A request carried from router `src`, performed by `act` at the router that delivers it, and its answer
carried back to its source; `lost`: what was discarded on the way leaves the request unanswered (R308). -/
def Chip.roundTrip (s : Chip) (src : Nat) (k : Packet) (lost : Chip → StackRes) (act : Chip → Nat → StackRes) : StackRes :=
  match s.carry k maxHops src with
  | .held h => .busy h
  | .lost s => lost s
  | .at s far p =>
    if p ≠ unitPort k.destUnit then lost s
    else if !s.delivers far k then lost (s.stranger far k true)
    else
      let back (s : Chip) (ptype : Nat) (bs : List Byte) (done : Chip → StackRes) : StackRes :=
        s.goBack src far (s.answerTo far k ptype bs) lost done
      match act s far with
      | .ok s bs => back s (if k.ptype = 2 then 3 else 4) bs fun s => .ok s bs
      | .refused s => back s 5 [] fun s => .refused (s.count (.cluster src) Off.CL_RT_ACK_ERR 1)
      | .uncorr s => back s 5 [] fun s => .uncorr (s.count (.cluster src) Off.CL_RT_ACK_ERR 1)
      | .busy h => .busy h
      | .lost s => lost s

/-- A request of an engine or walker injected at router `src`, and its answer. -/
def Chip.exchange (s : Chip) (src : Nat) (k : Packet) (act : Chip → Nat → StackRes) : StackRes :=
  if !s.mayInject src k.srcUnit k.channel then .busy .unsent
  else
    let (k, o, s) := s.stamped src k
    s.roundTrip src k (fun s => .lost (s.modRouter src fun r => { r with outstanding := r.outstanding ++ [o] })) act

end Sys2Proof.Machine
end

