-- ==== Sys2Proof/Machine/Sha.lean ====
section
/-! DEFINITION. SHA-512 and SHA-256 (FIPS 180-4): SHA-512 hashes meter records, measurements, images and
SPDM transcripts (R517, R586 to R590, R597), SHA-256 the contribution digests (R388, R389). Bytes in, bytes out; words are big-endian as the standard has. -/

namespace Sys2Proof

namespace Sha

/-- Round constants. -/
def k : List W :=
  [0x428A2F98D728AE22#64, 0x7137449123EF65CD#64, 0xB5C0FBCFEC4D3B2F#64, 0xE9B5DBA58189DBBC#64, 0x3956C25BF348B538#64, 0x59F111F1B605D019#64, 0x923F82A4AF194F9B#64, 0xAB1C5ED5DA6D8118#64] ++
  [0xD807AA98A3030242#64, 0x12835B0145706FBE#64, 0x243185BE4EE4B28C#64, 0x550C7DC3D5FFB4E2#64, 0x72BE5D74F27B896F#64, 0x80DEB1FE3B1696B1#64, 0x9BDC06A725C71235#64, 0xC19BF174CF692694#64] ++
  [0xE49B69C19EF14AD2#64, 0xEFBE4786384F25E3#64, 0x0FC19DC68B8CD5B5#64, 0x240CA1CC77AC9C65#64, 0x2DE92C6F592B0275#64, 0x4A7484AA6EA6E483#64, 0x5CB0A9DCBD41FBD4#64, 0x76F988DA831153B5#64] ++
  [0x983E5152EE66DFAB#64, 0xA831C66D2DB43210#64, 0xB00327C898FB213F#64, 0xBF597FC7BEEF0EE4#64, 0xC6E00BF33DA88FC2#64, 0xD5A79147930AA725#64, 0x06CA6351E003826F#64, 0x142929670A0E6E70#64] ++
  [0x27B70A8546D22FFC#64, 0x2E1B21385C26C926#64, 0x4D2C6DFC5AC42AED#64, 0x53380D139D95B3DF#64, 0x650A73548BAF63DE#64, 0x766A0ABB3C77B2A8#64, 0x81C2C92E47EDAEE6#64, 0x92722C851482353B#64] ++
  [0xA2BFE8A14CF10364#64, 0xA81A664BBC423001#64, 0xC24B8B70D0F89791#64, 0xC76C51A30654BE30#64, 0xD192E819D6EF5218#64, 0xD69906245565A910#64, 0xF40E35855771202A#64, 0x106AA07032BBD1B8#64] ++
  [0x19A4C116B8D2D0C8#64, 0x1E376C085141AB53#64, 0x2748774CDF8EEB99#64, 0x34B0BCB5E19B48A8#64, 0x391C0CB3C5C95A63#64, 0x4ED8AA4AE3418ACB#64, 0x5B9CCA4F7763E373#64, 0x682E6FF3D6B2B8A3#64] ++
  [0x748F82EE5DEFB2FC#64, 0x78A5636F43172F60#64, 0x84C87814A1F0AB72#64, 0x8CC702081A6439EC#64, 0x90BEFFFA23631E28#64, 0xA4506CEBDE82BDE9#64, 0xBEF9A3F7B2C67915#64, 0xC67178F2E372532B#64] ++
  [0xCA273ECEEA26619C#64, 0xD186B8C721C0C207#64, 0xEADA7DD6CDE0EB1E#64, 0xF57D4F7FEE6ED178#64, 0x06F067AA72176FBA#64, 0x0A637DC5A2C898A6#64, 0x113F9804BEF90DAE#64, 0x1B710B35131C471B#64] ++
  [0x28DB77F523047D84#64, 0x32CAAB7B40C72493#64, 0x3C9EBE0A15C9BEBC#64, 0x431D67C49C100D4C#64, 0x4CC5D4BECB3E42B6#64, 0x597F299CFC657E2A#64, 0x5FCB6FAB3AD6FAEC#64, 0x6C44198C4A475817#64]

/-- Initial hash value. -/
def h0 : List W :=
  [0x6A09E667F3BCC908#64, 0xBB67AE8584CAA73B#64, 0x3C6EF372FE94F82B#64, 0xA54FF53A5F1D36F1#64, 0x510E527FADE682D1#64, 0x9B05688C2B3E6C1F#64, 0x1F83D9ABFB41BD6B#64, 0x5BE0CD19137E2179#64]

def rotr (x : W) (n : Nat) : W := (x >>> n) ||| (x <<< (64 - n))
def bs0 (x : W) : W := rotr x 28 ^^^ rotr x 34 ^^^ rotr x 39
def bs1 (x : W) : W := rotr x 14 ^^^ rotr x 18 ^^^ rotr x 41
def ss0 (x : W) : W := rotr x 1 ^^^ rotr x 8 ^^^ (x >>> 7)
def ss1 (x : W) : W := rotr x 19 ^^^ rotr x 61 ^^^ (x >>> 6)
def ch (e f g : W) : W := (e &&& f) ^^^ (~~~e &&& g)
def maj (a b c : W) : W := (a &&& b) ^^^ (a &&& c) ^^^ (b &&& c)

/-- A big-endian number of bytes. -/
def beNat (l : List Byte) : Nat := l.foldl (fun n b => n * 256 + b.toNat) 0
/-- `n` big-endian bytes of `x`. -/
def beBytes (n x : Nat) : List Byte := (List.range n).map fun i => BitVec.ofNat 8 (x >>> (8 * (n - 1 - i)))

/-- The next word of the schedule from the last sixteen, newest first. -/
def nextW (r : List W) : W := ss1 (r.getD 1 0#64) + r.getD 6 0#64 + ss0 (r.getD 14 0#64) + r.getD 15 0#64

/-- The 80 words of the schedule, newest first. -/
def schedule : Nat → List W → List W
  | 0, r => r
  | n + 1, r => schedule n (nextW r :: r)

structure Reg where
  a : W
  b : W
  c : W
  d : W
  e : W
  f : W
  g : W
  h : W

def round (r : Reg) (kw : W × W) : Reg :=
  let t1 := r.h + bs1 r.e + ch r.e r.f r.g + kw.1 + kw.2
  let t2 := bs0 r.a + maj r.a r.b r.c
  { a := t1 + t2, b := r.a, c := r.b, d := r.c, e := r.d + t1, f := r.e, g := r.f, h := r.g }

def Reg.ofList (l : List W) : Reg :=
  ⟨l.getD 0 0#64, l.getD 1 0#64, l.getD 2 0#64, l.getD 3 0#64, l.getD 4 0#64, l.getD 5 0#64, l.getD 6 0#64, l.getD 7 0#64⟩
def Reg.toList (r : Reg) : List W := [r.a, r.b, r.c, r.d, r.e, r.f, r.g, r.h]

/-- One block of 128 bytes. -/
def block (h : List W) (bs : List Byte) : List W :=
  let w := (List.range 16).map fun i => BitVec.ofNat 64 (beNat ((bs.drop (8 * i)).take 8))
  let ws := (schedule 64 w.reverse).reverse
  let r := (List.zip k ws).foldl round (Reg.ofList h)
  List.zipWith (· + ·) h r.toList

/-- The padded message. -/
def pad (m : List Byte) : List Byte :=
  let n := m.length
  m ++ [0x80#8] ++ List.replicate ((111 + 128 - n % 128) % 128) 0#8 ++ beBytes 16 (8 * n)

def blocks : Nat → List Byte → List W → List W
  | 0, _, h => h
  | n + 1, m, h => blocks n (m.drop 128) (block h (m.take 128))

end Sha

/-- SHA-512 of a byte string: 64 bytes. -/
def sha512 (m : List Byte) : List Byte :=
  let p := Sha.pad m
  (Sha.blocks (p.length / 128) p Sha.h0).flatMap fun w => Sha.beBytes 8 w.toNat

/-! ### SHA-256 (R388, R389) -/

namespace Sha256

/-- Round constants. -/
def k : List W32 :=
  [0x428A2F98#32, 0x71374491#32, 0xB5C0FBCF#32, 0xE9B5DBA5#32, 0x3956C25B#32, 0x59F111F1#32, 0x923F82A4#32, 0xAB1C5ED5#32] ++
  [0xD807AA98#32, 0x12835B01#32, 0x243185BE#32, 0x550C7DC3#32, 0x72BE5D74#32, 0x80DEB1FE#32, 0x9BDC06A7#32, 0xC19BF174#32] ++
  [0xE49B69C1#32, 0xEFBE4786#32, 0x0FC19DC6#32, 0x240CA1CC#32, 0x2DE92C6F#32, 0x4A7484AA#32, 0x5CB0A9DC#32, 0x76F988DA#32] ++
  [0x983E5152#32, 0xA831C66D#32, 0xB00327C8#32, 0xBF597FC7#32, 0xC6E00BF3#32, 0xD5A79147#32, 0x06CA6351#32, 0x14292967#32] ++
  [0x27B70A85#32, 0x2E1B2138#32, 0x4D2C6DFC#32, 0x53380D13#32, 0x650A7354#32, 0x766A0ABB#32, 0x81C2C92E#32, 0x92722C85#32] ++
  [0xA2BFE8A1#32, 0xA81A664B#32, 0xC24B8B70#32, 0xC76C51A3#32, 0xD192E819#32, 0xD6990624#32, 0xF40E3585#32, 0x106AA070#32] ++
  [0x19A4C116#32, 0x1E376C08#32, 0x2748774C#32, 0x34B0BCB5#32, 0x391C0CB3#32, 0x4ED8AA4A#32, 0x5B9CCA4F#32, 0x682E6FF3#32] ++
  [0x748F82EE#32, 0x78A5636F#32, 0x84C87814#32, 0x8CC70208#32, 0x90BEFFFA#32, 0xA4506CEB#32, 0xBEF9A3F7#32, 0xC67178F2#32]

/-- Initial hash value. -/
def h0 : List W32 :=
  [0x6A09E667#32, 0xBB67AE85#32, 0x3C6EF372#32, 0xA54FF53A#32, 0x510E527F#32, 0x9B05688C#32, 0x1F83D9AB#32, 0x5BE0CD19#32]

def rotr (x : W32) (n : Nat) : W32 := (x >>> n) ||| (x <<< (32 - n))
def bs0 (x : W32) : W32 := rotr x 2 ^^^ rotr x 13 ^^^ rotr x 22
def bs1 (x : W32) : W32 := rotr x 6 ^^^ rotr x 11 ^^^ rotr x 25
def ss0 (x : W32) : W32 := rotr x 7 ^^^ rotr x 18 ^^^ (x >>> 3)
def ss1 (x : W32) : W32 := rotr x 17 ^^^ rotr x 19 ^^^ (x >>> 10)
def ch (e f g : W32) : W32 := (e &&& f) ^^^ (~~~e &&& g)
def maj (a b c : W32) : W32 := (a &&& b) ^^^ (a &&& c) ^^^ (b &&& c)

/-- The next word of the schedule from the last sixteen, newest first. -/
def nextW (r : List W32) : W32 := ss1 (r.getD 1 0#32) + r.getD 6 0#32 + ss0 (r.getD 14 0#32) + r.getD 15 0#32

/-- The 64 words of the schedule, newest first. -/
def schedule : Nat → List W32 → List W32
  | 0, r => r
  | n + 1, r => schedule n (nextW r :: r)

structure Reg where
  a : W32
  b : W32
  c : W32
  d : W32
  e : W32
  f : W32
  g : W32
  h : W32

def round (r : Reg) (kw : W32 × W32) : Reg :=
  let t1 := r.h + bs1 r.e + ch r.e r.f r.g + kw.1 + kw.2
  let t2 := bs0 r.a + maj r.a r.b r.c
  { a := t1 + t2, b := r.a, c := r.b, d := r.c, e := r.d + t1, f := r.e, g := r.f, h := r.g }

def Reg.ofList (l : List W32) : Reg :=
  ⟨l.getD 0 0#32, l.getD 1 0#32, l.getD 2 0#32, l.getD 3 0#32, l.getD 4 0#32, l.getD 5 0#32, l.getD 6 0#32, l.getD 7 0#32⟩
def Reg.toList (r : Reg) : List W32 := [r.a, r.b, r.c, r.d, r.e, r.f, r.g, r.h]

/-- One block of 64 bytes. -/
def block (h : List W32) (bs : List Byte) : List W32 :=
  let w := (List.range 16).map fun i => BitVec.ofNat 32 (Sha.beNat ((bs.drop (4 * i)).take 4))
  let ws := (schedule 48 w.reverse).reverse
  let r := (List.zip k ws).foldl round (Reg.ofList h)
  List.zipWith (· + ·) h r.toList

/-- The padded message. -/
def pad (m : List Byte) : List Byte :=
  let n := m.length
  m ++ [0x80#8] ++ List.replicate ((55 + 64 - n % 64) % 64) 0#8 ++ Sha.beBytes 8 (8 * n)

def blocks : Nat → List Byte → List W32 → List W32
  | 0, _, h => h
  | n + 1, m, h => blocks n (m.drop 64) (block h (m.take 64))

end Sha256

/-- SHA-256 of a byte string: 32 bytes. -/
def sha256 (m : List Byte) : List Byte :=
  let p := Sha256.pad m
  (Sha256.blocks (p.length / 64) p Sha256.h0).flatMap fun w => Sha.beBytes 4 w.toNat

end Sys2Proof
end

