-- ==== Sys2Proof/Machine/Gcm.lean ====
section
/-! DEFINITION. AES-256 (FIPS 197) in the Galois counter mode of NIST SP 800-38D, which protects Eave
frames (R404). A key, a nonce, an AAD and a tag are numbers whose first byte is least significant. -/

namespace Sys2Proof

namespace Aes

/-- The S-box of FIPS 197, row by row. -/
def sboxBytes : List Byte :=
  [0x63#8, 0x7C#8, 0x77#8, 0x7B#8, 0xF2#8, 0x6B#8, 0x6F#8, 0xC5#8, 0x30#8, 0x01#8, 0x67#8, 0x2B#8, 0xFE#8, 0xD7#8, 0xAB#8, 0x76#8] ++
  [0xCA#8, 0x82#8, 0xC9#8, 0x7D#8, 0xFA#8, 0x59#8, 0x47#8, 0xF0#8, 0xAD#8, 0xD4#8, 0xA2#8, 0xAF#8, 0x9C#8, 0xA4#8, 0x72#8, 0xC0#8] ++
  [0xB7#8, 0xFD#8, 0x93#8, 0x26#8, 0x36#8, 0x3F#8, 0xF7#8, 0xCC#8, 0x34#8, 0xA5#8, 0xE5#8, 0xF1#8, 0x71#8, 0xD8#8, 0x31#8, 0x15#8] ++
  [0x04#8, 0xC7#8, 0x23#8, 0xC3#8, 0x18#8, 0x96#8, 0x05#8, 0x9A#8, 0x07#8, 0x12#8, 0x80#8, 0xE2#8, 0xEB#8, 0x27#8, 0xB2#8, 0x75#8] ++
  [0x09#8, 0x83#8, 0x2C#8, 0x1A#8, 0x1B#8, 0x6E#8, 0x5A#8, 0xA0#8, 0x52#8, 0x3B#8, 0xD6#8, 0xB3#8, 0x29#8, 0xE3#8, 0x2F#8, 0x84#8] ++
  [0x53#8, 0xD1#8, 0x00#8, 0xED#8, 0x20#8, 0xFC#8, 0xB1#8, 0x5B#8, 0x6A#8, 0xCB#8, 0xBE#8, 0x39#8, 0x4A#8, 0x4C#8, 0x58#8, 0xCF#8] ++
  [0xD0#8, 0xEF#8, 0xAA#8, 0xFB#8, 0x43#8, 0x4D#8, 0x33#8, 0x85#8, 0x45#8, 0xF9#8, 0x02#8, 0x7F#8, 0x50#8, 0x3C#8, 0x9F#8, 0xA8#8] ++
  [0x51#8, 0xA3#8, 0x40#8, 0x8F#8, 0x92#8, 0x9D#8, 0x38#8, 0xF5#8, 0xBC#8, 0xB6#8, 0xDA#8, 0x21#8, 0x10#8, 0xFF#8, 0xF3#8, 0xD2#8] ++
  [0xCD#8, 0x0C#8, 0x13#8, 0xEC#8, 0x5F#8, 0x97#8, 0x44#8, 0x17#8, 0xC4#8, 0xA7#8, 0x7E#8, 0x3D#8, 0x64#8, 0x5D#8, 0x19#8, 0x73#8] ++
  [0x60#8, 0x81#8, 0x4F#8, 0xDC#8, 0x22#8, 0x2A#8, 0x90#8, 0x88#8, 0x46#8, 0xEE#8, 0xB8#8, 0x14#8, 0xDE#8, 0x5E#8, 0x0B#8, 0xDB#8] ++
  [0xE0#8, 0x32#8, 0x3A#8, 0x0A#8, 0x49#8, 0x06#8, 0x24#8, 0x5C#8, 0xC2#8, 0xD3#8, 0xAC#8, 0x62#8, 0x91#8, 0x95#8, 0xE4#8, 0x79#8] ++
  [0xE7#8, 0xC8#8, 0x37#8, 0x6D#8, 0x8D#8, 0xD5#8, 0x4E#8, 0xA9#8, 0x6C#8, 0x56#8, 0xF4#8, 0xEA#8, 0x65#8, 0x7A#8, 0xAE#8, 0x08#8] ++
  [0xBA#8, 0x78#8, 0x25#8, 0x2E#8, 0x1C#8, 0xA6#8, 0xB4#8, 0xC6#8, 0xE8#8, 0xDD#8, 0x74#8, 0x1F#8, 0x4B#8, 0xBD#8, 0x8B#8, 0x8A#8] ++
  [0x70#8, 0x3E#8, 0xB5#8, 0x66#8, 0x48#8, 0x03#8, 0xF6#8, 0x0E#8, 0x61#8, 0x35#8, 0x57#8, 0xB9#8, 0x86#8, 0xC1#8, 0x1D#8, 0x9E#8] ++
  [0xE1#8, 0xF8#8, 0x98#8, 0x11#8, 0x69#8, 0xD9#8, 0x8E#8, 0x94#8, 0x9B#8, 0x1E#8, 0x87#8, 0xE9#8, 0xCE#8, 0x55#8, 0x28#8, 0xDF#8] ++
  [0x8C#8, 0xA1#8, 0x89#8, 0x0D#8, 0xBF#8, 0xE6#8, 0x42#8, 0x68#8, 0x41#8, 0x99#8, 0x2D#8, 0x0F#8, 0xB0#8, 0x54#8, 0xBB#8, 0x16#8]

def sbox (x : Byte) : Byte := sboxBytes.getD x.toNat 0#8

/-- Multiplication by x in the field of FIPS 197. -/
def xtime (x : Byte) : Byte := if x.getLsbD 7 then (x <<< 1) ^^^ 0x1B#8 else x <<< 1

def xorBytes (a b : List Byte) : List Byte := List.zipWith (· ^^^ ·) a b

/-- The next four-byte words of the key schedule, newest first: word `i` of 60. -/
def expand : Nat → Nat → Byte → List (List Byte) → List (List Byte)
  | 0, _, _, ws => ws
  | n + 1, i, rc, ws =>
    let last := ws.getD 0 []
    let t := if i % 8 = 0 then xorBytes (((last.drop 1) ++ last.take 1).map sbox) [rc, 0#8, 0#8, 0#8]
      else if i % 8 = 4 then last.map sbox else last
    expand n (i + 1) (if i % 8 = 0 then xtime rc else rc) (xorBytes (ws.getD 7 []) t :: ws)

/-- The 15 round keys of 16 bytes. -/
def roundKeys (key : List Byte) : List (List Byte) :=
  let first := (List.range 8).map fun i => (key.drop (4 * i)).take 4
  let ws := (expand 52 8 1#8 first.reverse).reverse
  (List.range 15).map fun r => ((ws.drop (4 * r)).take 4).flatten

/-- ShiftRows: byte `r + 4 c` comes from column `c + r`. -/
def shiftRows (s : List Byte) : List Byte :=
  (List.range 16).map fun i => s.getD ((i + 4 * (i % 4)) % 16) 0#8

def mixColumn : List Byte → List Byte
  | [a, b, c, d] =>
    let t := a ^^^ b ^^^ c ^^^ d
    [a ^^^ t ^^^ xtime (a ^^^ b), b ^^^ t ^^^ xtime (b ^^^ c), c ^^^ t ^^^ xtime (c ^^^ d), d ^^^ t ^^^ xtime (d ^^^ a)]
  | l => l

def mixColumns (s : List Byte) : List Byte := (List.range 4).flatMap fun c => mixColumn ((s.drop (4 * c)).take 4)

/-- Rounds 1 to 13 by their keys, then the last without MixColumns. -/
def rounds : List (List Byte) → List Byte → List Byte
  | [], s => s
  | [k], s => xorBytes (shiftRows (s.map sbox)) k
  | k :: ks, s => rounds ks (xorBytes (mixColumns (shiftRows (s.map sbox))) k)

/-- One block of 16 bytes enciphered. -/
def encrypt (keys : List (List Byte)) (b : List Byte) : List Byte :=
  match keys with
  | [] => b
  | k :: ks => rounds ks (xorBytes b k)

end Aes

namespace Gcm

open Machine (leNat leBytes)

/-- The product in GF(2^128) of SP 800-38D: bits of `x` from the most significant, `v` halved in each turn. -/
def mulFrom (x : BitVec 128) : Nat → BitVec 128 → BitVec 128 → BitVec 128
  | 0, z, _ => z
  | n + 1, z, v =>
    mulFrom x n (if x.getLsbD n then z ^^^ v else z)
      (if v.getLsbD 0 then (v >>> 1) ^^^ (0xE1#128 <<< 120) else v >>> 1)

def mul (x y : BitVec 128) : BitVec 128 := mulFrom x 128 0#128 y

/-- A block of at most 16 bytes, padded with zeros, as a bit string. -/
def toBlock (b : List Byte) : BitVec 128 := BitVec.ofNat 128 (Sha.beNat ((b ++ List.replicate 16 0#8).take 16))

/-- The blocks of a byte string. -/
def chunks : Nat → List Byte → List (List Byte)
  | 0, _ => []
  | n + 1, l => l.take 16 :: chunks n (l.drop 16)

def blocksOf (l : List Byte) : List (List Byte) := chunks ((l.length + 15) / 16) l

def ghash (h : BitVec 128) (l : List (BitVec 128)) : BitVec 128 := l.foldl (fun y x => mul (y ^^^ x) h) 0#128

/-- Counter block `n` of a 96-bit nonce. -/
def counter (nonce : List Byte) (n : Nat) : List Byte := nonce ++ Sha.beBytes 4 n

/-- The counter mode: block `i` of the text under counter `i + 2`. -/
def crypt (keys : List (List Byte)) (nonce text : List Byte) : List Byte :=
  (blocksOf text).zipIdx.flatMap fun b => Aes.xorBytes b.1 (Aes.encrypt keys (counter nonce (b.2 + 2)))

/-- The tag of an AAD and a ciphertext. -/
def tagOf (keys : List (List Byte)) (nonce aad ct : List Byte) : List Byte :=
  let h := toBlock (Aes.encrypt keys (List.replicate 16 0#8))
  let len := BitVec.ofNat 128 (8 * aad.length * 2 ^ 64 + 8 * ct.length)
  let s := ghash h ((blocksOf aad).map toBlock ++ (blocksOf ct).map toBlock ++ [len])
  Aes.xorBytes (Sha.beBytes 16 s.toNat) (Aes.encrypt keys (counter nonce 1))

end Gcm

open Machine (leNat leBytes)

/-- A frame's payload sealed (R404): ciphertext and tag. -/
def gcmSeal (key : BitVec 256) (nonce : BitVec 96) (aad : BitVec 256) (plain : List Byte) : List Byte × BitVec 128 :=
  let keys := Aes.roundKeys (leBytes 32 key.toNat)
  let n := leBytes 12 nonce.toNat
  let ct := Gcm.crypt keys n plain
  (ct, BitVec.ofNat 128 (leNat (Gcm.tagOf keys n (leBytes 32 aad.toNat) ct)))

/-- A frame's payload opened; none when the tag does not authenticate it. -/
def gcmOpen (key : BitVec 256) (nonce : BitVec 96) (aad : BitVec 256) (ct : List Byte) (tag : BitVec 128) :
    Option (List Byte) :=
  let keys := Aes.roundKeys (leBytes 32 key.toNat)
  let n := leBytes 12 nonce.toNat
  if BitVec.ofNat 128 (leNat (Gcm.tagOf keys n (leBytes 32 aad.toNat) ct)) = tag then some (Gcm.crypt keys n ct) else none

end Sys2Proof
end

