-- ==== Sys2Proof/Machine/Xts.lean ====
section
/-! DEFINITION. AES-256-XTS (IEEE 1619) over the 64-byte lines of a stack (R244). A key value holds Key1 in
its first 32 bytes and Key2 in its last. -/

namespace Sys2Proof

namespace Aes

def invSbox (x : Byte) : Byte := BitVec.ofNat 8 (sboxBytes.idxOf x)

/-- InvShiftRows: byte `r + 4 c` comes from column `c - r`. -/
def invShiftRows (s : List Byte) : List Byte :=
  (List.range 16).map fun i => s.getD ((i + 12 * (i % 4)) % 16) 0#8

/-- InvMixColumns of one column: MixColumns after the factor 4 x^2 + 5. -/
def invMixColumn : List Byte → List Byte
  | [a, b, c, d] =>
    let u := xtime (xtime (a ^^^ c))
    let v := xtime (xtime (b ^^^ d))
    mixColumn [a ^^^ u, b ^^^ v, c ^^^ u, d ^^^ v]
  | l => l

def invMixColumns (s : List Byte) : List Byte := (List.range 4).flatMap fun c => invMixColumn ((s.drop (4 * c)).take 4)

/-- The inverse rounds, by round keys from the last but one down to the first. -/
def invRounds : List (List Byte) → List Byte → List Byte
  | [], s => s
  | [k], s => xorBytes ((invShiftRows s).map invSbox) k
  | k :: ks, s => invRounds ks (invMixColumns (xorBytes ((invShiftRows s).map invSbox) k))

/-- One block of 16 bytes deciphered. -/
def decrypt (keys : List (List Byte)) (b : List Byte) : List Byte :=
  match keys.reverse with
  | [] => b
  | k :: ks => invRounds ks (xorBytes b k)

end Aes

namespace Xts

open Machine (leNat leBytes)

/-- A tweak times the primitive element of GF(2^128), first byte least significant. -/
def double (t : Nat) : Nat := if t.testBit 127 then (2 * t % 2 ^ 128) ^^^ 0x87 else 2 * t

/-- The blocks of a data unit, each between two additions of its tweak. -/
def blocks (f : List Byte → List Byte) : Nat → Nat → List Byte → List Byte
  | 0, _, _ => []
  | n + 1, t, l => Aes.xorBytes (f (Aes.xorBytes (l.take 16) (leBytes 16 t))) (leBytes 16 t) ++ blocks f n (double t) (l.drop 16)

/-- The line at tweak value `i` under a key value. -/
def line (dec : Bool) (key : BitVec 512) (i : Nat) (l : List Byte) : List Byte :=
  let k1 := Aes.roundKeys (leBytes 32 key.toNat)
  let k2 := Aes.roundKeys (leBytes 32 (key.toNat / 2 ^ 256))
  blocks (if dec then Aes.decrypt k1 else Aes.encrypt k1) 4 (leNat (Aes.encrypt k2 (leBytes 16 i))) l

end Xts

end Sys2Proof
end

