-- ==== Sys2Proof/Machine/Stack.lean ====
section
/-! DEFINITION. Stacks and bay memory controllers (R235 to R248, R285, R504): key slots, error
correction, encryption, reads and writes, host bias (R456, R459). -/

namespace Sys2Proof.Machine

open Sys2Proof

/-- Bytes a stack presents (R236). -/
def stackSize : Nat := 2 ^ 36

/-- The access lies in the stack window of tint `t` (R504); tint 0 has none. -/
def Chip.windowOk (s : Chip) (t off n : Nat) : Bool :=
  decide (off + n ≤ stackSize) &&
    (t = 0 ||
      (let g := s.reg (.gable t) Off.GB_CFG
       let base := fld g 8 6 * 2 ^ 30
       decide (base ≤ off) && decide (off + n ≤ base + fld g 16 7 * 2 ^ 30)))

/-- The key an access of tint `t` under `slot` uses; `none` is refused (R247). -/
def Bay.keyFor (x : Bay) (slot t : Nat) : Option (BitVec 512) :=
  match SMap.get none x.keys slot with
  | some k => if k.tint = t then some k.key else none
  | none => none

/-- BM_ECC after `n` corrected lines and perhaps an uncorrectable one, the last at `line` (R240, R241). -/
def bmEccNote (old : W) (n : Nat) (unc : Bool) (line : Nat) : W :=
  if n = 0 && !unc then old
  else
    let v := satField 16 n old
    let v := if unc then setBit v 16 else v
    putFld (putFld v 17 5 (line / 4 % 32)) 26 30 line

/-- A scan of lines lo ≤ l < hi of a stack. -/
def Chip.stackScan (s : Chip) (b lo hi : Nat) : Chip × Bool :=
  let x := s.bay b
  let (n, u) := eccScan x.lineErr lo hi
  let line := u.getD (lastMark x.lineErr lo hi)
  let s := s.modBay b fun x => { x with lineErr := eccFix x.lineErr lo hi }
  (s.modReg (.baymem b) Off.BM_ECC fun v => bmEccNote v n u.isSome line, u.isSome)

/-- Bytes of a cluster's saved image (R279). -/
def imageSize : Nat := 20791296

/-- Bytes of an image whose place and content R279 gives: cluster store, local memories and accumulator
files, and the weave context images. The bytes of the other parts are free (log entry 22). -/
def imageLaid (off : Nat) : Bool := off < 19922944 || (19988480 ≤ off && off < 20004864)

/-- The save area that holds a location, the newest where several overlap: its offset, image number and key. -/
def Bay.areaOf (x : Bay) (off : Nat) : Option (Nat × Nat × BitVec 512) :=
  x.images.foldl (fun best p => match p.2 with
    | none => best
    | some (n, k) =>
      if !(p.1 ≤ off && off < p.1 + imageSize) then best
      else match best with
        | some (_, m, _) => if m < n then some (p.1, n, k) else best
        | none => some (p.1, n, k)) none

/-- The key a line was written under: by an access, or with a saved image (R244). -/
def Bay.keyOfLine (x : Bay) (line : Nat) : Option (BitVec 512) :=
  match SMap.get none x.lineKey line with
  | some k => some k
  | none => (x.areaOf (64 * line)).map fun a => a.2.2

/-- The bytes of a line as they were written. -/
def Bay.plainLine (x : Bay) (line : Nat) : List Byte :=
  match SMap.get none x.lineKey line, x.areaOf (64 * line) with
  | none, some (base, n, _) => (List.range 64).map fun i =>
      let off := 64 * line + i - base
      if imageLaid off then Memory.readByte x.stack (64 * line + i) else Config.imageByte n off
  | _, _ => Memory.read x.stack (64 * line) 64

/-- The line as key `k` reads it (R244, R248): another key deciphers what the line's own key enciphered;
of a line not written since step STACKS, what that step left there (R236). -/
def Chip.stackLine (s : Chip) (b : Nat) (k : BitVec 512) (line : Nat) : List Byte :=
  let x := s.bay b
  let tweak := b * 2 ^ 36 + 64 * line
  match x.keyOfLine line with
  | some k' => if k' = k then x.plainLine line else Xts.line true k tweak (Xts.line false k' tweak (x.plainLine line))
  | none => Xts.line true k tweak (leBytes 64 (Config.stackFill s.bringup.stackFills b line).toNat)

/-- Bytes counted for tint `t`, tint 0 as well, at the controller (R342, R514). -/
def Chip.countStack (s : Chip) (b t n : Nat) (write : Bool) : Chip :=
  let s := s.count (.baymem b) (if write then Off.BM_WRITE_BYTES else Off.BM_READ_BYTES) n
  s.metered t fun m => if write then { m with stackWrite := m.stackWrite + n } else { m with stackRead := m.stackRead + n }

/-- The frame being copied overlaps the access. -/
def Bay.copying (x : Bay) (off n : Nat) : Bool :=
  match x.retiring with
  | some f => decide (f * 65536 < off + n) && decide (off < (f + 1) * 65536)
  | none => false

/-- A read of `n` bytes at offset `off` of stack `b` under key slot `slot` for tint `t`. Walker reads and
the host bridge's queue commands are not `counted` (R342). -/
def Chip.stackRead (s : Chip) (b slot t off n : Nat) (counted : Bool := true) : StackRes :=
  let x := s.bay b
  if x.copying off n then .busy .tracked
  else match x.keyFor slot t, s.windowOk t off n with
    | some k, true =>
      let lo := off / 64
      let hi := (off + n + 63) / 64
      let (s, bad) := s.stackScan b lo hi
      if bad then .uncorr s
      else
        let bs := (List.range (hi - lo)).flatMap fun i => s.stackLine b k (lo + i)
        .ok (if counted then s.countStack b t (64 * (hi - lo)) false else s) ((bs.drop (off % 64)).take n)
    | _, _ => .refused (s.count (.baymem b) Off.BM_KEY_REFUSE 1)

/-- One line of a write: `off` and `bs` lie within it. A short write merges with the line it reads; a
merge into an uncorrectable line is not performed (R242). -/
def Chip.stackWriteLine (s : Chip) (b : Nat) (k : BitVec 512) (off : Nat) (bs : List Byte) : Chip × Bool :=
  let line := off / 64
  let put (s : Chip) (at_ : Nat) (l : List Byte) : Chip :=
    s.modBay b fun x => { x with
      stack := Memory.write x.stack at_ l
      lineKey := SMap.set none x.lineKey line (some k)
      lineErr := eccWipe x.lineErr line (line + 1) }
  if bs.length = 64 then (put s off bs, false)
  else
    let (s, bad) := s.stackScan b line (line + 1)
    if bad then (s, true)
    else
      let old := s.stackLine b k line
      let o := off % 64
      (put s (64 * line) (old.take o ++ bs ++ old.drop (o + bs.length)), false)

/-- A write cut at lines; `fuel` bounds the lines touched. -/
def Chip.stackWriteLines (b : Nat) (k : BitVec 512) : Nat → Nat → List Byte → Chip → Chip × Bool
  | 0, _, _, s => (s, false)
  | fuel + 1, off, bs, s =>
    if bs.isEmpty then (s, false)
    else
      let m := 64 - off % 64
      let (s, b1) := s.stackWriteLine b k off (bs.take m)
      let (s, b2) := stackWriteLines b k fuel (off + m) (bs.drop m) s
      (s, b1 || b2)

/-- A write of bytes at offset `off` of stack `b`. -/
def Chip.stackWrite (s : Chip) (b slot t off : Nat) (bs : List Byte) (counted : Bool := true) : StackRes :=
  let x := s.bay b
  let n := bs.length
  if x.copying off n then .busy .tracked
  else match x.keyFor slot t, s.windowOk t off n with
    | some k, true =>
      let (s, bad) := Chip.stackWriteLines b k (n / 64 + 2) off bs s
      let s := if counted then s.countStack b t n true else s
      if bad then .uncorr s else .ok s []
    | _, _ => .refused (s.count (.baymem b) Off.BM_KEY_REFUSE 1)

/-! ### Windows and bias (R456, R459) -/

/-- Stack `j` of window `w`'s LIST. -/
def HostLink.winStack (l : HostLink) (w j : Nat) : Nat :=
  fld (SMap.get (Block.resetReg .hostLink (Off.HL_WIN_LIST w (j / 4))) l.regs (Off.HL_WIN_LIST w (j / 4))) (16 * (j % 4)) 9

def HostLink.winCfg (l : HostLink) (w : Nat) : W :=
  SMap.get (Block.resetReg .hostLink (Off.HL_WIN_CFG w)) l.regs (Off.HL_WIN_CFG w)

/-- The enabled window that holds a stack location, and the location's offset in it (R456). -/
def HostLink.windowOf (l : HostLink) (b off : Nat) : Option (Nat × Nat) :=
  (List.range 4).findSome? fun w =>
    let c := l.winCfg w
    let n := fld c 24 6
    let base := fld c 32 7 * 2 ^ 30
    if (SMap.get {} l.windows w).enable && decide (base ≤ off) && decide (off < base + fld c 40 7 * 2 ^ 30) then
      ((List.range n).find? fun j => l.winStack w j = b).map fun j => (w, ((off - base) / 4096 * n + j) * 4096 + off % 4096)
    else none

/-- The bias region, key `window × 2^20 + region`, that holds a stack location; `none` outside windows. -/
def HostLink.regionOf (l : HostLink) (b off : Nat) : Option Nat :=
  (l.windowOf b off).map fun p => p.1 * 2 ^ 20 + p.2 / 2 ^ 21

/-- The location lies in a host-bias region. -/
def HostLink.inHostBias (l : HostLink) (b off : Nat) : Bool :=
  match l.regionOf b off with
  | some r => !(r ∈ l.deviceBias)
  | none => false

end Sys2Proof.Machine
end

