-- ==== Sys2Proof/Machine/Units.lean ====
section
/-! DEFINITION. What the five units that reach virtual memory share: command rings and doorbells
(R173, R174), addresses (R179, R262), the TLB, misses and walks (R253 to R259, R652), capture of a
fault (R266 to R269), reads and writes through every address form. -/

namespace Sys2Proof.Machine

open Sys2Proof

/-! ### Rings (R173, R174) -/

/-- Register `k` (0 BASE, 1 CFG, 2 HEAD, 3 TAIL) of ring `q`: one layout on all four page types. -/
def ringOff (q k : Nat) : Nat := 0x100 + 0x20 * q + 8 * k

def Chip.ringReg (s : Chip) (cl u q k : Nat) : Nat := (s.reg (unitPage cl u) (ringOff q k)).toNat

/-- Entries rung and not complete. -/
def Chip.ringHeld (s : Chip) (cl u q : Nat) : Nat :=
  (s.ringReg cl u q 3 + 65536 - s.ringReg cl u q 2) % 65536

def Chip.ringSize (s : Chip) (cl u q : Nat) : Nat := 2 ^ (s.ringReg cl u q 1 % 16)

/-- DOORBELL_OVF lies in bit 6 of a DMA ring's CFG and in bit 5 of the others. -/
def ovfBit (u : Nat) : Nat := if u < 2 then 6 else 5

/-- A doorbell or host write gives TAIL the value `tail`, discarded when the ring would hold more than
its size (R174). -/
def Chip.ringTail (s : Chip) (cl u q tail : Nat) : Chip :=
  let tail := tail % 65536
  if (tail + 65536 - s.ringReg cl u q 2) % 65536 > s.ringSize cl u q then
    (s.modReg (unitPage cl u) (ringOff q 1) fun v => setBit v (ovfBit u)).raise (unitPage cl u) 0
  else s.setReg (unitPage cl u) (ringOff q 3) (BitVec.ofNat 64 tail)

/-- OWNER of a ring: true when only host writes of TAIL count. -/
def Chip.ringOwner (s : Chip) (cl u q : Nat) : Bool := (s.ringReg cl u q 1).testBit 4

/-- A host write of TAIL. -/
def Chip.tailWrite (s : Chip) (cl u q : Nat) (v : W) : Chip :=
  if s.ringOwner cl u q then s.ringTail cl u q (v.toNat % 65536) else s

/-- A flag-unit doorbell. -/
def Chip.doorbell (s : Chip) (cl u q : Nat) : Chip :=
  if s.ringOwner cl u q then s else s.ringTail cl u q (s.ringReg cl u q 3 + 1)

/-! ### What holds a unit -/

/-- FAULT_CAUSE bits of a unit's page: XLATE_PARK, then STACK_UNCORR and KEY_REFUSE (R276), and the bit
of a command that is not performed. -/
def parkBit (u : Nat) : Nat := if u < 2 then 1 else if u = 2 then 4 else 2
def badBit (u : Nat) : Nat := if u < 2 then 4 else 1

def Engine.parked (e : Engine) (q : Nat) : Option Park := SMap.get none e.park q
def Engine.list (e : Engine) (q : Nat) : List Active := SMap.get [] e.work q
def Engine.setList (e : Engine) (q : Nat) (l : List Active) : Engine := { e with work := SMap.set [] e.work q l }

/-- The translation of an access is outstanding at the walker or the host. -/
def Chip.waitsFor (s : Chip) (cl : Nat) (w : Waiter) : Bool :=
  (s.cl cl).ctu.ats.any (· = w) || (s.bay (clBay cl)).walks.any fun p => match p.2 with
    | some k => k.cl = cl && k.waiters.any (· = w)
    | none => false

/-- The unit issues: its page is enabled and nothing stops, halts or saves it (R172, R219, R220, R274, R277). -/
def Chip.unitIssues (s : Chip) (cl u : Nat) : Bool :=
  let e := (s.cl cl).engine u
  s.bayRuns (clBay cl) && e.page.enable && !e.dead && !s.coreHeld cl

/-- Ring `q` may work: its unit issues and it is neither parked, nor stopped, nor short of an answer that the mesh
lost. -/
def Chip.ringRuns (s : Chip) (cl u q : Nat) : Bool :=
  let e := (s.cl cl).engine u
  s.unitIssues cl u && (e.parked q).isNone && !(q ∈ e.badRings) && !(q ∈ e.lost)

/-! ### Addresses (R179, R234, R262) -/

/-- Where a command's address points: own cluster store, another cluster's store, the 56-bit VA. -/
inductive Loc where
  | store (off : Nat)
  | remote (lc off : Nat)
  | virt (va : Nat)
  deriving DecidableEq, Repr

/-- The location of an address field; `none` when a reserved bit is not 0. -/
def locOf (dma : Bool) (a : Nat) : Option Loc :=
  if a.testBit 63 then if bits a 56 7 ≠ 0 then none else some (.virt (bits a 0 56))
  else if dma && a.testBit 62 then
    if bits a 24 8 ≠ 0 ∨ bits a 44 18 ≠ 0 then none else some (.remote (bits a 32 12) (bits a 0 24))
  else if bits a 24 40 ≠ 0 then none else some (.store (bits a 0 24))

/-- The location `k` bytes on. -/
def Loc.plus : Loc → Nat → Loc
  | .store o, k => .store (o + k)
  | .remote l o, k => .remote l (o + k)
  | .virt v, k => .virt ((v + k) % 2 ^ 56)

/-- `n` bytes from the location lie within a store; a virtual range always does. -/
def Loc.fits : Loc → Nat → Bool
  | .store o, n => decide (o + n ≤ storeSize)
  | .remote _ o, n => decide (o + n ≤ storeSize)
  | .virt _, _ => true

/-- The location as a fault record's VA (R272). -/
def Loc.va : Loc → Nat
  | .virt v => v
  | _ => 0

/-! ### Results of an access -/

/-- What an access answers: done with its value; held until a translation, an answer or a copy's end comes;
faulted at a VA, as a write or a read (R266); or stopped under the unit's own error class (R241, R247, R172). -/
inductive Acc (α : Type) where
  | ok (s : Chip) (x : α)
  | wait (s : Chip)
  | fault (s : Chip) (k : FaultKind) (va : Nat)
  | stop (s : Chip)

def Acc.bind {α β : Type} (a : Acc α) (f : Chip → α → Acc β) : Acc β :=
  match a with
  | .ok s x => f s x
  | .wait s => .wait s
  | .fault s k va => .fault s k va
  | .stop s => .stop s

/-- The unit stops for good: bit `b` of its page is set and nothing more is issued. -/
def Chip.unitStop (s : Chip) (cl u b detail : Nat) : Chip :=
  (s.modEngine cl u fun e => { e with dead := true }).raise (unitPage cl u) b detail

/-! ### Translation (R252 to R259, R652) -/

def TlbEntry.covers (e : TlbEntry) (va : Nat) : Bool :=
  e.host = va.testBit 55 && decide (e.va ≤ va % 2 ^ 55) && decide (va % 2 ^ 55 < e.va + 2 ^ e.log2)

/-- CTU register counted. -/
def Chip.ctuCount (s : Chip) (cl off : Nat) : Chip := s.count (.ctu cl) off 1

/-- The entry that serves a VA, and its number: of the entries that cover it the one of the smallest page. A larger one
came later, from a walk for a part of its page that the TLB did not hold, and takes effect where the older entry stands
only after an invalidation (R256). -/
def Ctu.serving (c : Ctu) (va : Nat) : Option (Nat × TlbEntry) :=
  c.tlb.foldl (fun (a : Option (Nat × TlbEntry)) p => match p.2, a with
    | some e, none => if e.covers va then some (p.1, e) else a
    | some e, some (_, b) => if e.covers va && decide (e.log2 < b.log2) then some (p.1, e) else a
    | none, _ => a) none

/-- The entry that serves a VA, made the most recently used. -/
def Chip.tlbHit (s : Chip) (cl va : Nat) : Option (TlbEntry × Chip) :=
  let c := (s.cl cl).ctu
  (c.serving va).map fun (i, e) =>
    let e := { e with used := c.clock }
    (e, s.modCl cl fun x => { x with ctu := { x.ctu with
      clock := c.clock + 1
      tlb := SMap.set none x.ctu.tlb i (some e) } })

/-- A unit's held translation serves a VA (R254): it covers it, and no entry of the TLB holds a smaller page of it. -/
def Ctu.holds (c : Ctu) (e : TlbEntry) (va : Nat) : Bool :=
  e.covers va && (match c.serving va with | some (_, b) => decide (e.log2 ≤ b.log2) | none => true)

/-- Entries of the TLB (R253). -/
def tlbSize : Nat := 2048

/-- The entry number a new translation takes: the lowest free, else the least recently used. -/
def tlbVictim (t : SMap (Option TlbEntry)) : Nat :=
  match (List.range tlbSize).find? fun i => SMap.get none t i = none with
  | some i => i
  | none =>
    (t.foldl (fun (a : Option (Nat × Nat)) p => match p.2, a with
      | some e, some (_, u) => if e.used < u then some (p.1, e.used) else a
      | some e, none => some (p.1, e.used)
      | none, _ => a) none).map (·.1) |>.getD 0

/-- A new entry of the TLB. -/
def Chip.tlbPut (s : Chip) (cl : Nat) (e : TlbEntry) : Chip :=
  s.modCl cl fun x => { x with ctu := { x.ctu with
    clock := x.ctu.clock + 1
    tlb := SMap.set none x.ctu.tlb (tlbVictim x.ctu.tlb) (some { e with used := x.ctu.clock }) } }

/-- The leaf a walk for `va` found: the entry its lookups are served from, one that the TLB already holds or
the new one (R255, R256). -/
def Chip.tlbFill (s : Chip) (cl va : Nat) (e : TlbEntry) : TlbEntry × Chip :=
  match s.tlbHit cl va with
  | some r => r
  | none => (e, s.tlbPut cl e)

/-- The full VA of an entry's page. -/
def TlbEntry.full (e : TlbEntry) : Nat := e.va + if e.host then 2 ^ 55 else 0

def TlbEntry.overlaps (e : TlbEntry) (lo hi : Nat) : Bool := decide (e.full < hi) && decide (lo < e.full + 2 ^ e.log2)

/-- A completion's translation takes the place of what the TLB holds of its page (R258). -/
def Chip.tlbRenew (s : Chip) (cl : Nat) (e : TlbEntry) : Chip :=
  (s.modCl cl fun x => { x with ctu := { x.ctu with tlb := x.ctu.tlb.filter fun p => match p.2 with
    | some o => !o.overlaps e.full (e.full + 2 ^ e.log2)
    | none => false } }).tlbPut cl e

/-- A Translation Request on the gable's VF (R258). -/
def Chip.atsRequest (s : Chip) (cl : Nat) (w : Waiter) : Chip :=
  let s := (s.sendHost (.ats (s.clTint cl) (w.va % 2 ^ 55))).ctuCount cl Off.CTU_ATS_REQS
  s.modCl cl fun x => { x with ctu := { x.ctu with ats := x.ctu.ats ++ [w] } }

/-- Page requests of a VF outstanding. -/
def Chip.priCount (s : Chip) (t : Nat) : Nat :=
  (s.clusters.filter fun p => s.clTint p.1 = t).foldl (fun n p =>
    n + (p.2.ctu.pri.filter (·.sent)).length) 0

/-- A completion without the access needed: HOST_ATS, or a Page Request and HOST_PENDING (R259). -/
def Chip.noGrant (s : Chip) (cl : Nat) (w : Waiter) : Acc TlbEntry :=
  if !bit (s.reg (.ctu cl) Off.CTU_CFG) 1 then .fault s .hostAts w.va
  else
    let t := s.clTint cl
    let room := decide (s.priCount t < 64)
    let s := if room then s.sendHost (.pri t (w.va % 2 ^ 55)) else s
    .fault (s.modCl cl fun x => { x with ctu := { x.ctu with pri := x.ctu.pri ++ [⟨w, room⟩] } }) .hostPending w.va

/-- The rights of an entry judged for an access (R252, R259). -/
def Chip.rights (s : Chip) (cl : Nat) (w : Waiter) (e : TlbEntry) : Acc TlbEntry :=
  if (if w.write then e.writable else e.readable) then .ok s e
  else if e.host then s.noGrant cl w
  else .fault s .permission w.va

/-- A miss in the device region: it joins a walk of the same granule or starts one (R255); `none` with
sixteen walks in progress. -/
def Chip.startWalk (s : Chip) (cl : Nat) (w : Waiter) : Option Chip :=
  let b := clBay cl
  let ws := (s.bay b).walks
  match ws.find? fun p => match p.2 with
      | some k => k.cl = cl && k.va / 65536 = w.va / 65536
      | none => false with
  | some (i, some k) => some (s.modBay b fun x => { x with
      walks := SMap.set none x.walks i (some { k with waiters := k.waiters ++ [w] }) })
  | _ =>
    ((List.range 16).find? fun i => SMap.get none ws i = none).map fun i =>
      let r := s.reg (.ctu cl) Off.CTU_ROOT
      s.modBay b fun x => { x with
        walks := SMap.set none x.walks i (some ⟨cl, w.va, 3, fld r 36 9, fld r 15 21 * 32768, [w]⟩) }

/-- The translation of one access. A unit looks a page up only when it differs from the one it
translated last (R254). -/
def Chip.translate (s : Chip) (cl : Nat) (w : Waiter) : Acc TlbEntry :=
  let host := w.va.testBit 55
  let cfg := s.reg (.ctu cl) Off.CTU_CFG
  if !(s.cl cl).ctu.page.enable then .fault s (if host then .hostAts else .notPresent) w.va
  else if host && !bit cfg 0 then .fault s .hostAts w.va
  else
    let held := match ((s.cl cl).engine w.unit).trans with
      | some e => if (s.cl cl).ctu.holds e w.va then some e else none
      | none => none
    match held with
    | some e => s.rights cl w e
    | none =>
      if s.waitsFor cl w then .wait s else
      let s1 := s.ctuCount cl Off.CTU_LOOKUPS
      match s1.tlbHit cl w.va with
      | some (e, s) => (s.modEngine cl w.unit fun g => { g with trans := some e }).rights cl w e
      | none =>
        let s1 := s1.ctuCount cl Off.CTU_MISSES
        if host then .wait (s1.atsRequest cl w) else .wait ((s1.startWalk cl w).getD s)

/-! ### Physical accesses -/

/-- DETAIL of STACK_UNCORR is 0 (R601 gives BM_ECC of the bay: the report takes it there). -/
def Chip.stackFail (s : Chip) (cl u b : Nat) : Chip :=
  s.unitStop cl u (parkBit u + 1) (s.reg (.baymem b) Off.BM_ECC).toNat

/-- A packet of ring `q` of unit `u` (R300, R302, R303). -/
def Chip.unitPacket (s : Chip) (cl u q destUnit destLC ch ptype : Nat) (payload : List Byte) : Packet :=
  { destLC, destUnit, srcLC := (s.cl cl).lc.getD 0, srcSub := q, srcUnit := 9 + u, channel := ch, ptype, payload }

/-- The payload of a READ_REQ: address word and length (R300). -/
def readReq (addr n : Nat) : List Byte := leBytes 8 addr ++ leBytes 4 n

/-- The address word of a BAY packet: offset and key slot (R300). -/
def bayWord (off slot : Nat) : Nat := off + slot * 2 ^ 36

/-- Ring `q`'s access was lost in the mesh. -/
def Chip.ringLost (s : Chip) (cl u q : Nat) : Chip := s.modEngine cl u fun e => { e with lost := e.lost ++ [q] }

/-- The ring's stack read waits for its answer, or no more (R177). -/
def Chip.setHeld (s : Chip) (cl u q : Nat) (h : Option HeldRead) : Chip :=
  s.modEngine cl u fun e => { e with held := SMap.set none e.held q h }

/-- Of its requests that are out, `n` of them at stack `b`, what a wait says (R177, R238). -/
def Hold.read (h : Hold) (b n : Nat) : Option HeldRead :=
  match h with
  | .unsent => none
  | .tracked => some ⟨b, n, true⟩
  | _ => some ⟨b, n, false⟩

/-- READ_REQs that controller `b` tracks: packets of channel 8 delivered to it, and reads of the bay's units that wait
there (R238, R309). -/
def Chip.readsTracked (s : Chip) (b : Nat) : Nat :=
  let packets := ((s.bay b).arrived.filter fun p => p.2.destUnit = 0x10 && p.2.ptype = 2 && p.2.channel = 8).length
  s.clusters.foldl (fun n p => (List.range 5).foldl (fun n u => (p.2.engine u).held.foldl (fun n h => match h.2 with
    | some k => if k.bay = b && k.tracked then n + k.n else n
    | none => n) n) n) packets

/-- Reads a controller tracks at once (R238). -/
def maxReads : Nat := 384

/-- What bay memory controller `b` does with a delivered request: its tint is the bay's (R333). -/
def Chip.atBay (s : Chip) (b far : Nat) (f : Chip → StackRes) : StackRes :=
  if clBay far ≠ b then .lost s
  else if !s.bayOk b then .busy .mesh
  else f s

/-- The pieces of lines lo ≤ l < hi (in bytes) that each lie in one 256-byte chunk (R237). -/
def chunks256 : Nat → Nat → Nat → List (Nat × Nat)
  | 0, _, _ => []
  | fuel + 1, lo, hi =>
    if lo ≥ hi then []
    else
      let n := min (hi - lo) (256 - lo % 256)
      (lo, n) :: chunks256 fuel (lo + n) hi

/-! ### Host bias (R452, R462, R651) -/

/-- Lines of a piece within one chunk. -/
def linesWithin (o n : Nat) : List Nat := (List.range ((o + n + 63) / 64 - o / 64)).map fun i => 64 * (o / 64 + i)

/-- The host's answer for a line, once it has come: `n` is 64 for a read and 0 for ownership. -/
def Engine.biasAnswer (e : Engine) (q b line n : Nat) : Option (List Byte) :=
  ((SMap.get [] e.hostReads q).find? fun h =>
    h.va = line && h.n = n && (match h.through with | some r => clBay r = b | none => false)).bind HostRead.data

/-- The bias request of one line at window offset `o`, sent with its window's number in byte 13 (log entry 14) by controller `b` through its router `far` (R651) and carried to the host bridge.
One lost on the way is never answered. -/
def Chip.biasSend (s : Chip) (cl u q far w o line : Nat) (own : Bool) : Chip :=
  let n := if own then 0 else 64
  let note (seq : Nat) (s : Chip) : Chip := s.modEngine cl u fun e =>
    { e with hostReads := SMap.upd [] e.hostReads q (· ++ [{ va := line, n, seq, through := some far, asked := s.now }]) }
  if s.link.held || !s.mayInject far 0x10 11 then s
  else
    let (k, out, s1) := s.stamped far
      { destLC := 0, destUnit := 0x13, srcLC := clBay far, srcUnit := 0x10, channel := 11, ptype := 2
        payload := leBytes 8 o ++ leBytes 4 64 ++ leBytes 1 (if own then 2 else 1) ++ leBytes 1 w }
    let sent (s : Chip) : Chip :=
      note k.seq (s.modRouter far fun r => { r with outstanding := r.outstanding ++ [out] })
    match s1.carry k maxHops far with
    | .held h => s.waiting h
    | .lost s => sent s
    | .at s home p =>
      if p ≠ 0xA || !s.hostOpen home then sent s
      else
        let s := (sent s).sendHost (.bias own w o)
        { s with link := { s.link with reads := s.link.reads ++ [(home, k)] } }

/-- The bias requests that an access to a piece of stack `b` still needs: `none` when it may go on; else the state with
the next one sent, when it can be. The unit's own request `k` reaches the controller first, and waits there. -/
def Chip.biasAsk (s : Chip) (cl u q b : Nat) (k : Packet) (own : Bool) (o n : Nat) : Option Chip :=
  let e := (s.cl cl).engine u
  let m := if own then 0 else 64
  if !s.link.inHostBias b o then none
  else
    let need := (linesWithin o n).filter fun l => (e.biasAnswer q b l m).isNone
    if need.isEmpty then none
    else
      let asked (l : Nat) : Bool := (SMap.get [] e.hostReads q).any fun h =>
        h.va = l && h.n = m && (match h.through with | some r => clBay r = b | none => false)
      match need.find? (!asked ·), s.link.windowOf b o with
      | some l, some (w, x) =>
        match s.carry (s.stamped cl k).1 maxHops cl with
        | .at _ far 9 => if clBay far = b then some (s.biasSend cl u q far w (x + l - o) l own) else none
        | _ => none
      | _, _ => some s

/-- Bytes of a piece with the lines the host returned in place of the stack's (R462). -/
def Engine.withHost (e : Engine) (q b o : Nat) (bs : List Byte) : List Byte :=
  (linesWithin o bs.length).flatMap fun l =>
    match e.biasAnswer q b l 64 with
    | some (x :: xs) => x :: xs
    | _ => (bs.drop (l - o)).take 64

/-- The ownership that writes have used is given up. -/
def Chip.dropOwned (s : Chip) (cl u q : Nat) : Chip :=
  s.modEngine cl u fun e => { e with hostReads := SMap.upd [] e.hostReads q fun l => l.filter fun h => h.n ≠ 0 }

/-- The lines from `lo` to `hi` of stack `e.stack`, one READ_REQ per chunk (R237, R303). What waits has not
begun. -/
def Chip.stackAsk (s0 : Chip) (cl u q : Nat) (e : TlbEntry) : List (Nat × Nat) → Chip → List Byte → Acc (List Byte)
  | [], s, bs => .ok (s.setHeld cl u q none) bs
  | (o, n) :: rest, s, bs =>
    let t := s.clTint cl
    let k := s.unitPacket cl u q 0x10 e.stack 8 2 (readReq (bayWord o e.key) n)
    match s0.biasAsk cl u q e.stack k false o n with
    | some s => .wait (s.setHeld cl u q (some ⟨e.stack, rest.length + 1, true⟩))
    | none =>
      match s.exchange cl k fun s far => s.atBay e.stack far fun s =>
          if s.readsTracked e.stack ≥ maxReads then .busy .ingress else s.stackRead e.stack e.key t o n with
      | .ok s b => Chip.stackAsk s0 cl u q e rest s
          (bs ++ if s.link.inHostBias e.stack o then ((s.cl cl).engine u).withHost q e.stack o b else b)
      | .busy h => .wait ((s0.waiting h).setHeld cl u q (h.read e.stack (rest.length + 1)))
      | .lost s => .wait ((s.ringLost cl u q).setHeld cl u q (some ⟨e.stack, rest.length + 1, false⟩))
      | .refused s => .stop (s.unitStop cl u (parkBit u + 2) 0)
      | .uncorr s => .stop (s.stackFail cl u e.stack)

/-- The host's answers a ring is done with: its piece has been moved. -/
def Chip.dropHost (s : Chip) (cl u q : Nat) : Chip :=
  s.modEngine cl u fun e => { e with hostReads := SMap.set [] e.hostReads q [] }

/-- A host-region read (R258, R452): what the host answered, or its READ_REQ carried to the host bridge and
sent to the host, whose answer HOST_READ_COMPLETION brings. -/
def Chip.hostAsk (s : Chip) (cl u q va addr n : Nat) : Acc (List Byte) :=
  let e := (s.cl cl).engine u
  match (SMap.get [] e.hostReads q).find? fun h => h.va = va && h.n = n && h.through.isNone with
  | some h =>
    match h.data with
    | some bs => .ok s bs
    | none => .wait s
  | none =>
    let t := s.clTint cl
    let k := s.unitPacket cl u q 0x13 0 11 2 (readReq addr n)
    if s.link.held || !s.mayInject cl k.srcUnit 11 then .wait s
    else
      let (k, o, s1) := s.stamped cl k
      let sent (s : Chip) : Chip := s.modRouter cl fun r => { r with outstanding := r.outstanding ++ [o] }
      match s1.carry k maxHops cl with
      | .held h => .wait (s.waiting h)
      | .lost s => .wait ((sent s).ringLost cl u q)
      | .at s far p =>
        if p ≠ 0xA || !s.hostOpen far then .wait ((sent s).ringLost cl u q)
        else
          let s := (sent s).hostGet t addr n
          let s : Chip := { s with link := { s.link with reads := s.link.reads ++ [(far, k)] } }
          .wait (s.modEngine cl u fun e =>
            { e with hostReads := SMap.upd [] e.hostReads q (· ++ [{ va, n, seq := k.seq, asked := s.now }]) })

/-- A read of `n` bytes through a translation. -/
def Chip.physRead (s : Chip) (cl u q : Nat) (e : TlbEntry) (va n : Nat) : Acc (List Byte) :=
  let off := e.offset + (va % 2 ^ 55 - e.va)
  if e.host then s.hostAsk cl u q va off n
  else
    let lo := off / 64 * 64
    let hi := (off + n + 63) / 64 * 64
    (Chip.stackAsk s cl u q e (chunks256 (n / 256 + 2) lo hi) s []).bind fun s bs => .ok s ((bs.drop (off - lo)).take n)

/-- The chunks a write of bytes from `off` is cut into (R237). -/
def Chip.stackTell (cl u q : Nat) (e : TlbEntry) (bs : List Byte) (off : Nat) : List (Nat × Nat) → Chip → Acc Unit
  | [], s => .ok s ()
  | (o, n) :: rest, s =>
    let t := s.clTint cl
    let part := (bs.drop (o - off)).take n
    let k := s.unitPacket cl u q 0x10 e.stack 8 0 (leBytes 8 (bayWord o e.key) ++ part)
    match s.biasAsk cl u q e.stack k true o n with
    | some s => .wait s
    | none =>
      match s.exchange cl k fun s far => s.atBay e.stack far fun s => s.stackWrite e.stack e.key t o part with
      | .ok s _ => Chip.stackTell cl u q e bs off rest (s.dropOwned cl u q)
      | .busy h => .wait (s.waiting h)
      | .lost s => .wait (s.ringLost cl u q)
      | .refused s => .stop (s.unitStop cl u (parkBit u + 2) 0)
      | .uncorr s => .stop (s.stackFail cl u e.stack)

/-- A write through a translation; of a host page the HOST packet that carries it (R452). -/
def Chip.physWrite (s : Chip) (cl u q : Nat) (e : TlbEntry) (va : Nat) (bs : List Byte) : Acc Unit :=
  let off := e.offset + (va % 2 ^ 55 - e.va)
  let t := s.clTint cl
  if e.host then
    match s.exchange cl (s.unitPacket cl u q 0x13 0 11 0 (leBytes 8 off ++ bs)) fun s far =>
        if !s.hostOpen far then .lost s else if s.link.held then .busy .mesh else .ok (s.hostPut t off bs) [] with
    | .ok s _ => .ok s ()
    | .busy h => .wait (s.waiting h)
    | .lost s => .wait (s.ringLost cl u q)
    | .refused s => .ok s ()
    | .uncorr s => .ok s ()
  else Chip.stackTell cl u q e bs off (chunks256 (bs.length / 256 + 2) off (off + bs.length)) s

/-! ### Stores of other clusters (R233, R264, R300) -/

/-- A STORE READ_REQ at the cluster it was delivered in. -/
def Chip.storeAsked (s : Chip) (cl off n : Nat) : StackRes :=
  if n = 0 || n > 8192 || off + n > storeSize then .refused s
  else match (s.cl cl).storeRead off n with
    | (x, some bs) => .ok (s.setCl cl x) bs
    | (x, none) => .refused ((s.setCl cl x).storeStop cl false)

/-- STORE data at the cluster it was delivered in: a range beyond the store, or a merge into an uncorrectable
word, is refused. -/
def Chip.storeTold (s : Chip) (cl off : Nat) (bs : List Byte) : StackRes :=
  if off + bs.length > storeSize then .refused s
  else match (s.cl cl).storeWrite off bs with
    | (x, true) => .ok (s.setCl cl x) []
    | (x, false) => .refused ((s.setCl cl x).storeStop cl false)

/-- A remote read: its READ_REQ and READ_RESP. A refusal brings no data, so the ring goes no further (log
entry 54). -/
def Chip.remoteRead (s : Chip) (cl u q lc off n : Nat) : Acc (List Byte) :=
  match s.exchange cl (s.unitPacket cl u q 1 lc 8 2 (readReq off n)) fun s far => s.storeAsked far off n with
  | .ok s bs => .ok s bs
  | .busy h => .wait (s.waiting h)
  | .lost s => .wait (s.ringLost cl u q)
  | .refused s => .wait (s.ringLost cl u q)
  | .uncorr s => .wait (s.ringLost cl u q)

/-- A remote write: complete when its acknowledgement returns, ACK_ERR as well (R264, R307). -/
def Chip.remoteWrite (s : Chip) (cl u q lc off : Nat) (bs : List Byte) : Acc Unit :=
  match s.exchange cl (s.unitPacket cl u q 1 lc 8 0 (leBytes 8 off ++ bs)) fun s far => s.storeTold far off bs with
  | .ok s _ => .ok s ()
  | .busy h => .wait (s.waiting h)
  | .lost s => .wait (s.ringLost cl u q)
  | .refused s => .ok s ()
  | .uncorr s => .ok s ()

/-! ### Accesses at a location -/

/-- Translations of `n` bytes from `va`, cut at 4 KiB. -/
def Chip.xlate (cl u q pl : Nat) (side write : Bool) : Nat → Nat → Nat → Chip → Acc (List (TlbEntry × Nat × Nat))
  | 0, _, _, s => .ok s []
  | fuel + 1, va, n, s =>
    if n = 0 then .ok s []
    else
      let m := min n (4096 - va % 4096)
      (s.translate cl ⟨u, q, va, side, write, pl⟩).bind fun s e =>
        (xlate cl u q pl side write fuel ((va + m) % 2 ^ 56) (n - m) s).bind fun s l => .ok s ((e, va, m) :: l)

/-- The STORE_ECC stop met by an engine. -/
def Chip.storeFail {α : Type} (s : Chip) (cl : Nat) (x : Cluster) : Acc α := .stop ((s.setCl cl x).storeStop cl false)

/-- A read of `n` bytes at a location by the command at `pl` of ring `q` of unit `u`; `side` tells a destination. -/
def Chip.unitRead (s : Chip) (cl u q pl : Nat) (side : Bool) (l : Loc) (n : Nat) : Acc (List Byte) :=
  match l with
  | .store o =>
    match (s.cl cl).storeRead o n with
    | (x, some bs) => .ok (s.setCl cl x) bs
    | (x, none) => s.storeFail cl x
  | .remote lc o => s.remoteRead cl u q lc o n
  | .virt va =>
    (Chip.xlate cl u q pl side false (n / 4096 + 2) va n s).bind fun s ps =>
      ps.foldl (fun a p => a.bind fun s bs =>
        (s.physRead cl u q p.1 p.2.1 p.2.2).bind fun s b => .ok s (bs ++ b)) (.ok s [])

/-- A write of bytes at a location. -/
def Chip.unitWrite (s : Chip) (cl u q pl : Nat) (l : Loc) (bs : List Byte) : Acc Unit :=
  match l with
  | .store o =>
    match (s.cl cl).storeWrite o bs with
    | (x, true) => .ok (s.setCl cl x) ()
    | (x, false) => s.storeFail cl x
  | .remote lc o => s.remoteWrite cl u q lc o bs
  | .virt va =>
    (Chip.xlate cl u q pl true true (bs.length / 4096 + 2) va bs.length s).bind fun s ps =>
      (ps.foldl (fun (a : Acc (List Byte)) p => a.bind fun s bs =>
        (s.physWrite cl u q p.1 p.2.1 (bs.take p.2.2)).bind fun s _ => .ok s (bs.drop p.2.2)) (.ok s bs)).bind
          fun s _ => .ok s ()

/-! ### Commands of a ring -/

/-- Byte fields of a command. -/
def cmdFld (c : BitVec 512) (off len : Nat) : Nat := recFld c off len

/-- TAG of a command: bytes 40 to 43 of a DMA descriptor, 60 to 63 of a skylight command, else 44 to 47. -/
def cmdTag (u : Nat) (c : BitVec 512) : Nat := cmdFld c (if u < 2 then 40 else if u = 4 then 60 else 44) 4

/-- The command `i` places behind HEAD, read from the ring in the cluster store. -/
def Chip.fetchCmd (s : Chip) (cl u q i : Nat) : Acc (BitVec 512) :=
  let at_ := (s.ringReg cl u q 2 + i) % s.ringSize cl u q
  (s.unitRead cl u q 0 false (.store (s.ringReg cl u q 0 + 64 * at_)) 64).bind fun s bs =>
    .ok s (BitVec.ofNat 512 (leNat bs))

/-- The active command of a ring at `pl`, and it changed. -/
def Engine.cmdAt (e : Engine) (q pl : Nat) : Option Active := (e.list q).find? fun a => a.place = pl
def Engine.modCmd (e : Engine) (q pl : Nat) (f : Active → Active) : Engine :=
  e.setList q ((e.list q).map fun a => if a.place = pl then f a else a)

def Engine.last (e : Engine) (q : Nat) : Option Active := (e.list q).getLast?

def Chip.setProgress (s : Chip) (cl u q pl n : Nat) : Chip :=
  s.modEngine cl u fun e => e.modCmd q pl fun a => { a with progress := n }

def Chip.finish (s : Chip) (cl u q pl : Nat) : Chip :=
  s.modEngine cl u fun e => e.modCmd q pl fun a => { a with finished := true }

/-- Capture of a fault (R269): the park registers are written and CAPTURING is 1 until UNIT_PARK. A fault of
another command of a parked ring is met again when that ring goes on. -/
def Chip.capture (s : Chip) (cl u q : Nat) (k : FaultKind) (w : Waiter) : Chip :=
  let e := (s.cl cl).engine u
  match e.parked q, e.cmdAt q w.place with
  | none, some a =>
    s.modEngine cl u fun e => { e with park := SMap.set none e.park q (some
      { kind := k, side := w.side, write := w.write, phase := a.phase, va := w.va, progress := a.progress,
        time := s.clTime cl, head := s.ringReg cl u q 2, tag := cmdTag u a.cmd, place := w.place }) }
  | _, _ => s

/-- What an access's answer leaves: the command's position is `n`; a fault's VA is the byte there (R272). -/
def Chip.settle (cl u q pl n : Nat) (side write : Bool) {α : Type} (a : Acc α) : Chip :=
  match a with
  | .ok s _ => s.setProgress cl u q pl n
  | .wait s => s.setProgress cl u q pl n
  | .stop s => s.setProgress cl u q pl n
  | .fault s k va => (s.setProgress cl u q pl n).capture cl u q k ⟨u, q, va, side, write, pl⟩

/-- A command that is not performed: its bit is set, and its unit or DMA ring stops at it. -/
def Chip.badCmd (s : Chip) (cl u q b : Nat) (c : BitVec 512) : Chip :=
  if u < 2 then (s.modEngine cl u fun e => { e with badRings := e.badRings ++ [q] }).raise (unitPage cl u) b
  else
    let pg := unitPage cl u
    let first := (s.page pg).fault
    let s :=
      if u = 2 ∧ fld first 1 3 = 0 then s.setReg pg Off.TH_BAD_TAG (BitVec.ofNat 64 (cmdTag u c))
      else if u = 4 then s.setReg pg Off.SKY_BAD_TAG (BitVec.ofNat 64 (cmdTag u c))
      else s
    s.unitStop cl u b 0

end Sys2Proof.Machine
end

