-- ==== Sys2Proof/Machine/Dma.lean ====
section
/-! DEFINITION. The DMA engines (R173 to R178, R261 to R265): descriptors, COPY, FILL, completion. -/

namespace Sys2Proof.Machine

open Sys2Proof

/-- FLAGS[1] of a descriptor. -/
def cvtEn (c : BitVec 512) : Bool := c.getLsbD 9
/-- Source and destination bytes of one element moved: 4 and 2 narrowing, 2 and 4 widening, else 1. -/
def cvtSizes (c : BitVec 512) : Nat × Nat :=
  if !cvtEn c then (1, 1) else if cmdFld c 4 1 = 0x10 then (4, 2) else (2, 4)

def dLength (c : BitVec 512) : Nat := cmdFld c 24 4
def dRows (c : BitVec 512) : Nat := cmdFld c 28 4
def dSrcStride (c : BitVec 512) : Nat := cmdFld c 32 4
def dDstStride (c : BitVec 512) : Nat := cmdFld c 36 4
/-- Bytes of a destination row (R263). -/
def dDstLen (c : BitVec 512) : Nat := dLength c / (cvtSizes c).1 * (cvtSizes c).2

/-- A location names a cluster the unit may reach: a remote cluster is committed in the gable (R265). -/
def Chip.locReach (s : Chip) (cl : Nat) : Loc → Bool
  | .remote lc _ => match s.physOf lc with
    | some p => s.clTint p = s.clTint cl
    | none => false
  | _ => true

/-- The whole of `rows` rows of `len` bytes from a location lies in its store. -/
def rowsFit (l : Loc) (rows len stride : Nat) : Bool := l.fits ((rows - 1) * stride + len)

/-- R265: the descriptor is not performed. -/
def Chip.descBad (s : Chip) (cl : Nat) (c : BitVec 512) : Bool :=
  let op := cmdFld c 0 1
  let copy := op = 1
  match locOf true (cmdFld c 8 8), locOf true (cmdFld c 16 8) with
  | some src, some dst =>
    !(op = 1 || op = 2) || decide (cmdFld c 1 1 ≥ 4) || decide (cmdFld c 5 3 ≠ 0) ||
      decide (cmdFld c 44 4 ≠ 0) || decide (cmdFld c 56 8 ≠ 0) ||
      decide (dLength c = 0) || decide (dRows c = 0) ||
      (cvtEn c && (!copy || !(cmdFld c 4 1 = 0x10 || cmdFld c 4 1 = 0x01) ||
        decide (dLength c % (cvtSizes c).1 ≠ 0))) ||
      (!copy && decide (cmdFld c 8 8 ≠ 0)) ||
      !s.locReach cl dst || (copy && !s.locReach cl src) ||
      !rowsFit dst (dRows c) (dDstLen c) (dDstStride c) ||
      (copy && !rowsFit src (dRows c) (dLength c) (dSrcStride c))
  | _, _ => true

/-- FP32 to BF16 or back, without status (R263). -/
def cvtBytes (c : BitVec 512) (bs : List Byte) : List Byte :=
  let (a, b) := cvtSizes c
  if a = b then bs
  else (List.range (bs.length / a)).flatMap fun i =>
    let x := leNat ((bs.drop (a * i)).take a)
    leBytes b (if a = 4 then (bf16F.encodeIeee (fp32F.decode x)).1 else (fp32F.encodeIeee (bf16F.decode x)).1)

/-- The address within its page or line. -/
def Loc.addr : Loc → Nat
  | .store o => o
  | .remote _ o => o
  | .virt v => v

/-- Elements moved at once (R176): to the end of the row, of the source line and of the destination line; an
element is never split. -/
def pieceLen (left a b src dst : Nat) : Nat :=
  min left (min (max 1 ((64 - dst % 64) / b)) (max 1 ((64 - src % 64) / a)))

/-- What ring or command `q` holds of a piece whose write waits: it is not read again (R343). -/
def Chip.setHand (s : Chip) (cl u q : Nat) (bs : List Byte) : Chip :=
  s.modEngine cl u fun e => { e with hand := SMap.set [] e.hand q bs }

/-- One piece of the active descriptor `d` of ring `q`, moved from its PROGRESS in the order of R267; whether it moved. -/
def Chip.dmaPiece (s : Chip) (cl u q : Nat) (d : Active) : Chip × Bool :=
  let c := d.cmd
  match locOf true (cmdFld c 8 8), locOf true (cmdFld c 16 8) with
  | some src, some dst =>
    let pos := d.progress
    let len := dLength c
    let (a, b) := cvtSizes c
    let fill := decide (cmdFld c 0 1 = 2)
    let r := pos / len
    let i := pos % len
    let from_ := src.plus (r * dSrcStride c + i)
    let to_ := dst.plus (r * dDstStride c + i / a * b)
    let m := pieceLen ((len - i) / a) a b from_.addr to_.addr
    let data : Acc (List Byte) := match SMap.get [] ((s.cl cl).engine u).hand q with
      | [] =>
        if fill then .ok s ((List.range m).map fun k => BitVec.ofNat 8 (cmdFld c (48 + (i + k) % 8) 1))
        else (s.unitRead cl u q 0 false from_ (m * a)).bind fun s bs => .ok s (cvtBytes c bs)
      | bs => .ok s bs
    match data with
    | .ok s bs =>
      match s.unitWrite cl u q 0 to_ bs with
      | .ok s _ =>
        let s := if fill then s else s.count (unitPage cl u) Off.DMA_BYTES_READ (m * a)
        let s := (s.count (unitPage cl u) Off.DMA_BYTES_WRITTEN (m * b)).dropHost cl u q
        let s := (s.setProgress cl u q 0 (pos + m * a)).setHand cl u q []
        (if pos + m * a ≥ len * dRows c then s.finish cl u q 0 else s, true)
      | .wait s => (s.setHand cl u q bs, false)
      | r => ((settle cl u q 0 pos true true r).setHand cl u q [], false)
    | r => (settle cl u q 0 pos false false r, false)
  | _, _ => (s, false)

/-- The descriptor a ring works on, when it may work. -/
def Chip.dmaActive (s : Chip) (cl u q : Nat) : Option Active :=
  if !s.ringRuns cl u q then none
  else match ((s.cl cl).engine u).last q with
    | some d => if d.finished then none else some d
    | none => none

/-- The active descriptors move a line each in turn by ring number, after the ring served last (R176, R649),
until that of ring `q` is finished or held. `idle` are the rings held in this run. -/
def Chip.dmaTurns (cl u q : Nat) : Nat → List Nat → Chip → Chip
  | 0, _, s => s
  | fuel + 1, idle, s =>
    let ready := (List.range 4).filter fun r => !(r ∈ idle) && (s.dmaActive cl u r).isSome
    if !(q ∈ ready) then s
    else match rotate (some ((s.cl cl).engine u).lastRing) ready with
      | none => s
      | some r =>
        match s.dmaActive cl u r with
        | none => s
        | some d =>
          let (s, moved) := s.dmaPiece cl u r d
          let s := s.modEngine cl u fun e => { e with lastRing := r }
          dmaTurns cl u q fuel (if moved then idle else idle ++ [r]) s

/-- Bytes the active descriptors have left, a bound of their turns. -/
def Chip.dmaLeft (s : Chip) (cl u : Nat) : Nat :=
  (List.range 4).foldl (fun n r => match s.dmaActive cl u r with
    | some d => n + dLength d.cmd * dRows d.cmd + 1 - d.progress
    | none => n) 4

def Chip.dmaGo (s : Chip) (cl u q : Nat) : Chip := Chip.dmaTurns cl u q (s.dmaLeft cl u) [] s

/-- Ring `r` starts the descriptor at its HEAD when it has none in progress and is neither empty nor paused (R176, R178). -/
def Chip.dmaStart (cl u : Nat) (s : Chip) (r : Nat) : Chip :=
  if !s.ringRuns cl u r || (((s.cl cl).engine u).last r).isSome || s.ringHeld cl u r = 0 || (s.ringReg cl u r 1).testBit 5 then s
  else match s.fetchCmd cl u r 0 with
    | .ok s1 c => if s1.descBad cl c then s1.badCmd cl u r (badBit u) c else s1.modEngine cl u fun e => e.setList r [{ cmd := c }]
    | .stop s => s
    | _ => s

/-- COPY or FILL on ring `q`: the active descriptor goes on, or the entry at HEAD starts when its OP is the command's (an
OP not listed is met by either). The engine works on the descriptors of the other rings with it, line by line in turn. -/
def Chip.dmaRun (s : Chip) (cl u q op : Nat) : Chip :=
  let go : Chip := ((List.range 4).foldl (Chip.dmaStart cl u) s).dmaGo cl u q
  if !s.ringRuns cl u q then s
  else match ((s.cl cl).engine u).last q with
    | some a => if a.finished || cmdFld a.cmd 0 1 ≠ op then s else go
    | none =>
      if s.ringHeld cl u q = 0 || (s.ringReg cl u q 1).testBit 5 then s
      else match s.fetchCmd cl u q 0 with
        | .ok _ c => if (cmdFld c 0 1 = 1 || cmdFld c 0 1 = 2) && cmdFld c 0 1 ≠ op then s else go
        | _ => go

/-- COPY (R263). -/
def execCopy (cl eng ring : Nat) (s : State) : Out := s.run fun s =>
  onUnit (cl < 4032 && eng < 2 && ring < 4) (s.dmaRun cl eng ring 1)

/-- FILL (R263). -/
def execFill (cl eng ring : Nat) (s : State) : Out := s.run fun s =>
  onUnit (cl < 4032 && eng < 2 && ring < 4) (s.dmaRun cl eng ring 2)

/-- A set handed to the flag unit by a command with DONE_EN (R175). -/
def Chip.doneFlag (s : Chip) (cl u : Nat) (c : BitVec 512) : Chip :=
  if c.getLsbD 8 then
    let src : SetSource := match u with
      | 0 => .dma0 | 1 => .dma1 | 2 => .thatcher | 3 => .gutter | _ => .skylight
    s.modCl cl fun x => { x with sets := x.sets ++ [⟨src, .flag (cmdFld c 2 2)⟩] }
  else s

/-- The oldest command of a ring completes once it has finished: HEAD advances and its flag is raised
(R175, R184). -/
def Chip.complete (s : Chip) (cl u q : Nat) (after : Chip → Chip) : Chip :=
  let e := (s.cl cl).engine u
  match e.list q with
  | [] => s
  | a :: l =>
    if !a.finished || !s.unitIssues cl u || (e.parked q).isSome then s
    else
      let s := s.modEngine cl u fun e => e.setList q l
      let s := s.modReg (unitPage cl u) (ringOff q 2) (wrapField 16 1)
      after (s.doneFlag cl u a.cmd)

/-- DMA_DESC_COMPLETE (R175). -/
def execDmaDescComplete (cl eng ring : Nat) (s : State) : Out := s.run fun s =>
  onUnit (cl < 4032 && eng < 2 && ring < 4)
    (s.complete cl eng ring fun s => s.count (unitPage cl eng) Off.DMA_DESC_DONE 1)

end Sys2Proof.Machine
end

