-- ==== Sys2Proof/Machine/Gutter.lean ====
section
/-! DEFINITION. The gutter (R179 to R190): integer path, FSUM, valleys, completion, receive slots. -/

namespace Sys2Proof.Machine

open Sys2Proof

/-! ### Fields of a command (R179) -/

def gOp (c : BitVec 512) : Nat := cmdFld c 0 1
def gCount (c : BitVec 512) : Nat := cmdFld c 4 4
def gScale (c : BitVec 512) : Int := signedOf 16 (cmdFld c 32 2)
def gValley (c : BitVec 512) : Nat := bits (cmdFld c 34 1) 0 4
def gValleyB (c : BitVec 512) : Nat := bits (cmdFld c 35 1) 0 4
def gFmtA (c : BitVec 512) : Nat := bits (cmdFld c 36 1) 0 4
def gFmtB (c : BitVec 512) : Nat := bits (cmdFld c 36 1) 4 4
def gNsrc (c : BitVec 512) : Nat := cmdFld c 37 1
def gStride (c : BitVec 512) : Nat := cmdFld c 40 4
def gRaw (c : BitVec 512) : Bool := c.getLsbD 9

/-- Bytes of an operand element and of a result element of the integer path and FSUM. -/
def laneSizes : Nat → Nat × Nat
  | 0x01 => (4, 8) | 0x02 => (8, 8) | 0x03 => (8, 4) | 0x04 => (8, 6) | 0x05 => (6, 8) | _ => (4, 4)

def gutterOps : List Nat := [0x01, 0x02, 0x03, 0x04, 0x05, 0x06, 0x10, 0x11, 0x12, 0x13, 0x14, 0x15]

/-- Formats a valley takes: of each value of a product any element format but INT32, without block scales; of a
single value FP32, BF16 or FP8 (R78). The two values of a product may be of different formats (log entry 51). -/
def dotFmt (f : Nat) : Bool := f ≤ 0xE
def addFmt (f : Nat) : Bool := f ≤ 0x3

/-- Bytes of `n` packed elements of a format. -/
def packBytes (f n : Nat) : Nat := (n * elemWidth f + 7) / 8

/-- The ranges a command uses: SRC_A, SRC_B, DST, each with its bytes. -/
def gRanges (c : BitVec 512) : List (Nat × Nat) :=
  let n := gCount c
  let op := gOp c
  if op ≤ 0x06 then
    let (a, b) := laneSizes op
    let src := if op = 0x06 then (gNsrc c - 1) * gStride c + n * 4 else n * a
    [(8, src), (24, n * b)] ++ (if op = 0x02 then [(16, n * 8)] else [])
  else match op with
    | 0x10 => [(8, packBytes (gFmtA c) n), (16, packBytes (gFmtB c) n)]
    | 0x11 => [(8, packBytes (gFmtA c) n)]
    | 0x13 => [(24, if gRaw c then 88 else 4)]
    | 0x15 => [(8, 88)]
    | _ => []

/-- R183: the command is not performed. Of what R179 and R181 to R186 forbid in a field and R183 does not list (a
SCALE_EXP outside -512..511, NSRC 0 or above 64, a SRC_STRIDE that is no multiple of 4, FLAGS[7:2] or a reserved address
bit that is not 0), a command with any is bad as well (DESIGN CHOICE, log entry 13). -/
def gutterBad (c : BitVec 512) : Bool :=
  let op := gOp c
  !(op ∈ gutterOps) || decide (cmdFld c 1 1 ≥ 4) || decide (cmdFld c 38 2 ≠ 0) || decide (cmdFld c 48 16 ≠ 0) ||
    (decide (op ≤ 0x11) && decide (gCount c = 0)) ||
    ((op = 0x01 || op = 0x03) && !(decide (-512 ≤ gScale c) && decide (gScale c ≤ 511))) ||
    (op = 0x06 && (decide (gNsrc c = 0) || decide (gNsrc c > 64) || decide (gStride c % 4 ≠ 0))) ||
    (op = 0x10 && !(dotFmt (gFmtA c) && dotFmt (gFmtB c))) ||
    (op = 0x11 && !addFmt (gFmtA c)) ||
    (gRanges c).any fun r => match locOf false (cmdFld c r.1 8) with
      | some l => !l.fits r.2
      | none => true

/-! ### The integer path (R181, R182, R186) -/

def lane48 : Int := 2 ^ 47 - 1
def lane25 : Int := 2 ^ 24 - 1

def clampTo (m i : Int) : Int := max (-m) (min m i)

/-- QUANT of one value: the lane, and whether it missed the scale. -/
def quantLane (scale : Int) (x : XNum) : Int × Bool :=
  match x with
  | .nan => (0, true)
  | .inf n => (if n then -lane25 else lane25, true)
  | .fin n m e =>
    let i := roundInt n m (e - scale)
    (clampTo lane25 i, decide (clampTo lane25 i ≠ i))

/-- A 64-bit sum and whether the true sum left the range (R182). -/
def laneAdd (a b : Nat) : Nat × Bool :=
  let t := signedOf 64 a + signedOf 64 b
  ((t % 2 ^ 64).toNat, decide (t < -(2 ^ 63) ∨ t ≥ 2 ^ 63))

def codeOf (w : Nat) (i : Int) : Nat := (i % 2 ^ w).toNat

/-- One element of the integer path: result, status, scale miss. -/
def laneOp (op : Nat) (scale : Int) (a b : Nat) : Nat × Status × Bool :=
  match op with
  | 0x01 => let (q, miss) := quantLane scale (fp32F.decode a); (codeOf 64 q, {}, miss)
  | 0x02 => let (r, w) := laneAdd a b; (r, { intWrap := w }, false)
  | 0x03 =>
    let q := signedOf 64 a
    ((fp32F.encodeIeee (.fin (decide (q < 0)) q.natAbs scale)).1, {}, false)
  | 0x04 =>
    let q := signedOf 64 a
    (codeOf 48 (clampTo lane48 q), { intSat := decide (clampTo lane48 q ≠ q) }, false)
  | _ => (codeOf 64 (signedOf 48 a), {}, false)

/-- Values of `w` bytes each. -/
def cutBytes (w : Nat) (bs : List Byte) : List Nat :=
  (List.range (bs.length / w)).map fun i => leNat ((bs.drop (w * i)).take w)

/-- FP32 sum of one element over the vectors, in ascending j, rounded after each addition (R186). -/
def fsumElem (vs : List (List Nat)) (i : Nat) : Nat :=
  match vs with
  | [] => 0
  | v :: rest =>
    let x := BitVec.ofNat 32 (v.getD i 0)
    (rest.foldl (fun (a : W32) u => (fpAdd a (BitVec.ofNat 32 (u.getD i 0))).1)
      (if (fpDecode x).isNan then fp32F.nan else x)).toNat

/-- SCALE_MISS is set in a gutter of gable `t`: a FAULT window opens, to the end of the attempt (R373). -/
def Chip.noteMiss (s : Chip) (t : Nat) : Chip :=
  if t = 0 then s
  else s.modGable t fun g => if g.step = .running then { g with misses := g.misses ++ [s.now] } else g

/-- GT_ASTAT and GT_SMISS after a command's events (R181, R182, R88). -/
def Chip.gutterStatus (s : Chip) (cl : Nat) (st : Status) (miss : Bool) (tag : Nat) : Chip :=
  let pg := PageRef.gutter cl
  let first := miss && !bit (s.reg pg Off.GT_ASTAT) 4
  let s := s.modReg pg Off.GT_ASTAT fun v => v ||| st.gtAstat ||| bitIf miss 4
  if first then (s.setReg pg Off.GT_SMISS (BitVec.ofNat 64 tag)).noteMiss (s.clTint cl) else s

/-- Read `i` of a piece of the command at `pl`: what an earlier run of the same piece has read is in the hand, and is
not read again (R343). -/
def Chip.handRead (s : Chip) (cl pl i : Nat) (l : Loc) (n : Nat) : Acc (List Byte) :=
  match SMap.get [] ((s.cl cl).engine 3).hand (128 * pl + i) with
  | [] => (s.unitRead cl 3 0 pl false l n).bind fun s bs => .ok (s.setHand cl 3 (128 * pl + i) bs) bs
  | bs => .ok s bs

/-- The piece of the command at `pl` is over: its hand is empty. -/
def Chip.emptyHand (s : Chip) (cl pl : Nat) : Chip :=
  s.modEngine cl 3 fun e => { e with hand := e.hand.filter fun p => p.1 / 128 ≠ pl }

/-- A piece that stopped at position `p`: one that waits keeps its hand. -/
def Chip.settleHand (cl pl p : Nat) (side write : Bool) {α : Type} (a : Acc α) : Chip :=
  match a with
  | .wait s => s.setProgress cl 3 0 pl p
  | a => (settle cl 3 0 pl p side write a).emptyHand cl pl

/-- The vectors of FSUM's element range, read in ascending j. -/
def Chip.fsumRead (cl pl : Nat) (src : Loc) (stride bytes : Nat) : List Nat → Chip → Acc (List (List Nat))
  | [], s => .ok s []
  | j :: js, s =>
    (s.handRead cl pl j (src.plus (j * stride)) bytes).bind fun s bs =>
      (fsumRead cl pl src stride bytes js s).bind fun s l => .ok s (cutBytes 4 bs :: l)

/-- The operand bytes of elements `p` to `p + m` of a lane command, as result codes. -/
def Chip.laneRead (s : Chip) (cl pl : Nat) (c : BitVec 512) (a b : Loc) (p m : Nat) :
    Acc (List Nat × Status × Bool) :=
  let op := gOp c
  let w := (laneSizes op).1
  if op = 0x06 then
    (Chip.fsumRead cl pl (a.plus (4 * p)) (gStride c) (4 * m) (List.range (gNsrc c)) s).bind fun s vs =>
      .ok s ((List.range m).map (fsumElem vs), {}, false)
  else
    (s.handRead cl pl 0 (a.plus (w * p)) (w * m)).bind fun s xs =>
      (if op = 0x02 then s.handRead cl pl 1 (b.plus (w * p)) (w * m) else .ok s []).bind fun s ys =>
        let us := cutBytes w xs
        let vs := cutBytes w ys
        let rs := (List.range m).map fun i => laneOp op (gScale c) (us.getD i 0) (vs.getD i 0)
        .ok s (rs.map (·.1), rs.foldl (fun st r => st.or r.2.1) {}, rs.any (·.2.2))

/-- Lines of the operands that elements `p` to `p + m` of a lane command reach for the first time: what GT_LINES
counts (log entry 55). -/
def laneLines (c : BitVec 512) (a b : Loc) (p m : Nat) : Nat :=
  let w := (laneSizes (gOp c)).1
  let new (l : Loc) : Nat := linesOf l.addr (w * (p + m)) - linesOf l.addr (w * p)
  if gOp c = 0x06 then (List.range (gNsrc c)).foldl (fun n j => n + new (a.plus (j * gStride c))) 0
  else if gOp c = 0x02 then new a + new b
  else new a

/-- The integer path and FSUM from element `p` on. -/
def Chip.laneMoves (cl pl : Nat) (c : BitVec 512) (a b d : Loc) : Nat → Nat → Chip → Chip
  | 0, _, s => s
  | fuel + 1, p, s =>
    if p ≥ gCount c then (s.setProgress cl 3 0 pl p).finish cl 3 0 pl
    else
      let (w, r) := laneSizes (gOp c)
      let to_ := d.plus (r * p)
      let room (l : Loc) : Nat := max 1 ((64 - (l.plus (w * p)).addr % 64) / w)
      let m := min (pieceLen (gCount c - p) w r (a.plus (w * p)).addr to_.addr) (room b)
      let m := if gOp c = 0x06 then
          (List.range (gNsrc c)).foldl (fun m j => min m (room (a.plus (j * gStride c)))) m
        else m
      match s.laneRead cl pl c a b p m with
      | .ok s (codes, st, miss) =>
        match s.unitWrite cl 3 0 pl to_ (codes.flatMap fun x => leBytes r x) with
        | .ok s _ =>
          let s := s.gutterStatus cl st miss (cmdTag 3 c)
          let s := ((s.count (.gutter cl) Off.GT_LINES (laneLines c a b p m)).dropHost cl 3 0).emptyHand cl pl
          laneMoves cl pl c a b d fuel (p + m) s
        | x => settleHand cl pl p true true x
      | x => settleHand cl pl p false false x

/-! ### Valleys (R77 to R83, R180) -/

def Cluster.valley (x : Cluster) (v : Nat) : Valley := SMap.get {} x.valleys v
def Chip.setValley (s : Chip) (cl v : Nat) (y : Valley) : Chip :=
  s.modCl cl fun x => { x with valleys := SMap.set {} x.valleys v y }

/-- Elements `p` to `p + m` of a packed run, operand `i` of the command: the bytes that hold them, read whole. DESIGN
CHOICE (log entry 51): an MX operand, which R78 takes without block scales, lies as the bare packed run of its elements,
with no scale byte between blocks. -/
def Chip.runRead (s : Chip) (cl pl i : Nat) (l : Loc) (f p m : Nat) : Acc (List XNum) :=
  let w := elemWidth f
  let lo := p * w / 8
  let hi := ((p + m) * w + 7) / 8
  (s.handRead cl pl i (l.plus lo) (hi - lo)).bind fun s bs =>
    let x := leNat bs >>> (p * w - 8 * lo)
    .ok s ((List.range m).map fun i => elemDecode f (elemAt w x i))

/-- Elements of a run from `p` that lie before the next 4 KiB boundary, at least one. -/
def runRoom (l : Loc) (f p : Nat) : Nat :=
  let w := elemWidth f
  let lo := p * w / 8
  max 1 (((lo + (4096 - (l.plus lo).addr % 4096)) * 8) / w - p)

/-- Terms of VDOT or VADD from index `p` on. -/
def Chip.termMoves (cl pl : Nat) (c : BitVec 512) (a b : Loc) : Nat → Nat → Chip → Chip
  | 0, _, s => s
  | fuel + 1, p, s =>
    if p ≥ gCount c then (s.setProgress cl 3 0 pl p).finish cl 3 0 pl
    else
      let dot := gOp c = 0x10
      let m := min (min (gCount c - p) 64) (min (runRoom a (gFmtA c) p) (if dot then runRoom b (gFmtB c) p else 64))
      match s.runRead cl pl 0 a (gFmtA c) p m with
      | .ok s xs =>
        let ys : Acc (List XNum) := if dot then s.runRead cl pl 1 b (gFmtB c) p m else .ok s []
        match ys with
        | .ok s ys =>
          let terms := if dot then List.zipWith XNum.mul xs ys else xs.map fun x => (x, false)
          let (v, st) := terms.foldl (fun (q : Valley × Status) t =>
            let (v, e) := q.1.addTerm t.1 t.2
            (v, q.2.or e)) ((s.cl cl).valley (gValley c), {})
          let s := (s.setValley cl (gValley c) v).gutterStatus cl st false 0
          termMoves cl pl c a b fuel (p + m) (((s.count (.gutter cl) Off.GT_TERMS m).dropHost cl 3 0).emptyHand cl pl)
        | x => settleHand cl pl p false false x
      | x => settleHand cl pl p false false x

/-- The raw image of a valley (R180). -/
def Valley.raw (v : Valley) : List Byte :=
  leBytes 80 v.v.toNat ++ leBytes 8 v.special.code

/-- The valley of a raw image; `none` when it is malformed. -/
def Valley.ofRaw (bs : List Byte) : Option Valley :=
  let tail := leNat (bs.drop 80)
  let sp : Option Special := match tail with
    | 0 => some .none | 1 => some .posInf | 2 => some .negInf | 3 => some .nan | _ => none
  sp.map fun sp => { v := BitVec.ofNat 640 (leNat (bs.take 80)), special := sp }

/-- VMERGE, VREAD, VCLR and VADDRAW: one effect each. -/
def Chip.valleyOne (s : Chip) (cl pl : Nat) (c : BitVec 512) (a d : Loc) : Chip :=
  let x := s.cl cl
  let v := gValley c
  let merge (s : Chip) (y : Valley) : Chip :=
    let (r, st) := ((s.cl cl).valley v).merge y
    (((s.setValley cl v r).gutterStatus cl st false 0).dropHost cl 3 0).finish cl 3 0 pl
  match gOp c with
  | 0x12 => merge s (x.valley (gValleyB c))
  | 0x14 => (s.setValley cl v {}).finish cl 3 0 pl
  | 0x13 =>
    let (bs, st) :=
      if gRaw c then ((x.valley v).raw, ({} : Status))
      else
        let (w, st) := (x.valley v).toFp32
        (leBytes 4 w.toNat, st)
    match s.unitWrite cl 3 0 pl d bs with
    | .ok s _ => (s.gutterStatus cl st false 0).finish cl 3 0 pl
    | r => settle cl 3 0 pl 0 true true r
  | _ =>
    match s.unitRead cl 3 0 pl false a 88 with
    | .ok s bs =>
      match Valley.ofRaw bs with
      | some y => merge s y
      | none =>
        (s.modEngine cl 3 fun e => e.setList 0 ((e.list 0).filter fun a => a.place ≠ pl)).badCmd cl 3 0 (badBit 3) c
    | r => settle cl 3 0 pl 0 false false r

/-! ### Starting and completing (R184) -/

/-- The valleys a command names. -/
def valleysOf (c : BitVec 512) : List Nat :=
  if gOp c < 0x10 then [] else if gOp c = 0x12 then [gValley c, gValleyB c] else [gValley c]

/-- Valleys in use by commands started and not complete (GT_VALLEY_BUSY). -/
def Engine.valleysBusy (e : Engine) : List Nat := (e.list 0).flatMap fun a => valleysOf a.cmd

/-- A started command carried on from its PROGRESS. -/
def Chip.gutterGo (s : Chip) (cl pl : Nat) : Chip :=
  match (s.cl cl).gutter.cmdAt 0 pl with
  | none => s
  | some act =>
    let c := act.cmd
    let loc (off : Nat) : Loc := (locOf false (cmdFld c off 8)).getD (.store 0)
    if act.finished || !s.ringRuns cl 3 0 then s
    else if gOp c ≤ 0x06 then
      Chip.laneMoves cl pl c (loc 8) (if gOp c = 0x02 then loc 16 else loc 8) (loc 24) (gCount c + 1) act.progress s
    else if gOp c ≤ 0x11 then Chip.termMoves cl pl c (loc 8) (loc 16) (gCount c + 1) act.progress s
    else s.valleyOne cl pl c (loc 8) (loc 24)

/-- The next command in ring order starts when its OP is `op` (an OP not listed is met by any): on valleys that no
earlier command uses, beside at most sixteen valley commands at work or no other integer or FSUM command. -/
def Chip.gutterStart (s : Chip) (cl op : Nat) : Chip :=
  let e := (s.cl cl).gutter
  let acts := e.list 0
  if s.ringHeld cl 3 0 ≤ acts.length then s
  else match s.fetchCmd cl 3 0 acts.length with
    | .ok s1 c =>
      let kind (d : BitVec 512) : Bool := decide (gOp d < 0x10)
      let peers := (acts.filter fun a => !a.finished && kind a.cmd = kind c).length
      let pl := (s.ringReg cl 3 0 2 + acts.length) % 65536
      if gOp c ∈ gutterOps ∧ gOp c ≠ op then s
      else if gutterBad c then s1.badCmd cl 3 0 (badBit 3) c
      else if (valleysOf c).any (fun v => v ∈ e.valleysBusy) || peers ≥ (if kind c then 1 else 16) then s
      else (s1.modEngine cl 3 fun e => e.setList 0 (acts ++ [{ cmd := c, place := pl }])).gutterGo cl pl
    | .stop s => s
    | _ => s

/-- The commands with OP `op` that are at work go on; when none of them can, the next starts (R184). -/
def Chip.gutterRun (s : Chip) (cl op : Nat) : Chip :=
  if !s.ringRuns cl 3 0 then s
  else
    let acts := (s.cl cl).gutter.list 0
    let s := (acts.filter fun a => !a.finished && gOp a.cmd = op).foldl (fun s a => s.gutterGo cl a.place) s
    if (s.cl cl).gutter.list 0 ≠ acts || !s.ringRuns cl 3 0 then s else s.gutterStart cl op

def gutterExec (cl op : Nat) (s : Chip) : Eff := onUnit (cl < 4032) (s.gutterRun cl op)

/-- QUANT (R181). -/
def execQuant (cl : Nat) (s : State) : Out := s.run fun s => gutterExec cl 0x01 s
/-- IADD (R182). -/
def execIadd (cl : Nat) (s : State) : Out := s.run fun s => gutterExec cl 0x02 s
/-- DEQUANT (R179). -/
def execDequant (cl : Nat) (s : State) : Out := s.run fun s => gutterExec cl 0x03 s
/-- PACK48 (R182). -/
def execPack48 (cl : Nat) (s : State) : Out := s.run fun s => gutterExec cl 0x04 s
/-- UNPACK48 (R179). -/
def execUnpack48 (cl : Nat) (s : State) : Out := s.run fun s => gutterExec cl 0x05 s
/-- FSUM (R186). -/
def execFsum (cl : Nat) (s : State) : Out := s.run fun s => gutterExec cl 0x06 s
/-- VDOT (R183). -/
def execVdot (cl : Nat) (s : State) : Out := s.run fun s => gutterExec cl 0x10 s
/-- VADD (R183). -/
def execVadd (cl : Nat) (s : State) : Out := s.run fun s => gutterExec cl 0x11 s
/-- VMERGE (R82). -/
def execVmerge (cl : Nat) (s : State) : Out := s.run fun s => gutterExec cl 0x12 s
/-- VREAD (R83). -/
def execVread (cl : Nat) (s : State) : Out := s.run fun s => gutterExec cl 0x13 s
/-- VCLR. -/
def execVclr (cl : Nat) (s : State) : Out := s.run fun s => gutterExec cl 0x14 s
/-- VADDRAW (R180). -/
def execVaddraw (cl : Nat) (s : State) : Out := s.run fun s => gutterExec cl 0x15 s

/-- GUTTER_CMD_COMPLETE (R184). -/
def execGutterCmdComplete (cl : Nat) (s : State) : Out := s.run fun s => onUnit (cl < 4032) (s.complete cl 3 0 id)

/-! ### Receive slots (R187 to R190) -/

/-- The values of a slot packet's payload after its first eight bytes; `none` when they are no whole number. -/
def slotValues (int48 : Bool) (payload : List Byte) : Option (List Nat) :=
  let w := if int48 then 6 else 8
  let body := payload.drop 8
  if payload.length < 8 ∨ body.length % w ≠ 0 then none
  else some ((cutBytes w body).map fun x => if int48 then codeOf 64 (signedOf 48 x) else x)

/-- A slot whose count of packets is EXPECT sets its flag and clears ENABLE (R189). -/
def Chip.slotFull (s : Chip) (cl n : Nat) : Chip :=
  let pg := PageRef.gutter cl
  let cfg := s.reg pg (Off.GT_SLOT_CFG n)
  if fld (s.reg pg (Off.GT_SLOT_COUNT n)) 0 28 ≠ fld cfg 36 28 then s
  else
    let name := fld (s.reg pg (Off.GT_SLOT_FLAG n)) 0 16
    (s.modReg pg (Off.GT_SLOT_CFG n) fun v => clrBit v 0).modCl cl fun x =>
      { x with sets := x.sets ++ [⟨.gutter, .flag name⟩] }

/-- A packet for slot `n`: added (`true`), or dropped and counted (R188), or not added for a lane in an
uncorrectable word (R172). -/
def Chip.slotAdd (s : Chip) (cl n : Nat) (payload : List Byte) : Chip × Bool :=
  let pg := PageRef.gutter cl
  let drop : Chip × Bool := (s.count pg Off.GT_SLOT_DROP 1, false)
  let cfg := s.reg pg (Off.GT_SLOT_CFG n)
  if n > 15 || !bit cfg 0 then drop
  else
    let first := leNat (payload.take 8)
    match slotValues (bit cfg 1) payload with
    | none => drop
    | some vs =>
      if first + vs.length > fld cfg 16 20 then drop
      else
        let at_ := fld (s.reg pg (Off.GT_SLOT_BASE n)) 0 24 + 8 * first
        match (s.cl cl).storeRead at_ (8 * vs.length) with
        | (x, none) => ((s.setCl cl x).storeStop cl false, false)
        | (x, some bs) =>
          let sums := List.zipWith laneAdd (cutBytes 8 bs) vs
          let (x, _) := x.storeWrite at_ (sums.flatMap fun p => leBytes 8 p.1)
          let s := (s.setCl cl x).gutterStatus cl { intWrap := sums.any (·.2) } false 0
          let s := s.modReg pg (Off.GT_SLOT_COUNT n) (wrapField 28 1)
          (s.slotFull cl n, true)

/-- A host write of GT_SLOTs_CFG: a rise of ENABLE is checked and zeroes the packet count (R189, R203). -/
def Chip.slotWrite (s : Chip) (cl n : Nat) (v : W) : Chip :=
  let pg := PageRef.gutter cl
  let old := s.reg pg (Off.GT_SLOT_CFG n)
  let v := v &&& 0xFFFFFFFFFFFF0003#64
  if bit v 0 && !bit old 0 then
    let lanes := fld v 16 20
    let base := fld (s.reg pg (Off.GT_SLOT_BASE n)) 0 24
    let s1 := s.setReg pg (Off.GT_SLOT_CFG n) (clrBit v 0)
    if base + 8 * lanes > storeSize then s1.refuse pg 0x0101 (Off.GT_SLOT_BASE n)
    else if lanes = 0 then s1.refuse pg 0x0101 (Off.GT_SLOT_CFG n)
    else
      let s := (s.setReg pg (Off.GT_SLOT_CFG n) v).setReg pg (Off.GT_SLOT_COUNT n) 0#64
      (s.modPage pg fun p => { p with refused := false }).slotFull cl n
  else s.setReg pg (Off.GT_SLOT_CFG n) v

end Sys2Proof.Machine
end

