-- ==== Sys2Proof/Machine/Thatcher.lean ====
section
/-! DEFINITION. The thatcher (R204 to R220): stored tiles, PACK, UNPACK, GATHER. A command reads its
whole source into the tile buffer, then writes (R216). -/

namespace Sys2Proof.Machine

open Sys2Proof

/-! ### Tiles (R204 to R211) -/

/-- Element bytes of a 32-element group, and its group bytes. -/
def tileE (f : Nat) : Nat := if f = 0xE then 8 else 4 * elemWidth f
def tileG (f : Nat) : Nat := if f = 0xE then 2 else if isMx f then 1 else 0
/-- Dense data size D and packed block size P (R210). -/
def tileD (f : Nat) : Nat := 512 * (tileE f + tileG f)
def blockLen (f : Nat) : Nat := 16 * (tileE f / 2) + 16 * tileG f
def tileP (f : Nat) : Nat := (blockLen f + 63) / 64 * 64

def present (mask b : Nat) : Bool := mask.testBit b
def blocksOf (mask : Nat) : List Nat := (List.range 64).filter fun b => present mask b

/-- A tile in hand: the element bytes of row `r`, block column `bc` (half a group), and the group bytes
of (r, g); absent blocks are +0 codes. -/
structure Tile where
  fmt : Nat
  mask : Nat
  half : Nat → Nat → List Byte
  gbytes : Nat → Nat → List Byte

def groupPresent (mask r g : Nat) : Bool :=
  present mask (8 * (r / 16) + 2 * g) || present mask (8 * (r / 16) + 2 * g + 1)

/-- Group bytes of a group whose blocks are both absent (R208). -/
def emptyG (f : Nat) : List Byte :=
  if f = 0xE then [0x7F#8, 0x00#8] else if isMx f then [0x7F#8] else []

def zeros (n : Nat) : List Byte := List.replicate n 0#8

/-- The element bytes of row `r`, block column `bc`, with absent blocks as +0 codes. -/
def Tile.el (t : Tile) (r bc : Nat) : List Byte :=
  if present t.mask (8 * (r / 16) + bc) then t.half r bc else zeros (tileE t.fmt / 2)

def Tile.grp (t : Tile) (r g : Nat) : List Byte :=
  if groupPresent t.mask r g then t.gbytes r g else emptyG t.fmt

/-- Whether the thatcher writes the packed form (R210). -/
def packedForm (f mask : Nat) : Bool := decide ((blocksOf mask).length * tileP f < tileD f)

/-- The stored tile (R207 to R210). -/
def Tile.stored (t : Tile) : List Byte :=
  let f := t.fmt
  let pk := packedForm f t.mask
  let bs := blocksOf t.mask
  let off := if !pk && tileG f > 0 then 16 + 512 * tileE f else 0
  let head := leBytes 1 f ++ leBytes 1 (b2n pk) ++ leBytes 2 bs.length ++ leBytes 2 off ++ zeros 2 ++ leBytes 8 t.mask
  let data :=
    if pk then
      bs.flatMap fun b =>
        let rows := (List.range 16).map fun i => 16 * (b / 8) + i
        (rows.flatMap fun r => t.half r (b % 8)) ++ (rows.flatMap fun r => t.gbytes r (b % 8 / 2)) ++
          zeros (tileP f - blockLen f)
    else
      ((List.range 128).flatMap fun r => (List.range 8).flatMap fun bc => t.el r bc) ++
        ((List.range 128).flatMap fun r => (List.range 4).flatMap fun g => t.grp r g)
  head ++ data

/-- R211, of the sixteen header bytes. -/
def tileBad (h : List Byte) : Bool :=
  let x := leNat h
  let f := bits x 0 4
  let pk := bits x 8 1 = 1
  let n := bits x 16 16
  let mask := bits x 64 64
  f = 0xF || bits x 4 4 ≠ 0 || bits x 9 7 ≠ 0 || bits x 48 16 ≠ 0 || n ≠ (blocksOf mask).length ||
    bits x 32 16 ≠ (if !pk && tileG f > 0 then 16 + 512 * tileE f else 0) || (pk && n * tileP f ≥ tileD f)

def hdrFmt (h : List Byte) : Nat := bits (leNat h) 0 4
def hdrPacked (h : List Byte) : Bool := bits (leNat h) 8 1 = 1
def hdrMask (h : List Byte) : Nat := bits (leNat h) 64 64

/-- The byte ranges of a tile that are read after its header, ascending: no byte of an absent block. -/
def tileRanges (h : List Byte) : List (Nat × Nat) :=
  let f := hdrFmt h
  let mask := hdrMask h
  let e := tileE f
  if hdrPacked h then
    (List.range (blocksOf mask).length).map fun i => (16 + i * tileP f, blockLen f)
  else
    ((List.range 128).flatMap fun r => (List.range 8).filterMap fun bc =>
      if present mask (8 * (r / 16) + bc) then some (16 + (4 * r + bc / 2) * e + bc % 2 * (e / 2), e / 2) else none) ++
    (if tileG f = 0 then []
     else (List.range 128).flatMap fun r => (List.range 4).filterMap fun g =>
       if groupPresent mask r g then some (16 + 512 * e + (4 * r + g) * tileG f, tileG f) else none)

/-- Bytes at tile offset `off` among the bytes read, which follow the ranges in order. -/
def rangeGet (rs : List (Nat × Nat)) (data : List Byte) (off n : Nat) : List Byte :=
  match rs with
  | [] => []
  | (o, l) :: rest =>
    if o ≤ off ∧ off + n ≤ o + l then (data.drop (off - o)).take n else rangeGet rest (data.drop l) off n

/-- The tile of the bytes read after its header. -/
def Tile.ofRead (h data : List Byte) : Tile :=
  let f := hdrFmt h
  let mask := hdrMask h
  let rs := tileRanges h
  let e := tileE f
  let g := tileG f
  let ix (b : Nat) : Nat := ((blocksOf mask).filter fun c => c < b).length
  if hdrPacked h then
    { fmt := f
      mask
      half := fun r bc => rangeGet rs data (16 + ix (8 * (r / 16) + bc) * tileP f + r % 16 * (e / 2)) (e / 2)
      gbytes := fun r q =>
        let b := 8 * (r / 16) + 2 * q
        let b := if present mask b then b else b + 1
        rangeGet rs data (16 + ix b * tileP f + 16 * (e / 2) + r % 16 * g) g }
  else
    { fmt := f
      mask
      half := fun r bc => rangeGet rs data (16 + (4 * r + bc / 2) * e + bc % 2 * (e / 2)) (e / 2)
      gbytes := fun r q => rangeGet rs data (16 + 512 * e + (4 * r + q) * g) g }

/-! ### UNPACK (R214) -/

/-- A mask with block (br, bc) taken as block (bc, br). -/
def transMask (m : Nat) : Nat :=
  (List.range 64).foldl (fun a b => if present m (8 * (b % 8) + b / 8) then a + 2 ^ b else a) 0

/-- Code of element (r, c) of a plain format. -/
def Tile.code (t : Tile) (r c : Nat) : Nat :=
  elemAt (elemWidth t.fmt) (leNat (t.el r (c / 16))) (c % 16)

/-- Value of element (r, c) of an MX or Shingle-2 tile; +0 in an absent block. -/
def Tile.value (t : Tile) (r c : Nat) : XNum :=
  if present t.mask (8 * (r / 16) + c / 16) then
    let g := c / 32
    ((blockValues t.fmt (t.el r (2 * g) ++ t.el r (2 * g + 1) ++ t.grp r g)).1).getD (c % 32) XNum.zero
  else XNum.zero

/-- The transposed tile: its codes in the stored format, or FP32 for a format with group bytes. -/
def Tile.transpose (t : Tile) : Tile :=
  let f := if isBlock t.fmt then 0x0 else t.fmt
  let el (r c : Nat) : Nat :=
    if isBlock t.fmt then (fp32F.encodeIeee (t.value c r)).1 else t.code c r
  { fmt := f
    mask := transMask t.mask
    half := fun r bc =>
      leBytes (tileE f / 2) (packElems (elemWidth f) ((List.range 16).map fun i => el r (16 * bc + i)))
    gbytes := fun _ _ => [] }

/-- Operand A of a tile (R104): every group, or with COMPACT those of each band that hold a present block. -/
def Tile.operand (t : Tile) (compact : Bool) : List Byte :=
  (List.range 128).flatMap fun r => (List.range 4).flatMap fun g =>
    if !compact || groupPresent t.mask r g then t.el r (2 * g) ++ t.el r (2 * g + 1) ++ t.grp r g else []

/-! ### Commands (R212, R213, R215, R219) -/

def tFlag (c : BitVec 512) (i : Nat) : Bool := c.getLsbD (8 + i)
def tIn (c : BitVec 512) : Nat := bits (cmdFld c 4 1) 0 4
def tOut (c : BitVec 512) : Nat := bits (cmdFld c 4 1) 4 4
def tN (c : BitVec 512) : Nat := cmdFld c 5 1
def tMask (c : BitVec 512) : Nat := cmdFld c 24 8
def tStride (c : BitVec 512) : Nat := cmdFld c 32 4

/-- Blocks of the B stream kept by a GATHER mask. -/
def gatherKb (c : BitVec 512) : List Nat := blocksOf (tMask c)
def gatherLen (c : BitVec 512) : Nat := tN c * pairBlock (tIn c)
/-- Blocks of a GATHER's source: to the highest kept. -/
def gatherExt (c : BitVec 512) : Nat := if tMask c = 0 then 0 else (tMask c).log2 + 1

def packElemLen (c : BitVec 512) : Nat := if tIn c = 0 then 4 else 2

/-- The ranges a PACK reads, from SRC: the rows of its present blocks (R213). -/
def packRanges (c : BitVec 512) : List (Nat × Nat) :=
  let w := 16 * packElemLen c
  (List.range 128).flatMap fun r => (List.range 8).filterMap fun bc =>
    if present (tMask c) (8 * (r / 16) + bc) then some (r * tStride c + bc * w, w) else none

/-- R219, the first case. -/
def thatcherBad (c : BitVec 512) : Bool :=
  let op := cmdFld c 0 1
  !(op = 1 || op = 2 || op = 3) || decide (cmdFld c 1 1 ≥ 8) || decide (cmdFld c 6 2 ≠ 0) ||
    decide (cmdFld c 36 8 ≠ 0) || decide (cmdFld c 48 16 ≠ 0) ||
    (match locOf false (cmdFld c 8 8), locOf false (cmdFld c 16 8) with
     | some src, some dst =>
       (op = 1 && (tOut c = 0xF || !(tIn c = 0 || tIn c = 1) ||
         (packRanges c).any (fun r => !src.fits (r.1 + r.2)) ||
         !dst.fits (16 + (if packedForm (tOut c) (tMask c) then (blocksOf (tMask c)).length * tileP (tOut c) else tileD (tOut c))))) ||
       (op = 2 && !src.fits 16) ||
       (op = 3 && (decide (tN c = 0) || decide (tN c > 64) || tIn c = 0x0 || tIn c ≥ 0xE ||
         (match src, dst with
          | .store a, .store b =>
            let n := gatherExt c * gatherLen c
            let m := (gatherKb c).length * gatherLen c
            !src.fits n || !dst.fits m || (decide (a < b + m) && decide (b < a + n))
          | _, _ => true)))
     | _, _ => true)

/-- The ranges a command reads, from SRC; `none` until an UNPACK has its header. -/
def thRanges (c : BitVec 512) (buf : List Byte) : List (Nat × Nat) :=
  match cmdFld c 0 1 with
  | 1 => packRanges c
  | 2 => (0, 16) :: if buf.length < 16 then [] else tileRanges (buf.take 16)
  | _ => (gatherKb c).map fun kb => (kb * gatherLen c, gatherLen c)

/-- Where source byte number `pos` of the ranges lies, and how many follow it in its range. -/
def rangeAt : List (Nat × Nat) → Nat → Option (Nat × Nat)
  | [], _ => none
  | (o, l) :: rest, pos => if pos < l then some (o + pos, l - pos) else rangeAt rest (pos - l)

/-- The source values of a PACK: those of present blocks (R213). -/
def packValue (c : BitVec 512) (buf : List Byte) (r col : Nat) : XNum :=
  let w := packElemLen c
  let x := leNat (rangeGet (thRanges c buf) buf (r * tStride c + col * w) w)
  if present (tMask c) (8 * (r / 16) + col / 16) then
    (if w = 4 then fp32F.decode x else bf16F.decode x)
  else XNum.zero

/-- One encoded group of a PACK: element bytes, group bytes, status. -/
def packGroup (c : BitVec 512) (buf : List Byte) (r g : Nat) : List Byte × List Byte × Status :=
  let f := tOut c
  let xs := (List.range 32).map fun i => packValue c buf r (32 * g + i)
  if isBlock f then
    let (bs, st) := blockEncode f false [] xs
    (bs.take (tileE f), bs.drop (tileE f), st)
  else
    let rs := xs.map fun x => elemEncode f true none x
    (leBytes (tileE f) (packElems (elemWidth f) (rs.map (·.1))), [], rs.foldl (fun a p => a.or p.2) {})

/-- The tile a PACK stores and its status events. -/
def packTile (c : BitVec 512) (buf : List Byte) : Tile × Status :=
  let f := tOut c
  let mask := tMask c
  let gs := (List.range 512).map fun i =>
    if groupPresent mask (i / 4) (i % 4) then packGroup c buf (i / 4) (i % 4) else (zeros (tileE f), emptyG f, {})
  let at_ (r g : Nat) := gs.getD (4 * r + g) ([], [], ({} : Status))
  ({ fmt := f
     mask
     half := fun r bc => ((at_ r (bc / 2)).1.drop (bc % 2 * (tileE f / 2))).take (tileE f / 2)
     gbytes := fun r g => (at_ r g).2.1 },
   gs.foldl (fun st p => st.or p.2.2) {})

/-! ### Running -/

/-- A thatcher command is not performed, for cause `b`: it leaves the unit, which executes no later one. -/
def Chip.thFail (s : Chip) (cl b : Nat) (c : BitVec 512) : Chip :=
  (s.modEngine cl 2 fun e => { e.setList 0 [] with buf := [] }).badCmd cl 2 0 b c

/-- The first `n` bytes of the ranges. -/
def rangeTake : List (Nat × Nat) → Nat → List (Nat × Nat)
  | [], _ => []
  | (o, l) :: rest, n => if n = 0 then [] else (o, min l n) :: rangeTake rest (n - l)

/-- Lines of the `m` bytes at `o` from SRC that the ranges read before do not touch: each line counts once (R217). -/
def freshLines (src : Loc) (before : List (Nat × Nat)) (o m : Nat) : Nat :=
  let a := (src.plus o).addr
  ((List.range (linesOf a m)).filter fun i => !(before.any fun p =>
    let b := (src.plus p.1).addr
    b / 64 ≤ a / 64 + i && a / 64 + i < b / 64 + linesOf b p.2)).length

/-- The write phase from byte `p` of the buffer. -/
def Chip.thWrite (cl : Nat) (d : Loc) (out : List Byte) : Nat → Nat → Chip → Chip
  | 0, _, s => s
  | fuel + 1, p, s =>
    if p ≥ out.length then (s.setProgress cl 2 0 0 p).finish cl 2 0 0
    else
      let to_ := d.plus p
      let m := min (out.length - p) (64 - to_.addr % 64)
      match s.unitWrite cl 2 0 0 to_ ((out.drop p).take m) with
      | .ok s _ => thWrite cl d out fuel (p + m) (s.count (.thatcher cl) Off.TH_LINES 1)
      | r => settle cl 2 0 0 p true true r

/-- The command begins to write `out` (R216). -/
def Chip.thTurn (s : Chip) (cl : Nat) (d : Loc) (out : List Byte) : Chip :=
  let s := s.modEngine cl 2 fun e => { e.modCmd 0 0 fun a => { a with phase := true, progress := 0 } with buf := out }
  Chip.thWrite cl d out (out.length + 1) 0 s

/-- Everything is read: what the command writes. -/
def Chip.thDone (s : Chip) (cl : Nat) (c : BitVec 512) (d : Loc) (buf : List Byte) : Chip :=
  let pg := PageRef.thatcher cl
  match cmdFld c 0 1 with
  | 1 =>
    let (t, st) := packTile c buf
    let s := s.modReg pg Off.TH_ASTAT (· ||| st.thAstat)
    let s := s.count pg (if packedForm t.fmt t.mask then Off.TH_PACKED else Off.TH_DENSE) 1
    s.thTurn cl d t.stored
  | 2 =>
    let t := Tile.ofRead (buf.take 16) (buf.drop 16)
    let t := if tFlag c 2 then t.transpose else t
    let out := t.operand (tFlag c 1)
    if !d.fits out.length then s.thFail cl 1 c
    else (s.count pg Off.TH_UNPACKED 1).thTurn cl d out
  | _ => s.thTurn cl d buf

/-- The read phase: `buf` holds the bytes read, PROGRESS is their number. -/
def Chip.thRead (cl : Nat) (c : BitVec 512) (src d : Loc) : Nat → Chip → Chip
  | 0, s => s
  | fuel + 1, s =>
    let buf := (s.cl cl).thatcher.buf
    let p := buf.length
    let pg := PageRef.thatcher cl
    let header := cmdFld c 0 1 = 2 && p = 16
    if header && tileBad buf then s.thFail cl 2 c
    else if header && hdrMask buf ≠ tMask c then
      let first := !bit (s.page pg).fault 3
      (if first then s.setReg pg Off.TH_BAD_BITMAP (BitVec.ofNat 64 (hdrMask buf)) else s).thFail cl 3 c
    else if header && (tileRanges buf).any (fun r => !src.fits (r.1 + r.2)) then s.thFail cl 1 c
    else match rangeAt (thRanges c buf) p with
      | none => s.thDone cl c d buf
      | some (o, left) =>
        let from_ := src.plus o
        let m := min left (4096 - from_.addr % 4096)
        match s.unitRead cl 2 0 0 false from_ m with
        | .ok s bs => thRead cl c src d fuel
            ((((s.count pg Off.TH_LINES (freshLines src (rangeTake (thRanges c buf) p) o m)).modEngine cl 2 fun e => { e with buf := buf ++ bs }).setProgress cl 2 0 0 (p + m)).dropHost cl 2 0)
        | r => settle cl 2 0 0 p false false r

def Chip.thGo (s : Chip) (cl : Nat) : Chip :=
  match (s.cl cl).thatcher.last 0 with
  | none => s
  | some a =>
    let c := a.cmd
    let src := (locOf false (cmdFld c 8 8)).getD (.store 0)
    let d := (locOf false (cmdFld c 16 8)).getD (.store 0)
    let buf := (s.cl cl).thatcher.buf
    if a.phase then Chip.thWrite cl d buf (buf.length + 1) a.progress s
    else Chip.thRead cl c src d 70000 s

/-- A command with OP `op` goes on, or the one at HEAD starts (R216); an OP not listed is met by any. -/
def Chip.thatcherRun (s : Chip) (cl op : Nat) : Chip :=
  if !s.ringRuns cl 2 0 then s
  else match (s.cl cl).thatcher.last 0 with
    | some a => if a.finished || cmdFld a.cmd 0 1 ≠ op then s else s.thGo cl
    | none =>
      if s.ringHeld cl 2 0 = 0 then s
      else match s.fetchCmd cl 2 0 0 with
        | .ok s1 c =>
          let o := cmdFld c 0 1
          if (o = 1 || o = 2 || o = 3) && o ≠ op then s
          else if thatcherBad c then s1.badCmd cl 2 0 (badBit 2) c
          else (s1.modEngine cl 2 fun e => { e.setList 0 [{ cmd := c }] with buf := [] }).thGo cl
        | .stop s => s
        | _ => s

/-- PACK (R213). -/
def execPack (cl : Nat) (s : State) : Out := s.run fun s => onUnit (cl < 4032) (s.thatcherRun cl 1)
/-- UNPACK (R214). -/
def execUnpack (cl : Nat) (s : State) : Out := s.run fun s => onUnit (cl < 4032) (s.thatcherRun cl 2)
/-- GATHER (R215). -/
def execGather (cl : Nat) (s : State) : Out := s.run fun s => onUnit (cl < 4032) (s.thatcherRun cl 3)
/-- THATCHER_CMD_COMPLETE (R216). -/
def execThatcherCmdComplete (cl : Nat) (s : State) : Out := s.run fun s =>
  onUnit (cl < 4032) (s.complete cl 2 0 fun s => s.modEngine cl 2 fun e => { e with buf := [] })

end Sys2Proof.Machine
end

