-- ==== Sys2Proof/Machine/Skylight.lean ====
section
/-! DEFINITION. The skylight (R223 to R232): PREDICT and its completion. -/

namespace Sys2Proof.Machine

open Sys2Proof

/-! ### The classification (R224, R225) -/

/-- FP32 of an exact value rounded towards +infinity. -/
def fpRoundUp (x : XNum) : XNum :=
  match x with
  | .fin neg m e =>
    if m = 0 then x
    else
      let ex := max ((m.log2 : Int) + e) (-126)
      let q := ex - 23
      let k := if q ≤ e then m <<< (e - q).toNat else m >>> (q - e).toNat
      let exact := decide (q ≤ e) || decide (k <<< (q - e).toNat = m)
      let k := if exact || neg then k else k + 1
      let c := (ex + 126).toNat * 2 ^ 23 + k
      if c > fp32F.maxCode then (if neg then fp32F.decode (2 ^ 31 + fp32F.maxCode) else .inf false)
      else fp32F.decode ((if neg then 2 ^ 31 else 0) + c)
  | y => y

/-- Score of a predictor row and a token summary: two blocks of 32 FP8 E4M3 products (R224). -/
def skyScore (row tok : List Byte) : XNum :=
  let vals (bs : List Byte) : List XNum := bs.map fun b => e4m3F.decode b.toNat
  let step (e : W32) (k : Nat) : W32 :=
    (accAdd e (blockSum (vals (slice row (32 * k) 32)) (vals (slice tok (32 * k) 32))).1).1
  fpDecode (step (step 0#32 0) 1)

/-- Of one block: its number, whether it is certain or a candidate, its bound. -/
structure SkyBlock where
  b : Nat
  certain : Bool
  candidate : Bool
  bound : XNum

def kNblk (c : BitVec 512) : Nat := cmdFld c 4 2
def kNtok (c : BitVec 512) : Nat := cmdFld c 6 1
def kCapA (c : BitVec 512) : Nat := cmdFld c 48 2
def kCapM (c : BitVec 512) : Nat := cmdFld c 50 2

/-- The four inputs in the order of R267: address field and bytes. -/
def skyInputs (c : BitVec 512) : List (Nat × Nat) :=
  [(8, 8 * kNblk c), (16, 64 * kNblk c), (24, 64 * kNtok c), (32, 4 * kNtok c)]

/-- The classified blocks of a pass whose input bytes are `buf`. One token's NaN score is not above the threshold and
leaves the others to decide; X is the FP32 maximum of all norms, a NaN when one is (R225; DESIGN CHOICE, log entry 15). -/
def skyClassify (c : BitVec 512) (buf : List Byte) : List SkyBlock :=
  let nb := kNblk c
  let nt := kNtok c
  let f32 (off : Nat) : Nat := leNat (slice buf off 4)
  let xn := (List.range nt).map fun t => BitVec.ofNat 32 (f32 (72 * nb + 64 * nt + 4 * t))
  let x : XNum := fpDecode (match xn with | [] => 0#32 | y :: ys => ys.foldl fpMax y)
  let th := fp32F.decode (cmdFld c 52 4)
  let toks := (List.range nt).map fun t => slice buf (72 * nb + 64 * t) 64
  (List.range nb).map fun b =>
    let bound := fpRoundUp (XNum.mul (fp32F.decode (f32 (8 * b))) x).1
    let row := slice buf (8 * nb + 64 * b) 64
    let gap := fp32F.decode (f32 (8 * b + 4))
    let certain := match bound, gap with
      | .nan, _ => false
      | _, .nan => false
      | p, q => !XNum.lt q p
    { b, certain, bound
      candidate := !certain && toks.any fun t =>
        let sc := skyScore row t
        !sc.isNan && !th.isNan && XNum.lt th sc }

/-- Insertion in descending bound; equal bounds keep ascending order of b. -/
def skyInsert (y : SkyBlock) : List SkyBlock → List SkyBlock
  | [] => [y]
  | z :: zs => if XNum.lt z.bound y.bound then y :: z :: zs else z :: skyInsert y zs

/-- Slots and counts of a pass (R224, R226): active list, made-up list, doubtful, lost, made up, certain. -/
structure SkyResult where
  active : List Nat
  made : List Nat
  doubtful : Nat
  lost : Nat
  certain : Nat

def skyAllot (capA capM : Nat) (bs : List SkyBlock) : SkyResult :=
  let cands := bs.filter (·.candidate)
  let active := (cands.take capA).map (·.b)
  let doubt := bs.filter fun y => !y.certain && !(y.b ∈ active)
  let made := ((doubt.foldl (fun l y => skyInsert y l) []).take capM).map (·.b)
  { active, made, doubtful := doubt.length, lost := doubt.length - made.length, certain := (bs.filter (·.certain)).length }

/-- The result bytes at OUT, to the end of their last line (R226). Bytes between the slot list and MO are written 0 as
well (DESIGN CHOICE, log entry 15). -/
def skyBytes (out capA capM nb : Nat) (r : SkyResult) : List Byte :=
  let slots (l : List Nat) (n : Nat) : List Byte :=
    (List.range n).flatMap fun i => leBytes 2 (l.getD i 0xFFFF)
  let s := capA + capM
  let list := slots r.active capA ++ slots r.made capM
  let mo := (2 * s + 63) / 64 * 64
  let mask := (r.active ++ r.made).foldl (fun m b => m ||| 2 ^ b) 0
  let ml := 8 * ((nb + 63) / 64)
  let body := list ++ zeros (mo - 2 * s) ++ leBytes ml mask ++ leBytes 2 r.doubtful ++ leBytes 2 r.lost ++
    leBytes 2 r.made.length ++ leBytes 2 r.certain
  let e := out + body.length
  body ++ zeros ((e + 63) / 64 * 64 - e)

/-! ### Commands (R223, R231) -/

/-- R231. OUT names the cluster store; its result lines lie within the store. -/
def skyBad (c : BitVec 512) : Bool :=
  let s := kCapA c + kCapM c
  decide (cmdFld c 0 1 ≠ 1) || decide (cmdFld c 1 1 ≥ 2) || decide (cmdFld c 7 1 ≠ 0) || decide (cmdFld c 56 4 ≠ 0) ||
    decide (kNblk c = 0) || decide (kNblk c > 4096) || decide (kNtok c = 0) || decide (kNtok c > 64) ||
    decide (s = 0) || decide (s > 4096) ||
    ((skyInputs c).any fun p => match locOf false (cmdFld c p.1 8) with | some l => !l.fits p.2 | none => true) ||
    (match locOf false (cmdFld c 40 8) with
     | some (.store o) => !(Loc.store o).fits (skyBytes o (kCapA c) (kCapM c) (kNblk c) ⟨[], [], 0, 0, 0⟩).length
     | _ => true)

/-- A NaN bound has no place in the order of R224: its place is free, the same for the same inputs, threshold and
capacities, wherever the command's addresses lie (R37, log entry 15). -/
def skyPlaced (c : BitVec 512) (buf : List Byte) (y : SkyBlock) : SkyBlock :=
  if y.bound.isNan then { y with bound := fp32F.decode (Config.nanPlace (cmdFld c 4 3) (cmdFld c 48 8) (leNat buf) y.b).toNat } else y

/-- Everything is read: the pass is classified, its lines written by DMA 0, its counts added (R228, R229). -/
def Chip.skyDone (s : Chip) (cl : Nat) (c : BitVec 512) (buf : List Byte) : Chip :=
  let r := skyAllot (kCapA c) (kCapM c) ((skyClassify c buf).map (skyPlaced c buf))
  match locOf false (cmdFld c 40 8) with
  | some d =>
    let out := skyBytes d.addr (kCapA c) (kCapM c) (kNblk c) r
    match s.unitWrite cl 4 0 0 d out with
    | .ok s _ =>
      let s := s.count (.dma cl 0) Off.DMA_BYTES_WRITTEN out.length
      let pg := PageRef.skylight cl
      let s := (s.count pg Off.SKY_DOUBT r.doubtful).count pg Off.SKY_LOST r.lost
      let s := (s.count pg Off.SKY_MADEUP r.made.length).count pg Off.SKY_BLOCKS (kNblk c)
      let s := s.count pg Off.SKY_CERTAIN r.certain
      let t := s.clTint cl
      let s :=
        if t = 0 then s
        else
          let s := s.metered t fun m => { m with
            skyDoubt := m.skyDoubt + r.doubtful, skyLost := m.skyLost + r.lost, skyMadeup := m.skyMadeup + r.made.length }
          let g := PageRef.gable t
          ((s.count g Off.GB_SKY_DOUBT r.doubtful).count g Off.GB_SKY_LOST r.lost).count g Off.GB_SKY_MADEUP r.made.length
      s.finish cl 4 0 0
    | .wait s => s
    | .stop s => s
    | .fault s _ _ => s
  | none => s

/-- The inputs read in order; PROGRESS counts their bytes. -/
def Chip.skyRead (cl : Nat) (c : BitVec 512) : Nat → Chip → Chip
  | 0, s => s
  | fuel + 1, s =>
    let buf := (s.cl cl).skylight.buf
    let p := buf.length
    match rangeAt ((skyInputs c).map fun x => (x.1 * 2 ^ 60, x.2)) p with
    | none => s.skyDone cl c buf
    | some (o, left) =>
      let l := (locOf false (cmdFld c (o / 2 ^ 60) 8)).getD (.store 0)
      let from_ := l.plus (o % 2 ^ 60)
      let m := min left (4096 - from_.addr % 4096)
      match s.unitRead cl 4 0 0 false from_ m with
      | .ok s bs => skyRead cl c fuel
          (((s.modEngine cl 4 fun e => { e with buf := buf ++ bs }).setProgress cl 4 0 0 (p + m)).dropHost cl 4 0)
      | r => settle cl 4 0 0 p false false r

def Chip.skyGo (s : Chip) (cl : Nat) : Chip :=
  match (s.cl cl).skylight.last 0 with
  | none => s
  | some a => Chip.skyRead cl a.cmd 1000 s

/-- PREDICT (R224): the command in progress goes on, or the one at HEAD starts. -/
def execPredict (cl : Nat) (s : State) : Out := s.run fun s =>
  onUnit (cl < 4032)
    (if !s.ringRuns cl 4 0 then s
     else match (s.cl cl).skylight.last 0 with
       | some a => if a.finished then s else s.skyGo cl
       | none =>
         if s.ringHeld cl 4 0 = 0 then s
         else match s.fetchCmd cl 4 0 0 with
           | .ok s1 c =>
             if skyBad c then s1.badCmd cl 4 0 (badBit 4) c
             else (s1.modEngine cl 4 fun e => { e.setList 0 [{ cmd := c }] with buf := [] }).skyGo cl
           | .stop s => s
           | _ => s)

/-- SKYLIGHT_CMD_COMPLETE (R229). -/
def execSkylightCmdComplete (cl : Nat) (s : State) : Out := s.run fun s =>
  onUnit (cl < 4032) (s.complete cl 4 0 fun s =>
    (s.modEngine cl 4 fun e => { e with buf := [] }).count (.skylight cl) Off.SKY_PASSES 1)

end Sys2Proof.Machine
end

