-- ==== Sys2Proof/Machine/Translate.lean ====
section
/-! DEFINITION. Page walks (R249 to R256), ATS (R258 to R260), invalidation (R257), parking, dispatch
and resume of faults (R266 to R275). -/

namespace Sys2Proof.Machine

open Sys2Proof

/-! ### Walks -/

/-- VA bits that level `l` indexes: lowest bit and width (R249). -/
def levelBits : Nat → Nat × Nat
  | 3 => (43, 12) | 2 => (30, 13) | 1 => (21, 9) | _ => (16, 5)

/-- log2 of the leaf page of a level, and of the table of a level. -/
def leafLog : Nat → Nat
  | 2 => 30 | 1 => 21 | _ => 16
def tableLog : Nat → Nat
  | 3 => 15 | 2 => 16 | 1 => 12 | _ => 8

/-- What an entry makes of a walk (R251). -/
inductive WalkStep where
  | fault (k : FaultKind)
  | leaf (e : TlbEntry)
  | next (stack table : Nat)

/-- The first matching case of R251 for entry `v` at level `l`; `inGable` of a stack, `bound` of a stack
and key slot. -/
def walkStep (v : W) (l va : Nat) (inGable : Nat → Bool) (bound : Nat → Nat → Bool) : WalkStep :=
  let leaf := bit v 1
  let stack := fld v 16 9
  let off := fld v 28 28 * 256
  let key := fld v 4 6
  let align := 2 ^ (if leaf then leafLog l else tableLog (l - 1))
  if !bit v 0 then .fault .notPresent
  else if fld v 10 6 ≠ 0 || fld v 25 3 ≠ 0 || fld v 56 8 ≠ 0 || (leaf && l = 3) || (!leaf && l = 0) || off % align ≠ 0 then
    .fault .walkBad
  else if !inGable stack then .fault .walkRange
  else if leaf && !bound stack key then .fault .walkBad
  else if leaf then
    let lg := leafLog l
    .leaf { host := false, va := va % 2 ^ 55 / 2 ^ lg * 2 ^ lg, log2 := lg, stack, offset := off,
            readable := bit v 2, writable := bit v 3, key, used := 0 }
  else .next stack off

/-- A fault strikes a waiting unit: it is captured on its ring. -/
def Chip.faultWaiter (s : Chip) (cl : Nat) (k : FaultKind) (w : Waiter) : Chip := s.capture cl w.unit w.ring k w

/-- The bay belongs to the gable of the cluster (R251). -/
def Chip.sameGable (s : Chip) (cl b : Nat) : Bool := b < 336 && s.clTint cl = (s.bay b).tint

/-- One read of walk `walk` of bay `b` (R237, R246, R651): a READ_REQ of the line through the router of the
cluster it walks for, under the key slot of the page tables. -/
def Chip.walkRead (s : Chip) (b walk : Nat) (k : Walk) (line : Nat) : StackRes :=
  let slot := fld (s.reg (.ctu k.cl) Off.CTU_ROOT) 45 6
  let t := s.clTint k.cl
  let p : Packet := { destLC := k.stack, destUnit := 0x10, srcLC := b, srcSub := walk, srcUnit := 0x11
                      channel := 8, ptype := 2, payload := readReq (bayWord (64 * line) slot) 64 }
  s.exchange k.cl p fun s far => s.atBay k.stack far fun s =>
    (s.count (.baymem k.stack) Off.BM_WALK_READS 1).stackRead k.stack slot t (64 * line) 64 false

/-- A walker read refused or uncorrectable (R241, R247): the waiting units stop, and a save of the cluster that is
still stopping fails (R278). -/
def Chip.walkFailed (s : Chip) (k : Walk) (f : Chip → Nat → Chip) : Chip :=
  let s := k.waiters.foldl (fun s w => f s w.unit) s
  if (s.cl k.cl).ctu.phase = .stopping then s.modCl k.cl fun x => { x with ctu := { x.ctu with saveErr := true } } else s

/-- WALKER_READ_RESP (R251, R255): the line that holds the entry of walk `walk` arrives; the walk goes
on, ends in the TLB, or faults. With the CTU page not enabled there is no walk (R652). A read lost in the mesh
leaves its units without an answer. -/
def execWalkerReadResp (b walk : Nat) (s : State) : Out := s.run fun s =>
  onUnit (b < 336 && walk < 16)
    (match SMap.get none (s.bay b).walks walk with
     | none => s
     | some k =>
       let cl := k.cl
       let endWalk (s : Chip) : Chip := s.modBay b fun x => { x with walks := SMap.set none x.walks walk none }
       let (lo, n) := levelBits k.level
       let at_ := k.table + 8 * bits k.va lo n
       if !s.bayOk b then s
       else if !(s.cl cl).ctu.page.enable then k.waiters.foldl (fun s w => s.faultWaiter cl .notPresent w) (endWalk s)
       else
         match (s.ctuCount cl Off.CTU_WALK_READS).walkRead b walk k (at_ / 64) with
         | .busy h => s.waiting h
         | .lost s => k.waiters.foldl (fun s w => s.ringLost cl w.unit w.ring) (endWalk s)
         | .refused s => (endWalk s).walkFailed k fun s u => s.unitStop cl u (parkBit u + 2) 0
         | .uncorr s => (endWalk s).walkFailed k fun s u => s.stackFail cl u k.stack
         | .ok s bs =>
           let v : W := BitVec.ofNat 64 (leNat (slice bs (at_ % 64) 8))
           let bound (st slot : Nat) : Bool := ((s.bay st).keyFor slot (s.clTint cl)).isSome
           match walkStep v k.level k.va (s.sameGable cl) bound with
           | .fault f => k.waiters.foldl (fun s w => s.faultWaiter cl f w) (endWalk s)
           | .next st off => s.modBay b fun x => { x with
               walks := SMap.set none x.walks walk (some { k with level := k.level - 1, stack := st, table := off }) }
           | .leaf e =>
             let (e, s) := (endWalk s).tlbFill cl k.va e
             k.waiters.foldl (fun s w => s.modEngine cl w.unit fun g => { g with trans := some e }) s)

/-! ### ATS (R258 to R260) -/

def Waiter.is (w : Waiter) (u q : Nat) : Bool := w.unit = u && w.ring = q

/-- The host-region entry of a completion: sizes of 4 KiB to 1 GiB as given, larger ones as 1 GiB. -/
def hostEntry (va addr log2 : Nat) (r w : Bool) : TlbEntry :=
  let lg := max 12 (min 30 log2)
  let v := va % 2 ^ 55
  { host := true, va := v / 2 ^ lg * 2 ^ lg, log2 := lg, stack := 0
    offset := addr + (v / 2 ^ lg * 2 ^ lg - v / 2 ^ log2 * 2 ^ log2)
    readable := r, writable := w, key := 0, used := 0 }

/-- The outcome of a fault that may be HOST_PENDING, on the ring of `w`. -/
def Chip.ungranted (s : Chip) (cl : Nat) (w : Waiter) : Chip :=
  match s.noGrant cl w with
  | .fault s k _ => s.capture cl w.unit w.ring k w
  | .ok s _ => s
  | .wait s => s
  | .stop s => s

/-- A host-region access asks the host, or faults where the CTU page is not enabled (R652). -/
def Chip.askHost (s : Chip) (cl : Nat) (w : Waiter) : Chip :=
  if (s.cl cl).ctu.page.enable then s.atsRequest cl w else s.capture cl w.unit w.ring .hostAts w

/-- ATS_COMPLETION (R258, R259, R652). -/
def execAtsCompletion (cl unit ring : Nat) (xl : AtsGrant) (s : State) : Out := s.run fun s =>
  onUnit (cl < 4032 && unit < 5 && ring < 4)
    (match (s.cl cl).ctu.ats.find? fun w => w.is unit ring with
     | none => s
     | some w =>
       let s := s.modCl cl fun x => { x with ctu := { x.ctu with ats := x.ctu.ats.filter fun w => !w.is unit ring } }
       if !(s.cl cl).ctu.page.enable then s.capture cl unit ring .hostAts w
       else match xl.addr with
       | none => s.ungranted cl w
       | some a =>
         if !(xl.r || xl.w) then s.ungranted cl w
         else
           let e := hostEntry w.va a xl.log2 xl.r xl.w
           let s := s.tlbRenew cl e
           if (if w.write then xl.w else xl.r) then s.modEngine cl unit fun g => { g with trans := some e }
           else s.ungranted cl w)

/-- Page requests waiting for one of the 64 of their VF are sent when one returns (R259). -/
def Chip.sendPri (s : Chip) (t : Nat) : Chip :=
  s.clusters.foldl (fun s p =>
    if s.clTint p.1 ≠ t then s
    else match p.2.ctu.pri.find? fun x => !x.sent with
      | none => s
      | some x =>
        if s.priCount t ≥ 64 then s
        else
          (s.modCl p.1 fun c => { c with ctu := { c.ctu with
            pri := c.ctu.pri.map fun y => if y = x then { y with sent := true } else y } }).sendHost
              (.pri t (x.w.va % 2 ^ 55))) s

/-- A parked set is released: XLATE_PARK reads 0 once no set of the page is parked (R276), and the FAULT
window of the park closes (R351). -/
def Chip.unpark (s : Chip) (cl u q : Nat) : Chip :=
  let was := match ((s.cl cl).engine u).parked q with | some p => p.parked | none => false
  let s := s.modEngine cl u fun e => { e with park := SMap.set none e.park q none, trans := none }
  let e := (s.cl cl).engine u
  let s :=
    if e.park.any (fun p => match p.2 with | some k => k.parked | none => false) then s
    else s.modPage (unitPage cl u) fun p => { p with fault := clrBit p.fault (parkBit u) }
  if was then s.closeWindow (s.clTint cl) .fault else s

/-- PRG_RESPONSE (R259, R280): 0 is Success; any other code fails the page. Discarded while saved, and where the save
has given the request up. -/
def execPrgResponse (cl unit ring n : Nat) (s : State) : Out := s.run fun s =>
  onUnit (cl < 4032 && unit < 5 && ring < 4)
    (let c := (s.cl cl).ctu
     if c.phase.holds then s.ctuCount cl Off.CTU_PRG_DROP
     else match c.pri.find? fun x => x.sent && x.w.is unit ring with
       | none => s.ctuCount cl Off.CTU_PRG_DROP
       | some x =>
         let t := s.clTint cl
         let s := s.modCl cl fun y => { y with ctu := { y.ctu with pri := y.ctu.pri.filter fun y => !(y.sent && y.w.is unit ring) } }
         let s := s.unpark cl unit ring
         let s := if n = 0 then s.askHost cl x.w else s.capture cl unit ring .hostPri x.w
         s.sendPri t)

/-! ### Invalidation (R257, R260) -/

/-- Entries and held translations of [lo, hi) removed from one cluster. -/
def Cluster.invalidate (x : Cluster) (lo hi : Nat) : Cluster :=
  let keep (e : TlbEntry) : Bool := !e.overlaps lo hi
  let c := { x.ctu with tlb := x.ctu.tlb.filter fun p => match p.2 with | some e => keep e | none => false }
  (List.range 5).foldl (fun x u => x.modEngine u fun e =>
    { e with trans := match e.trans with | some t => if keep t then some t else none | none => none }) { x with ctu := c }

/-- The same in every cluster of the gable of tint `t`. -/
def Chip.invalidateTint (s : Chip) (t lo hi : Nat) : Chip :=
  s.clusters.foldl (fun s p => if s.clTint p.1 = t then s.modCl p.1 fun x => x.invalidate lo hi else s) s

/-- A write of CTU_INVAL_CMD. -/
def Chip.invalWrite (s : Chip) (cl : Nat) (v : W) : Chip :=
  let all := bit v 1
  let bcast := bit v 2
  let lg := fld v 8 6
  if !bit v 0 || (!all && (lg < 16 || lg > 56)) then s
  else
    let va := (s.reg (.ctu cl) Off.CTU_INVAL_VA).toNat % 2 ^ 56 / 2 ^ 16 * 2 ^ 16
    let lo := if all then 0 else va / 2 ^ lg * 2 ^ lg
    let hi := if all then 2 ^ 57 else lo + 2 ^ lg
    let s := if bcast then s.invalidateTint (s.clTint cl) lo hi else s.modCl cl fun x => x.invalidate lo hi
    s.modCl cl fun x => { x with ctu := { x.ctu with inval := some (lo, hi - lo, all, bcast) } }

/-- The clusters of tint `t`: those of its bays, of tint 0 the ones that hold anything. -/
def Chip.tintClusters (s : Chip) (t : Nat) : List Nat :=
  if t = 0 then (s.clusters.map (·.1)).filter fun c => s.clTint c = 0
  else ((s.bays.map (·.1)).filter fun b => decide (b < 336) && decide ((s.bay b).tint = t)).flatMap bayClusters

/-- The clusters an invalidation written at `cl` acts on. -/
def Chip.invalReach (s : Chip) (cl : Nat) (bcast : Bool) : List Nat :=
  if bcast then s.tintClusters (s.clTint cl) else [cl]

/-- An access of unit `e` under a translation of [lo, hi) is outstanding: a host-region read or a bias request that the
host has not answered, or a stack read that waits. What waits at a stack is taken to lie in any range of the device
region. -/
def Engine.issuedIn (e : Engine) (lo hi : Nat) : Bool :=
  e.hostReads.any (fun p => p.2.any fun h => h.data.isNone &&
    (if h.through.isSome then decide (lo < 2 ^ 55) else decide (lo < h.va + h.n) && decide (h.va < hi))) ||
  (decide (lo < 2 ^ 55) && e.held.any fun h => h.2.isSome)

/-- A walk of the range is in progress for cluster `c`, or an access of its units under a translation of it. -/
def Chip.invalOpen (s : Chip) (c lo hi : Nat) : Bool :=
  ((s.bay (clBay c)).walks.any fun p => match p.2 with
    | some k => k.cl = c && decide (lo < k.va / 65536 * 65536 + 65536) && decide (k.va < hi)
    | none => false) ||
  (List.range 5).any fun u => ((s.cl c).engine u).issuedIn lo hi

/-- The Invalidate Completions of VF t that can be sent: every CTU of the gable has completed (R260). -/
def Chip.atsInvalDone (s : Chip) (t : Nat) : Chip :=
  let on := s.tintClusters t
  s.link.invals.foldl (fun (s : Chip) i =>
    if i.1 ≠ t || (on.any fun c => s.invalOpen c i.2.1 i.2.2) then s
    else ({ s with link := { s.link with invals := s.link.invals.erase i } } : Chip).sendHost (.invalDone t)) s

/-- INVALIDATION_COMPLETE (R257): what walks that were in progress brought of the range goes too, and BUSY clears
once no walk of it and no access under a translation is outstanding in any cluster of the invalidation. The ATS
invalidations of the cluster's gable that still wait are answered with it (R260). -/
def execInvalidationComplete (cl : Nat) (s : State) : Out := s.run fun s =>
  onUnit (cl < 4032)
    (let s : Chip := match (s.cl cl).ctu.inval with
     | none => s
     | some (lo, n, _, bcast) =>
       let hi := lo + n
       let on := s.invalReach cl bcast
       let s := on.foldl (fun s c => s.modCl c fun x => x.invalidate lo hi) s
       if on.any fun c => s.invalOpen c lo hi then s
       else s.modCl cl fun x => { x with ctu := { x.ctu with inval := none } }
     if s.link.invals = [] then s else s.atsInvalDone (s.clTint cl))

/-- ATS_INVALIDATE_REQUEST (R260): VF t, untranslated address, log2 of the size. The completion goes at once when no CTU
of the gable has an access of the range outstanding. -/
def execAtsInvalidateRequest (t addr n : Nat) (s : State) : Out := s.run fun s =>
  onUnit (1 ≤ t && t ≤ 64)
    (let lo := 2 ^ 55 + addr % 2 ^ 55 / 2 ^ n * 2 ^ n
     let s := s.invalidateTint t lo (lo + 2 ^ n)
     ({ s with link := { s.link with invals := s.link.invals ++ [(t, lo, lo + 2 ^ n)] } } : Chip).atsInvalDone t)

/-! ### Parking (R269 to R273) -/

/-- The FAULT_SEQ of a fault of cluster `cl`, from the count for its tint of the controller that dispatches it (R270,
R565); 0 while there is none. -/
def Chip.takeSeq (s : Chip) (cl : Nat) : Nat × Chip :=
  match s.dispatcher (clField cl) with
  | none => (0, s)
  | some f =>
    let t := s.clTint cl
    let n := SMap.get 0 (s.field f).faultCount t + 1
    (f * 2 ^ 24 + n % 2 ^ 24, s.modField f fun x => { x with faultCount := SMap.set 0 x.faultCount t n })

/-- UNIT_PARK (R269, R270): PARKED is set, the page's XLATE_PARK follows, and the fault takes its
FAULT_SEQ. HOST_PENDING takes none. -/
def execUnitPark (cl unit ring : Nat) (s : State) : Out := s.run fun s =>
  onUnit (cl < 4032 && unit < 5 && ring < 4)
    (match ((s.cl cl).engine unit).parked ring with
     | none => s
     | some p =>
       if !p.capturing then s
       else
         let (seq, s) := if p.kind = .hostPending then (0, s) else s.takeSeq cl
         let s := s.modEngine cl unit fun e => { e with
           park := SMap.set none e.park ring (some { p with capturing := false, parked := true, seq }) }
         (s.raise (unitPage cl unit) (parkBit unit)).openWindow (s.clTint cl) .fault)

/-- Entries of a gable's ring whose TAIL and HEAD are 16-bit counts. -/
def Chip.gbRing (s : Chip) (t base cfg tail head : Nat) : Nat × Nat × Bool :=
  let pg := PageRef.gable t
  let size := 2 ^ fld (s.reg pg cfg) 0 4
  let tl := fld (s.reg pg tail) 0 16
  let hd := fld (s.reg pg head) 0 16
  ((s.reg pg base).toNat, tl % size, decide ((tl + 65536 - hd) % 65536 ≥ size))

def FaultKind.code : FaultKind → Nat
  | .notPresent => 1 | .permission => 2 | .walkBad => 3 | .walkRange => 4 | .hostAts => 5 | .hostPri => 6
  | .hostPending => 0xF

/-- The fault record of R272. -/
def faultRecord (unit ring lc : Nat) (p : Park) : List Byte :=
  leBytes 4 p.seq ++ leBytes 1 p.kind.code ++ leBytes 1 unit ++ leBytes 1 (if unit < 2 then ring else 0) ++
    leBytes 1 (b2n p.side + 2 * b2n p.write + 4 * b2n p.replay + 8 * b2n p.phase) ++ leBytes 2 lc ++ leBytes 2 0 ++
    leBytes 4 p.tag ++ leBytes 8 p.va ++ leBytes 8 p.progress ++ leBytes 8 p.time.toNat ++ leBytes 2 p.head ++ leBytes 22 0

/-- FAULT_DISPATCH (R271, R509): the record of a parked fault is written to the gable's fault queue and
its vector signalled; while the queue is full it waits. Tint 0 has no queue, and the faults of a lost field wait
for its controller or a cover (R564, R565). -/
def execFaultDispatch (cl unit ring : Nat) (s : State) : Out := s.run fun s =>
  onUnit (cl < 4032 && unit < 5 && ring < 4)
    (let t := s.clTint cl
     match ((s.cl cl).engine unit).parked ring with
     | none => s
     | some p =>
       if !p.parked || p.dispatched || p.kind = .hostPending || t = 0 || (s.cl cl).ctu.phase.holds ||
           (s.dispatcher (clField cl)).isNone then s
       else
         let put (s : Chip) (p : Park) : Chip :=
           s.modEngine cl unit fun e => { e with park := SMap.set none e.park ring (some p) }
         let (base, ix, full) := s.gbRing t Off.GB_FQ_BASE Off.GB_FQ_CFG Off.GB_FQ_TAIL Off.GB_FQ_HEAD
         if full then
           if p.waited then s else (put s { p with waited := true }).count (.gable t) Off.GB_FQ_WAITS 1
         else
           let (p, s) := if p.seq = 0 then let (seq, s) := s.takeSeq cl; ({ p with seq }, s) else (p, s)
           let s := s.hostWrite t (base + 64 * ix) (faultRecord unit ring ((s.cl cl).lc.getD 0xFFF) p)
           let s := s.modReg (.gable t) Off.GB_FQ_TAIL (wrapField 16 1)
           (put s { p with dispatched := true }).signal 0 (faultVector t))

/-- A write of RESUME (R273). -/
def Chip.resumeWrite (s : Chip) (cl u : Nat) (v : W) : Chip :=
  let ring := fld v 0 2
  let q := if u < 2 then ring else 0
  let good := (u < 2 || ring = 0) && decide ((s.cl cl).ctu.phase = .none) && decide (fld v 8 7 = s.clTint cl) &&
    (match ((s.cl cl).engine u).parked q with
     | some p => p.parked && decide (p.kind ≠ .hostPending) && decide (p.seq = fld v 32 32)
     | none => false)
  if good then s.unpark cl u q
  else s.modEngine cl u fun e => { e with resumeDrop := e.resumeDrop.set q true }

/-! ### Frame retirement (R243, R285) -/

/-- A write of BM_RETIRE_CMD. -/
def Chip.retireWrite (s : Chip) (b : Nat) (v : W) : Chip :=
  let pg := PageRef.baymem b
  let s := s.modReg pg Off.BM_RETIRE_CMD fun o => putFld o 16 20 (fld v 16 20)
  let f := fld v 16 20
  let x := s.bay b
  if !bit v 62 || x.retiring.isSome then s
  else if f ∈ x.retired then s.refuse pg 0x0101 Off.BM_RETIRE_CMD
  else if x.retired.length ≥ 65536 || s.wearFull then s.refuse pg 0x0501 Off.BM_RETIRE_CMD
  else if !bit s.bringup.done 8 then s.refuse pg 0x0702 Off.BM_RETIRE_CMD
  else s.modBay b fun x => { x with retiring := some f }

/-- RETIREMENT_COPY_COMPLETE (R239, R243, R555, R608): each line was read and written in a reserved slot; correctable
lines of the frame are corrected and counted, uncorrectable ones carried over unreported; the frame reads from its
spare from now on. -/
def execRetirementCopyComplete (b : Nat) (s : State) : Out := s.run fun s =>
  onUnit (b < 336)
    (match (s.bay b).retiring with
     | none => s
     | some f =>
       if !s.bayOk b || (s.dispatcher (bayField b)).isNone then s
       else
         let n := (eccScan (s.bay b).lineErr (1024 * f) (1024 * f + 1024)).1
         let last := lastMark (s.bay b).lineErr (1024 * f) (1024 * f + 1024)
         let s := s.modBay b fun x => { x with
           lineErr := eccFix x.lineErr (1024 * f) (1024 * f + 1024)
           retired := x.retired ++ [f]
           retiring := none }
         let s := (s.background (bayField b) 0x10 b).count (.baymem b) Off.BM_BG_CMDS 2048
         (s.modReg (.baymem b) Off.BM_ECC fun v => bmEccNote v n false last).wearAdd 1 [b, f])

end Sys2Proof.Machine
end

