-- ==== Sys2Proof/Machine/EaveLink.lean ====
section
/-! DEFINITION. Eave ports as the router sees them: configuration, links, sessions, and a link that goes OUT
(R394, R395, R398, R399, R428). -/

namespace Sys2Proof.Machine

open Sys2Proof

/-! ### Configuration -/

def Chip.evReg (s : Chip) (p off : Nat) : W := s.reg (.eave p) off
def Chip.evMode (s : Chip) (p : Nat) : Nat := fld (s.evReg p Off.EV_CFG) 0 2
def Chip.evIp (s : Chip) (p : Nat) : Bool := bit (s.evReg p Off.EV_CFG) 2
def Chip.fabricId (s : Chip) : Nat := fld (s.reg .dev Off.DEV_ENGINE_ID) 0 11

def Eave.modLink (e : Eave) (l : Nat) (f : EaveLink → EaveLink) : Eave :=
  if l = 0 then { e with link0 := f e.link0 } else { e with link1 := f e.link1 }
def Chip.evLink (s : Chip) (p l : Nat) : EaveLink := (s.eave p).linkOf l
def Chip.modEvLink (s : Chip) (p l : Nat) (f : EaveLink → EaveLink) : Chip := s.modEave p fun e => e.modLink l f

/-- The links of a port in its mode (R395). -/
def Chip.evLinks (s : Chip) (p : Nat) : List Nat := match s.evMode p with | 0 => [0] | 1 => [0, 1] | _ => []

def Eave.session (e : Eave) (i : Nat) : Session := SMap.get {} e.sessions i
def Chip.session (s : Chip) (p i : Nat) : Session := (s.eave p).session i
def Chip.modSession (s : Chip) (p i : Nat) (f : Session → Session) : Chip :=
  s.modEave p fun e => { e with sessions := SMap.upd {} e.sessions i f }

def Session.word (x : Session) (i : Nat) : W := SMap.get 0#64 x.words i
def Session.id (x : Session) : Nat := fld (x.word 0) 0 16
def Session.prio (x : Session) : Nat := fld (x.word 0) 25 3
def Session.peer (x : Session) : Nat := fld (x.word 0) 32 11
def Session.window (x : Session) : Nat := fld (x.word 1) 32 16
/-- PEER_MAC and PEER_IP6, in the order of their bytes. -/
def Session.mac (x : Session) : List Byte := leBytes 2 (fld (x.word 0) 48 16) ++ leBytes 4 (fld (x.word 1) 0 32)
def Session.ip6 (x : Session) : List Byte := leBytes 8 (x.word 2).toNat ++ leBytes 8 (x.word 3).toNat

/-- A session that fails: it sends and accepts nothing more, and its sends do not complete (R410). -/
def Chip.failSession (s : Chip) (p i : Nat) : Chip :=
  let x := s.session p i
  s.modEave p fun e => { e with
    sends := e.sends.filter fun d => recFld d.desc 4 2 ≠ x.id
    sessions := SMap.set {} e.sessions i { x with state := 2, inflight := [], ackDue := false, heldAt := none } }

/-- A link goes OUT: PORT_OUT, and every open session on it becomes FAILED (R398, R399). -/
def Chip.evLinkOut (s : Chip) (p l : Nat) : Chip :=
  let s := s.modEvLink p l fun x => { x with state := .out, lanes := [], own := false }
  let s := s.raise (.eave p) 1
  ((s.eave p).sessions.filter fun q => q.2.state = 1 && q.2.link = l).foldl (fun s q => s.failSession p q.1) s

/-- A port whose attach cluster is a hole is reached no more: both of its links are OUT (R394, R398). -/
def Chip.portOff (s : Chip) (cl : Nat) : Chip :=
  match eaveAt cl with
  | none => s
  | some p => [0, 1].foldl (fun s l => if (s.evLink p l).state = .out then s else s.evLinkOut p l) s

end Sys2Proof.Machine
end

