-- ==== Sys2Proof/Machine/Sfu.lean ====
section
/-! DEFINITION. The functions of the special-function units (R191 to R194, R646), each the exact value
rounded once. The transcendental ones are taken in fixed point with 700 fractional bits, and the last
bit is made odd: no value of theirs but the special ones lies on a rounding boundary (log entry 7). -/

namespace Sys2Proof.Machine

open Sys2Proof

/-- Fractional bits of the fixed point. -/
def fxP : Nat := 700

def fxOne : Int := (2 ^ fxP : Nat)

/-- A finite value in fixed point, truncated. -/
def toFx (x : XNum) : Int :=
  match x with
  | .fin n m e =>
    let k : Nat := if 0 ≤ e + fxP then m <<< (e + fxP).toNat else m >>> (-(e + fxP)).toNat
    if n then -(k : Int) else k
  | _ => 0

/-- A fixed-point value times 2^k as a value that lies on no rounding boundary. -/
def ofFx (v k : Int) : XNum := .fin (decide (v < 0)) (2 * v.natAbs + 1) (k - fxP - 1)

def fxMul (a b : Int) : Int := a * b / fxOne
def fxDiv (a b : Int) : Int := a * fxOne / b

/-- Σ z^(2k+1) / (2k+1) for k below 230, |z| ≤ 1/3: the area hyperbolic tangent. -/
def fxAtanh (z : Int) : Int :=
  let z2 := fxMul z z
  ((List.range 230).foldl (fun (p : Int × Int) k => (fxMul p.1 z2, p.2 + p.1 / (2 * k + 1))) (z, 0)).2

def fxLn2 : Int := 2 * fxAtanh (fxOne / 3)

/-- e^y of a fixed-point y: a fixed-point factor and a power of two. -/
def fxExp (y : Int) : Int × Int :=
  let k := y / fxLn2
  let r := y - k * fxLn2
  let sum := ((List.range 150).foldl
    (fun (p : Int × Int) i => (fxMul p.1 r / ((i : Int) + 1), p.2 + p.1)) (fxOne, 0)).2
  (sum, k)

/-- e^y in plain fixed point, for y of small magnitude. -/
def fxExpPlain (y : Int) : Int :=
  let (v, k) := fxExp y
  if k ≥ 0 then v * (2 ^ k.toNat : Nat) else v / (2 ^ (-k).toNat : Nat)

/-- ln of a positive value m × 2^e. -/
def fxLog (m : Nat) (e : Int) : Int :=
  let l := m.log2
  let f : Int := (m <<< fxP : Nat) / (2 ^ l : Nat)
  2 * fxAtanh (fxDiv (f - fxOne) (f + fxOne)) + (e + l) * fxLn2

/-- 1 / (1 + e^−y). -/
def fxSigmoid (y : Int) : Int := fxDiv fxOne (fxOne + fxExpPlain (-y))

/-- The bound beyond which e^|x| leaves every output format. -/
def fxBig : Int := 400 * fxOne

/-- A value of the given sign just above zero, below every rounding boundary. -/
def tiny (neg : Bool) : XNum := .fin neg 1 (-500)
def huge : XNum := .fin false 1 500
/-- A value just below one. -/
def almostOne (neg : Bool) : XNum := .fin neg (2 ^ 300 - 1) (-300)

def expNum (x : XNum) : XNum :=
  let y := toFx x
  if x.isZero then .fin false 1 0
  else if y > fxBig then huge
  else if y < -fxBig then tiny false
  else
    let (v, k) := fxExp y
    ofFx v k

def logNum (x : XNum) : XNum :=
  match x with
  | .fin _ m e =>
    if m = 2 ^ m.log2 ∧ e + m.log2 = 0 then XNum.zero
    else ofFx (fxLog m e) 0
  | y => y

def tanhNum (x : XNum) : XNum :=
  let y := toFx x.abs
  if y > fxBig then almostOne x.negative
  else
    let t := fxExpPlain (2 * y)
    let r := ofFx (fxDiv (t - fxOne) (t + fxOne)) 0
    if x.negative then r.neg else r

def sigmoidNum (x : XNum) : XNum :=
  let y := toFx x
  if y > fxBig then almostOne false
  else if y < -fxBig then tiny false
  else if x.isZero then .fin false 1 (-1)
  else ofFx (fxSigmoid y) 0

/-- x / (1 + e^−y) for x of the sign of y. -/
def gated (x : XNum) (y : Int) : XNum :=
  match x with
  | .fin n m e =>
    if y > fxBig then .fin n (m * (2 ^ 600) - 1) (e - 600)
    else if y < -fxBig then tiny n
    else
      let g := fxSigmoid y
      .fin n (2 * (m * g.natAbs) + 1) (e - fxP - 1)
  | z => z

def siluNum (x : XNum) : XNum := gated x (toFx x)

/-- GELU as x / (1 + e^−2u), u = 0.7978846 (x + 0.044715 x³). -/
def geluNum (x : XNum) : XNum :=
  let y := toFx x
  if y > fxBig then gated x (fxBig + 1)
  else if y < -fxBig then gated x (-fxBig - 1)
  else
    let x3 := fxMul y (fxMul y y)
    let u := (y + x3 * 44715 / 1000000) * 7978846 / 10000000
    gated x (2 * u)

/-- Integer square root. -/
def isqrt (n : Nat) : Nat :=
  (List.range (n.log2 / 2 + 1)).foldr (fun i r => if (r + 2 ^ i) * (r + 2 ^ i) ≤ n then r + 2 ^ i else r) 0

/-- √(m × 2^e) with a sticky bit below it. -/
def sqrtNum (m : Nat) (e : Int) : XNum :=
  let sh : Nat := if (e % 2 = 0) then 200 else 201
  let v := m <<< sh
  let r := isqrt v
  .fin false (2 * r + (if r * r = v then 0 else 1)) ((e - sh) / 2 - 1)

/-- 1 / (m × 2^e) with a sticky bit below it. -/
def recipNum (n : Bool) (m : Nat) (e : Int) : XNum :=
  let s := 200 + m.log2
  let q := (1 <<< s) / m
  .fin n (2 * q + (if (1 <<< s) % m = 0 then 0 else 1)) (-e - s - 1)

/-- 1 / √(m × 2^e). -/
def rsqrtNum (m : Nat) (e : Int) : XNum :=
  -- 1/√v = √(1/v): floor of √(2^(2t) / v') with a sticky bit
  let e' : Int := if e % 2 = 0 then e else e - 1
  let m' : Nat := if e % 2 = 0 then m else 2 * m
  let t := 200 + m'.log2
  let q := (1 <<< (2 * t)) / m'
  let r := isqrt q
  .fin false (2 * r + (if r * r * m' = 1 <<< (2 * t) then 0 else 1)) (-(e' / 2) - t - 1)

/-- One operation of R191 on exact inputs: the exact result and INVALID. -/
def sfuFn (op : Nat) (x y c : XNum) : XNum × Bool :=
  let pass (z : XNum) : XNum × Bool := (z, false)
  let maxOf (a b : XNum) : XNum × Bool :=
    if a.isNan || b.isNan then pass .nan else if fpLess a b then pass b else pass a
  let minOf (a b : XNum) : XNum × Bool :=
    if a.isNan || b.isNan then pass .nan else if fpLess b a then pass b else pass a
  match op with
  | 0x00 => pass x
  | 0x01 => XNum.add x y
  | 0x02 => XNum.mul x y
  | 0x03 => maxOf x y
  | 0x04 => minOf x y
  | 0x05 => XNum.add x c
  | 0x06 => XNum.mul x c
  | 0x07 => maxOf x XNum.zero
  | _ =>
    match op, x with
    | _, .nan => pass .nan
    | 0x08, .inf n => pass (if n then XNum.zero else .inf false)
    | 0x08, x => pass (expNum x)
    | 0x09, .inf n => if n then (.nan, true) else pass (.inf false)
    | 0x09, .fin n m e => if m = 0 then pass (.inf true) else if n then (.nan, true) else pass (logNum (.fin n m e))
    | 0x0A, .inf n => pass (.fin n 0 0)
    | 0x0A, .fin n m e => if m = 0 then pass (.inf n) else pass (recipNum n m e)
    | 0x0B, .inf n => if n then (.nan, true) else pass XNum.zero
    | 0x0B, .fin n m e => if m = 0 then pass (.inf n) else if n then (.nan, true) else pass (rsqrtNum m e)
    | 0x0C, .inf n => if n then (.nan, true) else pass (.inf false)
    | 0x0C, .fin n m e => if m = 0 then pass (.fin n 0 0) else if n then (.nan, true) else pass (sqrtNum m e)
    | 0x0D, .inf n => pass (.fin n 1 0)
    | 0x0D, .fin n m e => if m = 0 then pass (.fin n 0 0) else pass (tanhNum (.fin n m e))
    | 0x0E, .inf n => pass (if n then XNum.zero else .fin false 1 0)
    | 0x0E, x => pass (sigmoidNum x)
    | 0x0F, .inf n => pass (if n then .fin true 0 0 else .inf false)
    | 0x0F, .fin n m e => if m = 0 then pass (.fin n 0 0) else pass (geluNum (.fin n m e))
    | _, .inf n => pass (if n then .fin true 0 0 else .inf false)
    | _, .fin n m e => if m = 0 then pass (.fin n 0 0) else pass (siluNum (.fin n m e))

/-- The code of one result in FP32 (0) or BF16 (1), rounded once, with its events (R193, R194). -/
def sfuResult (fmt op : Nat) (x y c : XNum) : Nat × Status :=
  let (r, inv) := sfuFn op x y c
  let (code, o) := (if fmt = 0 then fp32F else bf16F).encodeIeee r
  (code, { invalid := inv, accOverflow := o })

/-- Operations that use IQ1 as well. -/
def sfuTwo (op : Nat) : Bool := 1 ≤ op && op ≤ 4

end Sys2Proof.Machine
end

