-- ==== Sys2Proof/Machine/Weave.lean ====
section
/-! DEFINITION. The weave (chapter 04): context images and their check, items, steering and
special-function units, store-port streams, context switches, balance faults. -/

namespace Sys2Proof.Machine

open Sys2Proof

/-! ### Context images (R129, R150 to R152) -/

/-- A queue address that names an input queue (R129). -/
def iqValid (qa : Nat) : Bool :=
  let u := qa / 4
  let q := qa % 4
  (u < 128) || (0x100 ≤ u && u < 0x110 && q < 2) || (0x180 ≤ u && u < 0x188 && q = 0) ||
    (0x1C0 ≤ u && u < 0x1C4 && q = 0) || (0x200 ≤ u && u < 0x220 && q < 3)

/-- Index in ROUTES of an output queue (R151). -/
def routeIndex (qa : Nat) : Option Nat :=
  let u := qa / 4
  let q := qa % 4
  if u < 128 ∧ q < 2 then some (2 * u + q)
  else if q ≠ 0 then none
  else if 0x100 ≤ u ∧ u < 0x110 then some (256 + (u - 0x100))
  else if 0x180 ≤ u ∧ u < 0x188 then some (272 + (u - 0x180))
  else if 0x1C0 ≤ u ∧ u < 0x1C4 then some (280 + (u - 0x1C0))
  else if 0x200 ≤ u ∧ u < 0x220 then some (284 + (u - 0x200))
  else none

/-- The raw entry of destination `d` of ROUTES entry `i`. -/
def Weave.routeRaw (w : Weave) (ctx i d : Nat) : Nat := w.img ctx (64 + 8 * i + 2 * d) 2

/-- Destinations of ROUTES entry `i`. An input queue that two slots name is one destination (R132). -/
def Weave.dests (w : Weave) (ctx i : Nat) : List Nat :=
  (((List.range 4).map fun d => w.routeRaw ctx i d).filterMap fun v =>
    if v.testBit 15 then some (v % 4096) else none).eraseDups

/-- A field of store port `sp`'s entry. -/
def Weave.spField (w : Weave) (ctx sp off n : Nat) : Nat := w.img ctx (2848 + 32 * sp + off) n
def Weave.spMode (w : Weave) (ctx sp : Nat) : Nat := w.spField ctx sp 0 1
def Weave.spLastEn (w : Weave) (ctx sp : Nat) : Bool := (w.spField ctx sp 1 1).testBit 0
def Weave.spRowItems (w : Weave) (ctx sp : Nat) : Nat := w.spField ctx sp 2 2
def Weave.spBase (w : Weave) (ctx sp : Nat) : Nat := w.spField ctx sp 4 4
def Weave.spRows (w : Weave) (ctx sp : Nat) : Nat := w.spField ctx sp 8 4
def Weave.spStride (w : Weave) (ctx sp : Nat) : Nat := w.spField ctx sp 12 4
def Weave.spRepeat (w : Weave) (ctx sp : Nat) : Nat := w.spField ctx sp 16 2
def Weave.spSlack (w : Weave) (ctx sp : Nat) : Nat := w.spField ctx sp 20 4
/-- A field of mesh port `mp`'s entry. -/
def Weave.mpField (w : Weave) (ctx mp off n : Nat) : Nat := w.img ctx (3104 + 16 * mp + off) n

/-- End of a store port's region (R142, R143). -/
def Weave.spEnd (w : Weave) (ctx sp : Nat) : Nat :=
  if w.spMode ctx sp = 4 then w.spBase ctx sp + 64 * w.spSlack ctx sp
  else w.spBase ctx sp + (w.spRows ctx sp - 1) * w.spStride ctx sp + 64 * w.spRowItems ctx sp

/-- The first byte of `[lo, hi)` of an image that is not 0. -/
def Weave.nonZero (w : Weave) (ctx lo hi : Nat) : List (Nat × Nat × Nat) :=
  match (List.range (hi - lo)).find? fun i => w.img ctx (lo + i) 1 ≠ 0 with
  | some i => [(0x0104, Off.WV_CTX_CMD, lo + i)]
  | none => []

/-- The check of R155 on image `ctx`. REPEAT and SLACK_ITEMS have a range in the modes that R152 gives one for,
ROWS and ROW_ITEMS in the stream modes; every mesh-port entry has its MAX_ITEMS and DEST_LC checked. Of two ROUTES
entries (0x0201) or store ports (0x0202) that clash the later one is named by INDEX (DESIGN CHOICE, log entry 39), and a
reserved bit of NEXT, FLAGS, DEST_LC, DEST_CORE, CHANNEL, MCAST or MCAST_INDEX is refused like a reserved byte, with 0x0104
(DESIGN CHOICE, log entry 41). `mapped` as CL_MAP_CTRL.MAP_EN, `inGable` whether a logical
cluster lies in the cluster's gable, `stage` whether step MESH is DONE. -/
def weaveCheck (w : Weave) (ctx : Nat) (mapped stage : Bool) (inGable : Nat → Bool) : Verdict :=
  let at_ (c i : Nat) : Nat × Nat × Nat := (c, Off.WV_CTX_CMD, i)
  let b (i : Nat) : Nat := w.img ctx i 1
  let head := failsOf
    [(!mapped, at_ 0x0301 0), (!stage, at_ 0x0702 0),
     (decide (w.img ctx 4 4 = 0), at_ 0x0102 4),
     (decide (bits (b 8) 2 5 ≠ 0), at_ 0x0104 8)]
  let resv := w.nonZero ctx 9 16 ++ w.nonZero ctx 32 64 ++ w.nonZero ctx 3296 4096
  let ends := (List.range 8).flatMap fun e =>
    let v := w.img ctx (16 + 2 * e) 2
    failsOf [(v.testBit 15 && decide (bits v 12 3 ≠ 0), at_ 0x0104 (16 + 2 * e)),
             (v.testBit 15 && !iqValid (v % 4096), at_ 0x0101 (16 + 2 * e))]
  let entries := (List.range 1264).filterMap fun k =>
    let v := w.img ctx (64 + 2 * k) 2
    if v.testBit 15 then some (k, v) else none
  let routes := entries.flatMap fun p =>
    let i := 64 + 2 * p.1
    let q := p.2 % 4096
    failsOf [(decide (bits p.2 12 3 ≠ 0), at_ 0x0104 i), (!iqValid q, at_ 0x0101 i),
             (iqValid q && entries.any fun r => r.1 / 4 < p.1 / 4 && r.2 % 4096 = q, at_ 0x0201 i)]
  let sfus := (List.range 16).flatMap fun u =>
    let o := 2592 + 8 * u
    failsOf [(decide (b o > 0x10), at_ 0x0104 o),
             (decide (b (o + 1) % 16 > 1 ∨ b (o + 1) / 16 > 1), at_ 0x0104 (o + 1))] ++
      w.nonZero ctx (o + 2) (o + 4)
  let written (sp : Nat) : Bool := w.spMode ctx sp = 3 || w.spMode ctx sp = 4
  let ports := (List.range 8).flatMap fun sp =>
    let o := 2848 + 32 * sp
    let m := w.spMode ctx sp
    let stream := m = 2 || m = 3
    let used := stream || m = 4
    failsOf
      [(decide (m > 4), at_ 0x0104 o),
       (decide (b (o + 1) ≥ 2), at_ 0x0104 (o + 1)),
       (stream && decide (w.spRowItems ctx sp = 0), at_ 0x0104 (o + 2)),
       (decide (w.spBase ctx sp % 64 ≠ 0) || (used && decide (w.spEnd ctx sp > storeSize)), at_ 0x0103 (o + 4)),
       (written sp && (List.range sp).any fun r =>
          written r && w.spBase ctx r < w.spEnd ctx sp && w.spBase ctx sp < w.spEnd ctx r, at_ 0x0202 (o + 4)),
       (stream && decide (w.spRows ctx sp = 0), at_ 0x0104 (o + 8)),
       (decide (w.spStride ctx sp % 64 ≠ 0), at_ 0x0103 (o + 12)),
       ((m = 2 && w.spRepeat ctx sp = 0) || (m = 3 && w.spRepeat ctx sp ≠ 1), at_ 0x0104 (o + 16)),
       (m = 4 && (w.spSlack ctx sp < 8 || w.spSlack ctx sp > 131072), at_ 0x0104 (o + 20))] ++
      w.nonZero ctx (o + 18) (o + 20) ++ w.nonZero ctx (o + 24) (o + 32)
  let slack := (List.range 8).foldl (fun n sp => if w.spMode ctx sp = 4 then n + w.spSlack ctx sp else n) 0
  let cores := (List.range 128).flatMap fun c =>
    let v := b (2720 + c)
    failsOf [(decide (v > 7 ∧ v ≠ 0xFF), at_ 0x0101 (2720 + c)),
             (decide (v ≤ 7) && decide (w.spMode ctx v ≠ 1), at_ 0x0203 (2720 + c))]
  let meshes := (List.range 4).flatMap fun m =>
    let o := 3104 + 16 * m
    failsOf
      [(decide (b (o + 1) ≥ 16), at_ 0x0104 (o + 1)), (decide (b (o + 2) ≥ 128), at_ 0x0104 (o + 2)),
       (decide (b (o + 4) ≥ 16), at_ 0x0104 (o + 4)), (decide (b (o + 5) ≥ 2), at_ 0x0104 (o + 5)),
       (decide (b (o + 7) ≥ 4), at_ 0x0104 (o + 7)),
       (!inGable (w.mpField ctx m 0 2 % 4096), at_ 0x0401 o),
       (decide (w.mpField ctx m 8 2 = 0 ∨ w.mpField ctx m 8 2 > 128), at_ 0x0104 (o + 8))] ++
      w.nonZero ctx (o + 10) (o + 16)
  let steer := (List.range 32).flatMap fun u =>
    let o := 3168 + 4 * u
    failsOf [(decide (b o > 1), at_ 0x0104 o)] ++ w.nonZero ctx (o + 1) (o + 4)
  leastIdx (head ++ resv ++ ends ++ routes ++ sfus ++ ports ++
    failsOf [(decide (slack > 131072), at_ 0x0501 0)] ++ cores ++ meshes ++ steer)

/-! ### Running (R156, R158, R160, R165, R172) -/

/-- Items may be sent: a context is active and nothing freezes the weave. A freeze holds the special-function
and steering units, streams, SLACK ports and the switch at an ended context as well: R158 says only that no item
is sent (log entry 53). -/
def Chip.weaveRuns (s : Chip) (cl : Nat) : Bool :=
  let x := s.cl cl
  s.bayRuns (clBay cl) && x.weave.active.isSome && !x.weavePage.freeze && !x.weave.faultFreeze &&
    !s.coreHeld cl

/-- Context `i` becomes active (R156, R157): streams start at their first item; queues, debts and
held values carry over. -/
def Cluster.activate (x : Cluster) (i : Nat) : Cluster :=
  { x with
    weave := { x.weave with active := some i, streamPos := [], lastSeen := [] }
    weavePage := x.weavePage.modReg .weave Off.WV_SWITCHES (wrapField 32 1) }

/-- Slack items discarded by a switch made while frozen (R158). -/
def Cluster.dropSlack (x : Cluster) : Cluster :=
  let n := x.weave.slack.foldl (fun a p => a + p.2.length) 0
  { x with
    weave := { x.weave with slack := [] }
    weavePage := x.weavePage.modReg .weave Off.WV_SLACK_DROP (wrapField 32 n) }

/-- Items of a store port's stream. -/
def Weave.spTotal (w : Weave) (ctx sp : Nat) : Nat :=
  w.spRows ctx sp * w.spRowItems ctx sp * (if w.spMode ctx sp = 2 then w.spRepeat ctx sp else 1)

def Weave.pos (w : Weave) (sp : Nat) : Nat := SMap.get 0 w.streamPos sp

/-- A stream is done: its final item has been sent, or written (R142). -/
def Weave.streamDone (w : Weave) (ctx sp : Nat) : Bool :=
  w.pos sp = w.spTotal ctx sp && (w.spMode ctx sp = 3 || (w.oq (4 * (0x180 + sp))).isEmpty)

/-- A store port has nothing left to do: its stream is done, its SLACK region and queues empty. -/
def Weave.spDone (w : Weave) (ctx sp : Nat) : Bool :=
  let m := w.spMode ctx sp
  let qa := 4 * (0x180 + sp)
  if m = 2 || m = 3 then w.streamDone ctx sp
  else if m = 4 then (SMap.get [] w.slack sp).isEmpty && (w.iq qa).isEmpty && (w.oq qa).isEmpty
  else true

/-- The context has ended: END_EN is 1 and every valid END entry is satisfied (R156). An entry that names a store
port without a stream is taken as the input-queue entry its address spells as well (log entry 53). -/
def Weave.ended (w : Weave) (ctx : Nat) : Bool :=
  (w.img ctx 8 1).testBit 7 &&
    (List.range 8).all fun e =>
      let v := w.img ctx (16 + 2 * e) 2
      let qa := v % 4096
      !v.testBit 15 ||
        (let sp := qa / 4 - 0x180
         if 0x180 ≤ qa / 4 && qa / 4 < 0x188 && (w.spMode ctx sp = 2 || w.spMode ctx sp = 3) then w.streamDone ctx sp
         else qa ∈ w.lastSeen)

/-- PENDING (R156): the active context has ended and the weave has not switched. -/
def Weave.endPending (w : Weave) : Bool := match w.active with | some ctx => w.ended ctx | none => false

/-- CONTEXT_END_SWITCH (R156): an ended context waits (PENDING) until its streams are done, its SLACK
ports empty and NEXT valid; then the weave switches. -/
def execContextEndSwitch (cl : Nat) (s : State) : Out := s.run fun s =>
  onUnit (cl < 4032)
    (if !s.weaveRuns cl then s
     else
       let w := (s.cl cl).weave
       match w.active with
       | none => s
       | some ctx =>
         if !w.ended ctx then s
         else
           let next := w.img ctx 8 1 % 4
           if (List.range 8).all (fun sp => w.spDone ctx sp) && w.valid.getD next false then
             s.modCl cl fun x => x.activate next
           else s)

/-! ### Errors of context memory and queue entries (R165) -/

/-- A word of image `ctx` has an uncorrectable error. -/
def Weave.imgBad (w : Weave) (ctx : Nat) : Bool := w.imgErr.any fun p => p.1 / 512 = ctx && p.2 = some true

/-- The weave runs on the active context `ctx`; an uncorrectable word of its image, or an uncorrectable entry at
the head of one of the queues, freezes it instead (R165). -/
def Chip.weaveDo (s : Chip) (cl : Nat) (heads : List (List Item)) (f : Nat → Chip) : Chip :=
  let w := (s.cl cl).weave
  match w.active with
  | none => s
  | some ctx =>
    if !s.weaveRuns cl then s
    else if w.imgBad ctx then s.weaveEcc cl 1
    else if heads.any headBad then s.weaveEcc cl 2
    else f ctx

/-! ### Items (R131, R132, R146, R148) -/

def debtKey (u side : Nat) : Nat := 2 * u + side

/-- Gathering by mesh port `m`: items leave IQ0 for the open packet until it closes (R144). An entry with an
uncorrectable error stays (R165). -/
def gatherStep (w : Weave) (ctx m : Nat) : Weave :=
  let g := SMap.get [] w.gather m
  let qa := 4 * (0x1C0 + m)
  match w.iq qa with
  | [] => w
  | i :: _ =>
    if g.length ≥ w.mpField ctx m 8 2 || g.any (·.last) || i.bad then w
    else { w.take qa 1 with gather := SMap.set [] w.gather m (g ++ [i]) }

def gatherAll (w : Weave) (ctx m : Nat) : Weave :=
  (List.range queueDepth).foldl (fun w _ => gatherStep w ctx m) w

/-- A mesh port that can gather meets an uncorrectable entry at the head of its IQ0: QUEUE_ECC (R165). -/
def Chip.gatherEcc (s : Chip) (cl ctx m : Nat) : Chip :=
  let w := (s.cl cl).weave
  let g := SMap.get [] w.gather m
  if headBad (w.iq (4 * (0x1C0 + m))) && g.length < w.mpField ctx m 8 2 && !g.any (·.last) then s.weaveEcc cl 2 else s

/-- An item arrives at an input queue. A data side of a steering unit in debt discards it (R148); a LAST item so
discarded counts as consumed by its queue for END (R156, log entry 53). -/
def Cluster.arriveItem (x : Cluster) (ctx qa : Nat) (i : Item) : Cluster :=
  let u := qa / 4
  let q := qa % 4
  if 0x200 ≤ u ∧ 1 ≤ q then
    let k := debtKey (u - 0x200) (q - 1)
    let d := SMap.get 0 x.weave.debts k
    if d > 0 then
      { x with
        weave := { (x.weave.setIq qa (x.weave.iq qa ++ [i])).take qa 1 with debts := SMap.set 0 x.weave.debts k (d - 1) }
        weavePage := x.weavePage.modReg .weave Off.WV_STEER_DISCARD (· + 1#64) }
    else { x with weave := x.weave.setIq qa (x.weave.iq qa ++ [i]) }
  else
    let w := x.weave.setIq qa (x.weave.iq qa ++ [i])
    let w := if 0x1C0 ≤ u ∧ u < 0x1C4 then gatherAll w ctx (u - 0x1C0) else w
    { x with weave := w }

/-- The physical core that the active context resolved for a logical core (R133). -/
def Cluster.resolvedCore (x : Cluster) (ctx c : Nat) : Option Nat :=
  match SMap.get 0 x.weave.resolved (128 * ctx + c) with
  | 0 => none
  | p + 1 => some p

/-- A core that gained room or an item goes on. -/
def Chip.wakeQueue (s : Chip) (cl ctx qa : Nat) : Chip :=
  if qa / 4 < 128 then
    match (s.cl cl).resolvedCore ctx (qa / 4) with
    | some p => (s.modCl cl fun x => x.pumpOut p).pumpCore cl p
    | none => s
  else s

/-- Items delivered from the mesh enter a mesh port's output queue while it has room (R144, R310). -/
def refillPort (w : Weave) (m : Nat) : Weave :=
  let qa := 4 * (0x1C0 + m)
  let d := SMap.get [] w.delivery m
  let o := w.oq qa
  let k := queueDepth - o.length
  { w.setOq qa (o ++ d.take k) with delivery := SMap.set [] w.delivery m (d.drop k) }

/-- The head of output queue `qa` cannot be sent: a destination has no free entry, or it has no destination. -/
def Weave.headBlocked (w : Weave) (ctx qa : Nat) : Bool :=
  match routeIndex qa with
  | some r =>
    let ds := w.dests ctx r
    !(w.oq qa).isEmpty && (ds.isEmpty || ds.any fun d => (w.iq d).length ≥ queueDepth)
  | none => false

/-- An output queue of unit `u` has a head that cannot be sent, for which every unit waits (R163). -/
def Weave.unitBlocked (w : Weave) (ctx u : Nat) : Bool :=
  w.headBlocked ctx (4 * u) || (u < 128 && w.headBlocked ctx (4 * u + 1))

/-- Unit `u` does not wait in this cycle: its continuous-wait count returns to 0 (R164). -/
def Weave.unwait (w : Weave) (u : Nat) : Weave :=
  { w with waitCount := SMap.set 0 w.waitCount u 0, balFaulted := w.balFaulted.filter (· ≠ u) }

/-- A unit that is no core did something, so that it does not wait in this cycle unless the head of its output
queue cannot be sent (R163, R164). -/
def Weave.acted (w : Weave) (ctx u : Nat) : Weave :=
  if u < 128 || w.unitBlocked ctx u then w else w.unwait u

/-- WEAVE_ITEM_SEND (R132): the head item of output queue `qa` goes to every destination once each has
a free entry. -/
def execWeaveItemSend (cl qa : Nat) (s : State) : Out := s.run fun s =>
  onUnit (cl < 4032 && qa < 4096)
    (s.weaveDo cl [(s.cl cl).weave.oq qa] fun ctx =>
      let w := (s.cl cl).weave
      match routeIndex qa, w.oq qa with
      | some r, i :: rest =>
        let ds := w.dests ctx r
        if ds.isEmpty || ds.any (fun d => (w.iq d).length ≥ queueDepth) then s
        else
          let s := s.modCl cl fun x =>
            let x := { x with
              weave := if qa / 4 < 128 then x.weave.setOq qa rest else (x.weave.setOq qa rest).unwait (qa / 4)
              weavePage := x.weavePage.modReg .weave Off.WV_ITEMS (· + 1#64) }
            let x := ds.foldl (fun x d => x.arriveItem ctx d i) x
            if 0x1C0 ≤ qa / 4 ∧ qa / 4 < 0x1C4 then { x with weave := refillPort x.weave (qa / 4 - 0x1C0) }
            else x
          let s := s.wakeQueue cl ctx qa
          ds.foldl (fun s d =>
            let s := s.wakeQueue cl ctx d
            if 0x1C0 ≤ d / 4 ∧ d / 4 < 0x1C4 then s.gatherEcc cl ctx (d / 4 - 0x1C0) else s) s
      | _, _ => s)

/-- STEERING_FIRE (R146, R147). -/
def execSteeringFire (cl su : Nat) (s : State) : Out := s.run fun s =>
  onUnit (cl < 4032 && su < 32)
    (let w := (s.cl cl).weave
     let u := 4 * (0x200 + su)
     s.weaveDo cl [w.iq u, w.iq (u + 1), w.iq (u + 2)] fun ctx =>
      match w.iq u with
      | [] => s
      | tok :: _ =>
        let sel := (tok.data.toNat % 2)
        let chosen := u + 1 + sel
        let other := u + 2 - sel
        let k := debtKey su (1 - sel)
        let debt := SMap.get 0 w.debts k
        match w.iq chosen with
        | [] => s
        | i :: _ =>
          if w.img ctx (3168 + 4 * su) 1 ≠ 1 || (w.oq u).length ≥ queueDepth || debt ≥ 255 then s
          else
            s.modCl cl fun x =>
              let w := ((x.weave.take u 1).take chosen 1).acted ctx (u / 4)
              let w := w.setOq u (w.oq u ++ [i])
              if (w.iq other).isEmpty then
                { x with weave := { w with debts := SMap.set 0 w.debts k (debt + 1) } }
              else
                { x with
                  weave := w.take other 1
                  weavePage := x.weavePage.modReg .weave Off.WV_STEER_DISCARD (· + 1#64) })

/-! ### Special-function units (R145, R191 to R193) -/

/-- The values of an item in FP32 (16) or BF16 (32). -/
def itemValues (fmt : Nat) (i : Item) : List XNum :=
  if fmt = 0 then (List.range 16).map fun k => fp32F.decode (bits i.data.toNat (32 * k) 32)
  else (List.range 32).map fun k => bf16F.decode (bits i.data.toNat (16 * k) 16)

/-- Codes packed into one item's payload. -/
def packItem (fmt : Nat) (cs : List Nat) : BitVec 512 :=
  BitVec.ofNat 512 (packElems (if fmt = 0 then 32 else 16) cs)

/-- SFU_FIRE (R145, R193): one item consumed from each queue used, results in order. Sixteen results
that fill half a BF16 item, or the second FP32 item of thirty-two, are held for the next output; an input item marked
LAST sends a half-filled BF16 item at once, its upper half 0 (DESIGN CHOICE, log entry 52). -/
def execSfuFire (cl sfu : Nat) (s : State) : Out := s.run fun s =>
  onUnit (cl < 4032 && sfu < 16)
    (let x := s.cl cl
     let w := x.weave
     let u := 4 * (0x100 + sfu)
     s.weaveDo cl [w.iq u, w.iq (u + 1)] fun ctx =>
       let o := 2592 + 8 * sfu
       let op := w.img ctx o 1
       let fi := w.img ctx (o + 1) 1 % 16
       let fo := w.img ctx (o + 1) 1 / 16
       let c := fp32F.decode (w.img ctx (o + 4) 4)
       let held := SMap.get none w.sfuHold sfu
       if (w.oq u).length ≥ queueDepth then s
       else
         match held, decide (fi = 1 ∧ fo = 0) with
         | some h, true =>
           s.modCl cl fun x => { x with
             weave := { (x.weave.acted ctx (u / 4)).setOq u (x.weave.oq u ++ [h]) with sfuHold := SMap.set none x.weave.sfuHold sfu none } }
         | _, _ =>
           match w.iq u, (if sfuTwo op then (w.iq (u + 1)).head? else some ({} : Item)) with
           | a :: _, some b =>
             let last := a.last || (sfuTwo op && b.last)
             let xs := itemValues fi a
             let ys := itemValues fi b
             let rs := (List.range xs.length).map fun k =>
               sfuResult fo op (xs.getD k .nan) (ys.getD k .nan) c
             let codes := rs.map (·.1)
             let st : Status := rs.foldl (fun (st : Status) r => st.or r.2) {}
             let w := (x.weave.take u 1).acted ctx (u / 4)
             let w := if sfuTwo op then w.take (u + 1) 1 else w
             let push (w : Weave) (i : Item) : Weave := w.setOq u (w.oq u ++ [i])
             let hold (w : Weave) (h : Option Item) : Weave := { w with sfuHold := SMap.set none w.sfuHold sfu h }
             let w :=
               if fi = fo then push w { data := packItem fo codes, last }
               else if fi = 1 then
                 hold (push w { data := packItem 0 (codes.take 16) }) (some { data := packItem 0 (codes.drop 16), last })
               else
                 match held with
                 | some h => hold (push w { data := h.data ||| (packItem 1 codes <<< 256), last }) none
                 | none =>
                   if last then push w { data := packItem 1 codes, last := true }
                   else hold w (some { data := packItem 1 codes })
             s.setCl cl { x with
               weave := w
               sfuFires := x.sfuFires + 1
               page := x.page.modReg .cluster Off.CL_SFU_ASTAT (· ||| st.sfuAstat) }
           | _, _ => s)

/-! ### Waits (R163, R164) -/

/-- The units of a weave count their waits: a context is active and the cluster's clocks do not stand under a halt,
a STORE_ECC stop or a save. A freeze stops no count: a unit goes on holding work it cannot do (R163, R164). -/
def Chip.weaveCounts (s : Chip) (cl : Nat) : Bool :=
  s.bayRuns (clBay cl) && (s.cl cl).weave.active.isSome && !s.coreHeld cl

/-- The active context's BALANCE_LIMIT. -/
def Weave.limit (w : Weave) : Nat := match w.active with | some ctx => w.img ctx 4 4 | none => 0

/-- Unit `u` of cluster `cl` has waited `k` more cycles for the reason `kind`, its blocked queue at `qa`: the
cycles are counted, and a count above BALANCE_LIMIT is a balance fault, one for each wait, which freezes the weave.
A wait that a switch carries into a context whose limit it already exceeds faults in the next cycle it counts. The
first fault is recorded, later ones counted (R157, R164 to R166). -/
def Chip.addWait (s : Chip) (cl u kind qa k : Nat) : Chip :=
  let w := (s.cl cl).weave
  let pg := PageRef.weave cl
  let was := SMap.get 0 w.waitCount u
  let s := s.modCl cl fun x => { x with weave := { x.weave with waitCount := SMap.set 0 x.weave.waitCount u (was + k) } }
  let s := s.modReg pg Off.WV_BAL_MAX fun v => putFld v 0 32 (max (fld v 0 32) (min (was + k) (2 ^ 32 - 1)))
  let s := s.count pg Off.WV_WAIT k
  if k = 0 then s
  else if was + k ≤ w.limit then
    s.modCl cl fun x => { x with weave := { x.weave with balFaulted := x.weave.balFaulted.filter (· ≠ u) } }
  else if u ∈ w.balFaulted then s
  else
    let s := s.modCl cl fun x => { x with weave := { x.weave with faultFreeze := true, balFaulted := u :: x.weave.balFaulted } }
    if bit (s.reg pg Off.WV_BAL_STATUS) 0 then s.countSat pg Off.WV_BAL_MORE 16 1
    else
      let v := BitVec.ofNat 64 (1 + (kind % 16) <<< 4 + (qa % 4096) <<< 8 + (w.limit % 2 ^ 32) <<< 32)
      let s := (s.setReg pg Off.WV_BAL_STATUS v).setReg pg Off.WV_BAL_TIME (s.clTime cl)
      s.raise pg 0 v.toNat

/-! ### Store ports (R141 to R143) -/

/-- STORE_PORT_ACCESS (R141, R163): of the logical cores `ns` that ask in one cycle the port serves one, in
ascending order from the core served last; the others spend a wait cycle (KIND 4). -/
def execStorePortAccess (cl sp : Nat) (ns : List Nat) (s : State) : Out := s.run fun s =>
  onUnit (cl < 4032 && sp < 8)
    (let w := (s.cl cl).weave
     match w.active with
     | none => s
     | some ctx =>
       let ask := ns.filter fun c => c < 128 && w.spMode ctx sp = 1 && w.img ctx (2720 + c) 1 = sp
       let last := match SMap.get 0 w.portLast sp with | 0 => none | c + 1 => some c
       match rotate last ask with
       | none => s
       | some c =>
         if !s.bayRuns (clBay cl) || s.coreHeld cl then s
         else
           let runs := s.weaveCounts cl
           let s := s.modCl cl fun x => { x with weave := { x.weave with portLast := SMap.set 0 x.weave.portLast sp (c + 1) } }
           (ask.filter fun d => d ≠ c).foldl (fun s d =>
             match (s.cl cl).resolvedCore ctx d with
             | some p =>
               let s := s.modCore cl p fun k => { k with waitCycles := k.waitCycles + 1#64 }
               if runs then s.addWait cl d 4 (4 * d) 1 else s
             | none => s) s)

/-- Offset of stream item `n` (R142). -/
def Weave.streamAddr (w : Weave) (ctx sp n : Nat) : Nat :=
  let per := w.spRowItems ctx sp
  let m := n % (w.spRows ctx sp * per)
  w.spBase ctx sp + m / per * w.spStride ctx sp + m % per * 64

def Weave.bump (w : Weave) (sp : Nat) : Weave := { w with streamPos := SMap.set 0 w.streamPos sp (w.pos sp + 1) }

/-- READ_STREAM (R142): the next item is read and put in OQ0. -/
def execReadStream (cl sp : Nat) (s : State) : Out := s.run fun s =>
  onUnit (cl < 4032 && sp < 8)
    (s.weaveDo cl [] fun ctx =>
       let x := s.cl cl
       let qa := 4 * (0x180 + sp)
       let n := x.weave.pos sp
       let total := x.weave.spTotal ctx sp
       if x.weave.spMode ctx sp ≠ 2 || n ≥ total || (x.weave.oq qa).length ≥ queueDepth then s
       else
         match x.storeRead (x.weave.streamAddr ctx sp n) 64 with
         | (x, none) => (s.setCl cl x).storeStop cl false
         | (x, some bs) =>
           let i := Item.ofBytes bs (x.weave.spLastEn ctx sp && n + 1 = total)
           s.setCl cl { x with weave := ((x.weave.acted ctx (0x180 + sp)).setOq qa (x.weave.oq qa ++ [i])).bump sp })

/-- WRITE_STREAM (R142): the item at IQ0 is written in stream order. -/
def execWriteStream (cl sp : Nat) (s : State) : Out := s.run fun s =>
  onUnit (cl < 4032 && sp < 8)
    (let qa := 4 * (0x180 + sp)
     s.weaveDo cl [(s.cl cl).weave.iq qa] fun ctx =>
       let x := s.cl cl
       match x.weave.iq qa with
       | [] => s
       | i :: _ =>
         let n := x.weave.pos sp
         if x.weave.spMode ctx sp ≠ 3 || n ≥ x.weave.spTotal ctx sp then s
         else
           let (x, _) := x.storeWrite (x.weave.streamAddr ctx sp n) i.bytes
           s.setCl cl { x with weave := ((x.weave.take qa 1).bump sp).acted ctx (0x180 + sp) })

/-- Where item `n` of those that entered a SLACK region lies. -/
def Weave.slackAddr (w : Weave) (ctx sp n : Nat) : Nat := w.spBase ctx sp + 64 * (n % w.spSlack ctx sp)

/-- SLACK_PASS (R143): with `flag` an item enters the FIFO region from IQ0, otherwise its oldest item is read from
the region for OQ0; an uncorrectable word there stops the cluster (R172). -/
def execSlackPass (cl sp : Nat) (flag : Bool) (s : State) : Out := s.run fun s =>
  onUnit (cl < 4032 && sp < 8)
    (let qa := 4 * (0x180 + sp)
     s.weaveDo cl (if flag then [(s.cl cl).weave.iq qa] else []) fun ctx =>
       let x := s.cl cl
       let fifo := SMap.get [] x.weave.slack sp
       let n := x.weave.pos sp
       if x.weave.spMode ctx sp ≠ 4 then s
       else if flag then
         match x.weave.iq qa with
         | [] => s
         | i :: _ =>
           if fifo.length ≥ x.weave.spSlack ctx sp then s
           else
             let (x, _) := x.storeWrite (x.weave.slackAddr ctx sp n) i.bytes
             let w := ((x.weave.take qa 1).bump sp).acted ctx (0x180 + sp)
             let w := { w with slack := SMap.set [] w.slack sp (fifo ++ [i.last]) }
             s.setCl cl { x with
               weave := w
               weavePage := x.weavePage.modReg .weave Off.WV_SLACK_PEAK fun v =>
                 putFld v 0 18 (max (fld v 0 18) (fifo.length + 1)) }
       else
         match fifo with
         | [] => s
         | last :: rest =>
           if (x.weave.oq qa).length ≥ queueDepth then s
           else
             match x.storeRead (x.weave.slackAddr ctx sp (n - fifo.length)) 64 with
             | (x, none) => (s.setCl cl x).storeStop cl false
             | (x, some bs) =>
               let w := (x.weave.acted ctx (0x180 + sp)).setOq qa (x.weave.oq qa ++ [Item.ofBytes bs last])
               s.setCl cl { x with weave := { w with slack := SMap.set [] w.slack sp rest } })

end Sys2Proof.Machine
end

