-- ==== Sys2Proof/Machine/Mesh.lean ====
section
/-! DEFINITION. Routers and links (chapter 08): ports and neighbours, tables, injection, hops,
strangers, acknowledgements and losses, link errors, table arming, epochs, router reset. A packet
moves whole at each hop; flits, buffers and cycle times are left out (log entry 12). -/

namespace Sys2Proof.Machine

open Sys2Proof

/-- A packet enters router `cl` from a local source, its header completed from the router's own state; a multicast
packet's DEST_LC is written 0 (R319). -/
def Chip.inject (s : Chip) (cl : Nat) (k : Packet) : Chip :=
  let (k, o, s) := s.stamped cl { k with srcLC := (s.cl cl).lc.getD 0, destLC := if k.mcast then 0 else k.destLC }
  let leaves := if k.mcast then fld ((s.router cl).mcastWord k.epoch k.mIndex) 24 12 else 1
  s.modRouter cl fun r => { r with
    inbuf := r.inbuf ++ [{ port := 8, pkt := k }]
    outstanding := r.outstanding ++ [{ o with leaves }] }

/-- The answer to a delivered packet enters the router it was delivered at. -/
def Chip.respond (s : Chip) (cl : Nat) (k : Packet) (ptype : Nat) (payload : List Byte := []) : Chip :=
  let a := s.answerTo cl k ptype payload
  s.modRouter cl fun r => { r with inbuf := r.inbuf ++ [{ port := unitPort k.destUnit, pkt := a }] }

def Chip.ack (s : Chip) (cl : Nat) (k : Packet) : Chip := s.respond cl k 4
def Chip.ackErr (s : Chip) (cl : Nat) (k : Packet) : Chip := s.respond cl k 5

/-! ### Hops (R306, R315, R316, R319) -/

/-- A waiting packet after the discards of R316 and R319, and how many it costs: a packet without a valid entry or
whose link is not UP, and each copy of a multicast packet whose link is not UP. -/
def Router.sift (r : Router) (i : InPacket) : Option InPacket × Nat :=
  match r.lookup i.pkt with
  | none => (none, 1)
  | some (ps, _) =>
    let left := ps.filter fun p => !(p ∈ i.served)
    let dead := left.filter fun p => !(r.portUp p || r.portHolds p)
    if dead.length = left.length then (none, dead.length) else (some { i with served := i.served ++ dead }, dead.length)

/-- Packets and copies discarded at a router for their tables or a link that is not UP. -/
def Chip.dropUnrouted (s : Chip) (cl : Nat) : Chip :=
  let r := s.router cl
  let n := r.inbuf.foldl (fun n i => n + (r.sift i).2) 0
  let s := s.modRouter cl fun r => { r with inbuf := r.inbuf.filterMap fun i => (r.sift i).1 }
  if n = 0 then s else s.count (.cluster cl) Off.CL_RT_DROP n

/-- Port `p` can take packet `k` with escape level `esc` after it: the neighbour's input buffer has a hop credit
(R306), a bay memory controller takes another read, which waits on channel 8 alone (R238, R309), and what an engine
refuses can be answered. -/
def Chip.hasRoom (s : Chip) (cl p : Nat) (k : Packet) (esc : Nat) : Bool :=
  if p < 8 then
    ((s.router cl).link p).replaying.isNone &&
      (match neighbour cl p with
       | none => false
       | some nb => s.bufferRoom nb (oppPort p) ({ k with esc }.occupies (s.clTint nb)))
  else !(p = 9 && k.destUnit = 0x10 && k.ptype = 2 && k.channel = 8 && decide (s.readsTracked (clBay cl) ≥ maxReads)) &&
    !(p = 8 && 9 ≤ k.destUnit && k.ptype ≤ 2 && !s.answerRoom cl k)

/-! ### Crossing a link (R325, R326) -/

/-- A packet wholly received at the far end of port `p`: into the input buffer, or discarded as a stranger (R332). -/
def Chip.received (s : Chip) (cl p nb : Nat) (k : Packet) : Chip :=
  let s := s.modLink cl p fun l => { l with replays := 0, replaying := none }
  if s.mayEnter nb k.tint then s.modRouter nb fun r => { r with inbuf := r.inbuf ++ [{ port := oppPort p, pkt := k }] }
  else s.stranger nb k false

/-- The flits of packet `k` from flit `from_` on are sent over port `p`. -/
def Chip.sendFlits (s : Chip) (cl p nb : Nat) (k : Packet) (from_ : Nat) : Chip :=
  let c := ((s.router cl).link p).cross (k.flits - from_)
  let s := (s.modLink cl p fun _ => c.link).countFixed nb (oppPort p) c.fixed c.symbols
  if from_ + c.got ≥ k.flits then s.received cl p nb k
  else s.modLink cl p fun l => { l with
    replaying := some (k, from_ + c.got), replays := if c.got = 0 then l.replays else 0 }

/-- A packet leaves router `cl` by port `p`: over a link, or to its delivery point. The engines take no packet but
answers (R300): others are answered with ACK_ERR as they arrive, and reserved types discarded. -/
def Chip.leave (s : Chip) (cl : Nat) (k : Packet) (p : Nat) : Chip :=
  if p < 8 then
    match neighbour cl p with
    | none => s
    | some nb => (s.countFlits cl p k).sendFlits cl p nb k 0
  else if k.doomed then s.count (.cluster cl) Off.CL_RT_DROP 1
  else if p = 8 && 9 ≤ k.destUnit && !(3 ≤ k.ptype && k.ptype ≤ 5) then
    if k.tint ≠ s.clTint cl then s.stranger cl k true else if k.ptype ≤ 2 then s.ackErr cl k else s
  else if p = 8 then s.modRouter cl fun r => { r with arrived := r.arrived ++ [k] }
  else if p = 9 then s.modBay (clBay cl) fun b => { b with arrived := b.arrived ++ [(cl, k)] }
  else if k.destUnit = 0x13 then if !s.hostOpen cl then s.count (.cluster cl) Off.CL_RT_DROP 1 else { s with link := { s.link with arrived := s.link.arrived ++ [(cl, k)] } }
  else match eaveAt cl with
    | some e => s.modEave e fun x => { x with arrived := x.arrived ++ [k] }
    | none => s

/-- The packet output port `p` grants: of the channels with one ready, the next after the channel
granted last; within it the next input port; of these the oldest (R306). -/
def Chip.grant (s : Chip) (cl p : Nat) : Option (Nat × InPacket) :=
  let r := s.router cl
  let t := s.clTint cl
  let ready := r.inbuf.filter fun i => match r.lookup i.pkt with
    | some (ps, esc) => p ∈ ps && !(p ∈ i.served) && s.hasRoom cl p i.pkt esc
    | none => false
  let last (n : Nat) : Option Nat := match n with | 0 => none | c + 1 => some c
  match rotate (last (SMap.get 0 r.lastChan p)) (ready.map fun i => i.pkt.occupies t) with
  | none => none
  | some c =>
    let here := ready.filter fun i => i.pkt.occupies t = c
    match rotate (last (SMap.get 0 r.lastPort (16 * p + c))) (here.map (·.port)) with
    | none => none
    | some ip => (here.find? fun i => i.port = ip).map fun i => (c, i)

/-- Port `p` has taken its copy of packet `i`, which stays for the ports still to be served. -/
def takeCopy (r : Router) (i : InPacket) (p : Nat) : List InPacket :=
  match r.lookup i.pkt with
  | some (ps, _) =>
    if (ps.filter fun q => !(q ∈ i.served)).length ≤ 1 then r.inbuf.erase i
    else r.inbuf.map fun x => if x = i then { x with served := x.served ++ [p] } else x
  | none => r.inbuf.erase i

/-- PACKET_HOP (R315): output port `port` of router `cl` grants a packet and sends it on, or one copy of a
multicast packet, which no other port's copy holds (R319). -/
def execPacketHop (cl port : Nat) (s : State) : Out := s.run fun s =>
  onUnit (cl < 4032 && port < 11)
    (if !(s.router cl).up then s
     else
       let s := s.dropUnrouted cl
       let r := s.router cl
       if r.portHolds port then s
       else match s.grant cl port with
         | none => s
         | some (c, i) =>
           match r.lookup i.pkt with
           | none => s
           | some (_, esc) =>
             let s := s.modRouter cl fun r => { r with
               inbuf := takeCopy r i port
               lastChan := SMap.set 0 r.lastChan port (c + 1)
               lastPort := SMap.set 0 r.lastPort (16 * port + c) (i.port + 1) }
             s.leave cl { i.pkt with esc := esc } port)

/-! ### Acknowledgements and losses (R307, R308, R320) -/

/-- The channels of sources that have packets outstanding. -/
def busyChannels (l : List Outstanding) : List Nat := (l.map fun o => srcKey o.unit o.channel).dedup
def Router.busyKeys (r : Router) : List Nat := busyChannels r.outstanding

/-- Where the HIB injects (R433). -/
def Chip.hibCluster (s : Chip) : Nat := hostCluster s.link.attach

/-- An answer to outstanding packet `o` among `l`: one leaf returns. -/
def takeLeaf (o : Outstanding) : List Outstanding → List Outstanding
  | [] => []
  | x :: xs => if x = o then (if x.leaves ≤ 1 then xs else { x with leaves := x.leaves - 1 } :: xs) else x :: takeLeaf o xs

/-- The packet an ACK, ACK_ERR or READ_RESP answers. -/
def answered (l : List Outstanding) (k : Packet) : Option Outstanding :=
  l.find? fun o => o.unit = k.destUnit && o.sub = k.destCore && o.seq = k.seq &&
    (k.ptype = 3 || o.channel = k.ackCh)

/-- The first arrived packet that satisfies `f`, and the cluster without it. -/
def Chip.takeArrived (s : Chip) (cl : Nat) (f : Packet → Bool) : Option (Packet × Chip) :=
  match (s.router cl).arrived.find? f with
  | none => none
  | some k => some (k, s.modRouter cl fun r => { r with arrived := r.arrived.erase k })

/-- A loss recorded in CL_RT_E2E and reported. -/
def Chip.noteLost (s : Chip) (cl : Nat) (o : Outstanding) : Chip :=
  let pg := PageRef.cluster cl
  let s :=
    if bit (s.reg pg Off.CL_RT_E2E) 0 then s
    else
      (s.setReg pg Off.CL_RT_E2E (BitVec.ofNat 64 (1 + o.channel <<< 1 + o.unit <<< 5 + o.seq <<< 16))).setReg
        pg Off.CL_RT_E2E_TIME (s.clTime cl)
  s.raise pg 8 (s.reg pg Off.CL_RT_E2E).toNat

/-- The answer to `o` can no longer come in time (R308): more than CL_RT_ACK_TIMEOUT has passed since it left. -/
def Chip.tooLate (s : Chip) (cl : Nat) (o : Outstanding) : Bool :=
  decide ((s.clTime cl - o.sentAt).toNat > fld (s.reg (.cluster cl) Off.CL_RT_ACK_TIMEOUT) 0 32)

/-- The access that waits for the answer to bias request `seq`, sent through router `cl`, stays without it. -/
def Chip.biasLost (s : Chip) (cl seq : Nat) : Chip :=
  (s.clusters.map (·.1)).foldl (fun s c => (List.range 5).foldl (fun s u =>
    match ((s.cl c).engine u).hostReads.find? fun p => p.2.any fun h => h.through = some cl && h.seq = seq && h.data.isNone with
    | some (q, _) => s.modEngine c u fun e => if q ∈ e.lost then e else { e with lost := e.lost ++ [q] }
    | none => s) s) s

/-- The credit of `o` given back without an answer; a unit whose access it was stays without it. -/
def Chip.giveBack (s : Chip) (cl : Nat) (o : Outstanding) : Chip :=
  let s := (s.modRouter cl fun r => { r with outstanding := r.outstanding.erase o }).noteLost cl o
  if o.unit = 0x10 then s.biasLost cl o.seq
  else if 9 ≤ o.unit && o.unit ≤ 0x0D then
    s.modEngine cl (o.unit - 9) fun e => if o.sub ∈ e.lost then e else { e with lost := e.lost ++ [o.sub] }
  else s

/-- The request that an answer of the host is for. -/
def HostRead.is (h : HostRead) (through : Option Nat) (k : Packet) : Bool :=
  h.through = through && h.seq = k.seq && h.data.isNone

/-- The unit whose access waits gets the host's answer. -/
def Engine.hostAnswer (e : Engine) (through : Option Nat) (k : Packet) : Engine :=
  { e with hostReads := SMap.mapVals [] e.hostReads fun q l =>
      if through.isNone && q ≠ k.destCore then l
      else l.map fun h => if h.is through k then { h with data := some k.payload } else h }

/-- A host-region access of gable `t` sent at `asked` completes: what it took beyond HOST_LAT_NS is a FABRIC window
(R351). -/
def Chip.hostDone (s : Chip) (t : Nat) (asked : W) : Chip :=
  match Config.hostLat t with
  | none => s
  | some l =>
    let due := asked + BitVec.ofNat 64 l
    if s.now.toNat ≤ due.toNat then s
    else s.modGable t fun g => { g with windows := g.windows ++ [⟨.fabric, due, some s.now⟩] }

/-- The host's answer reaches unit `u` of cluster `cl` (R452, R462). -/
def Chip.hostAnswer (s : Chip) (cl u : Nat) (through : Option Nat) (k : Packet) : Chip :=
  let e := (s.cl cl).engine u
  match e.hostReads.findSome? fun p => if through.isNone && p.1 ≠ k.destCore then none else p.2.find? (·.is through k) with
  | none => s
  | some h => (s.modEngine cl u fun e => e.hostAnswer through k).hostDone (s.clTint cl) h.asked

/-- A delivered answer at its source cluster: the credit returns, and read data goes to its unit; or it comes late,
and its loss is noted if it had not been (R307, R308). -/
def Chip.answer (s : Chip) (cl : Nat) (k : Packet) : Chip :=
  match answered (s.router cl).outstanding k with
  | none => s.count (.cluster cl) Off.CL_RT_LATE 1
  | some o =>
    if s.tooLate cl o then (s.giveBack cl o).count (.cluster cl) Off.CL_RT_LATE 1
    else
      let s := s.modRouter cl fun r => { r with outstanding := takeLeaf o r.outstanding }
      let s := if k.ptype = 3 && 9 ≤ k.destUnit && k.destUnit ≤ 0x0D then
          s.hostAnswer cl (k.destUnit - 9) none k
        else s
      if k.ptype = 5 then s.count (.cluster cl) Off.CL_RT_ACK_ERR 1 else s

/-- The host's answer to a bias request, at router `home` of the controller's bay: the router that sent the request
gets its credit back, and the access that waits has its answer; or it comes late (R308, R462). -/
def Chip.biasAnswer (s : Chip) (home : Nat) (k : Packet) : Chip :=
  let late (s : Chip) : Chip := s.count (.cluster home) Off.CL_RT_LATE 1
  match (List.range 4032).findSome? fun r =>
      if clBay r = clBay home then (answered (s.router r).outstanding k).map fun o => (r, o) else none with
  | none => late s
  | some (r, o) =>
    if s.tooLate r o then late (s.giveBack r o)
    else
      let s := s.modRouter r fun x => { x with outstanding := takeLeaf o x.outstanding }
      (s.clusters.map (·.1)).foldl (fun s cl => (List.range 5).foldl (fun s u => s.hostAnswer cl u (some r) k) s) s

/-- A queue command's packet answered or lost: status MESH_LOST for a refusal or a loss (R447). -/
def HibCmd.answered (c : HibCmd) (ch seq : Nat) (bad : Bool) : HibCmd :=
  if (ch, seq) ∈ c.waits then
    { c with waits := c.waits.erase (ch, seq), status := if bad && c.status = 0 then 6 else c.status }
  else c

/-- A packet of the HIB lost: its credit returns, and its command ends with MESH_LOST. -/
def Chip.hibLost (s : Chip) (o : Outstanding) : Chip :=
  { s with link := { s.link with
      outstanding := s.link.outstanding.erase o
      running := s.link.running.map fun (c : HibCmd) => c.answered o.channel o.seq true } }.noteLost s.hibCluster o

/-- A packet of an eave port lost: its credit returns. -/
def Chip.portLost (s : Chip) (p : Nat) (o : Outstanding) : Chip :=
  (s.modEave p fun e => { e with outstanding := e.outstanding.erase o }).noteLost (eaveCluster p) o

/-- E2E_LOST (R308): the oldest packet unanswered beyond CL_RT_ACK_TIMEOUT gives its credit back: a
packet of the cluster's sources, else one of the bridge attached here. -/
def execE2eLost (cl : Nat) (s : State) : Out := s.run fun s =>
  onUnit (cl < 4032)
    (match (s.router cl).outstanding.find? (s.tooLate cl) with
     | some o => s.giveBack cl o
     | none =>
       match eaveAt cl with
       | some p => match (s.eave p).outstanding.find? (s.tooLate cl) with
         | none => s
         | some o => s.portLost p o
       | none =>
         if cl ≠ s.hibCluster then s
         else match s.link.outstanding.find? (s.tooLate cl) with
           | none => s
           | some o => s.hibLost o)

/-! ### Links (R290, R326 to R330) -/

/-- One end of a link goes OUT: the packet in its replay buffer and what waits for the port are discarded and
counted, and the field controller reports it (R328). -/
def Chip.endOut (s : Chip) (cl p : Nat) : Chip :=
  let held := ((s.router cl).link p).replaying.isSome
  let s := s.modLink cl p fun l => { l with state := .out, replays := 0, replaying := none }
  let s := if held then s.count (.cluster cl) Off.CL_RT_DROP 1 else s
  (s.dropUnrouted cl).raise (.cluster cl) 10 p

/-- The HIB injects at attach cluster `a` from now on, under the epoch of that router (R324, R433). -/
def Chip.hibAttach (s : Chip) (a : Nat) : Chip :=
  let e := (s.router (hostCluster a)).cur
  { s with link := { s.link with
      attach := a, cur := e, flipping := if e = s.link.cur then s.link.flipping else busyChannels s.link.outstanding } }

/-- The injection cluster of the HIB is a hole, or its link there is OUT: once the mesh has been brought up, the other one takes over when it is
none (R433). -/
def Chip.hibOff (s : Chip) (cl : Nat) : Chip :=
  let other := 1 - s.link.attach
  if cl = s.hibCluster && bit s.bringup.done 6 && s.inService (hostCluster other) && s.hostOpen (hostCluster other) then s.hibAttach other else s

/-- A link goes OUT at both ends; the outward −y link of an attach cluster is that to the host bridge (R433). -/
def Chip.linkOut (s : Chip) (cl p : Nat) : Chip :=
  match neighbour cl p with
  | none =>
    if !hostAt cl || p ≠ 3 || !s.hostOpen cl then s
    else ({ s with link := { s.link with attachOut := s.link.attachOut ++ [cl] } }.raise (.cluster cl) 10 p).hibOff cl
  | some nb => (s.endOut cl p).endOut nb (oppPort p)

/-- What the replay buffer of a link that is OUT still holds is discarded and counted (R328). -/
def Chip.dropReplay (s : Chip) (cl p : Nat) : Chip :=
  if ((s.router cl).link p).replaying.isSome then
    (s.modLink cl p fun l => { l with replaying := none, replays := 0 }).count (.cluster cl) Off.CL_RT_DROP 1
  else s

/-- A link that ends at a hole is OUT (R331): one that carried traffic under R328, and what a link already OUT still
holds for it goes as well. -/
def Chip.linkOff (s : Chip) (cl p : Nat) : Chip :=
  match ((s.router cl).link p).state, neighbour cl p with
  | .up, _ | .failing, _ => s.linkOut cl p
  | _, some nb => ((s.modBoth cl p fun l => { l with state := .out }).dropReplay cl p).dropReplay nb (oppPort p)
  | _, none => s

/-- An eave port and the HIB take CUR from their attach router's whenever that changes, channel by channel (R324,
R419). -/
def Chip.followCur (s : Chip) (cl : Nat) : Chip :=
  let e := (s.router cl).cur
  let s := match eaveAt cl with
    | some p => if (s.eave p).cur = e then s
      else s.modEave p fun x => { x with cur := e, flipping := busyChannels x.outstanding }
    | none => s
  if cl = s.hibCluster && s.link.cur ≠ e then
    { s with link := { s.link with cur := e, flipping := busyChannels s.link.outstanding } }
  else s

/-- What a router that is a hole means for the chiplet attached to it (R394, R419, R433). -/
def Chip.chipletOff (s : Chip) (cl : Nat) : Chip := ((s.portOff cl).followCur cl).hibOff cl

/-- Every link of a router. -/
def Chip.linksOff (s : Chip) (cl : Nat) : Chip := ((List.range 8).foldl (fun s p => s.linkOff cl p) s).chipletOff cl

/-- FLIT_REPLAY (R326): a flit of the link was refused, and it and every later flit are sent again in order. -/
def execFlitReplay (cl lp : Nat) (s : State) : Out := s.run fun s =>
  onUnit (cl < 4032 && lp < 8)
    (let l := (s.router cl).link lp
     if l.state ≠ .up then s
     else
       let s := (s.modLink cl lp fun l => { l with replays := l.replays + 1 }).count (.cluster cl) Off.CL_RT_REPLAYS 1
       match l.replaying, neighbour cl lp with
       | some (k, from_), some nb => s.sendFlits cl lp nb k from_
       | _, _ => s)

/-- LINK_FAILING (R327): eight replays of one flit in a row. -/
def execLinkFailing (cl lp : Nat) (s : State) : Out := s.run fun s =>
  onUnit (cl < 4032 && lp < 8)
    (let l := (s.router cl).link lp
     if l.state ≠ .up || l.replays < 8 then s else s.modBoth cl lp fun l => { l with state := .failing })

/-- Group of a wire (R290). -/
def wireGroup (w : Nat) : Nat := if w < 1024 then w / 16 else w - 1024

/-- A spare put in the place of a wire, with its wear-log entry (R555). -/
def Chip.placeSpare (s : Chip) (cl p wire : Nat) : Chip :=
  let s := s.modLink cl p fun l => { l with spares := SMap.set none l.spares (wireGroup wire) (some wire) }
  s.wearAdd 2 [clX cl, clY cl, p, wire]

/-- Some group has more failing wires among `ws` than spares (R327). -/
def Link.shortOf (l : Link) (ws : List Nat) : Bool :=
  (List.range 64).any fun g =>
    (ws.filter fun w => w < 1088 && wireGroup w = g).length > (if SMap.get none l.spares g = none then 1 else 0)

/-- A spare in the place of each failing wire. -/
def Chip.placeSpares (s : Chip) (cl p : Nat) (ws : List Nat) : Chip :=
  (ws.filter (· < 1088)).foldl (fun s w => s.placeSpare cl p w) s

/-- Calibration of both directions of the link at port `p` of `cl`, `ws` and `back` their failing wires: with more of them
in any group than spares, in either direction, no spare is put in place (R327). -/
def Chip.calibrateBoth (s : Chip) (cl p : Nat) (ws back : List Nat) : Chip × Bool :=
  match neighbour cl p with
  | none => (s, false)
  | some nb =>
    if ((s.router cl).link p).shortOf ws || ((s.router nb).link (oppPort p)).shortOf back then (s, false)
    else ((s.placeSpares cl p ws).placeSpares nb (oppPort p) back, true)

/-- The replay that ends a calibration passes: the link is UP, and the packet it held goes on (R327). -/
def Chip.calibrated (s : Chip) (cl p : Nat) : Chip :=
  let held := ((s.router cl).link p).replaying
  let s := s.modBoth cl p fun l => { l with state := .up, replays := 0 }
  let s := s.modLink cl p fun l => { l with noise := [] }
  match held, neighbour cl p with
  | some (k, _), some nb => s.received cl p nb k
  | _, _ => s

/-- CALIBRATION_END (R327): `ns` are the failing wires, those of the direction back as 2,048 + wire; `flag` whether the
replayed flit then passes. A group with more failing wires than spares marks the link OUT and no spare is placed. -/
def execCalibrationEnd (cl lp : Nat) (ns : List Nat) (flag : Bool) (s : State) : Out := s.run fun s =>
  onUnit (cl < 4032 && lp < 8)
    (let l := (s.router cl).link lp
     if l.state ≠ .failing then s
     else
       let (s, ok) := s.calibrateBoth cl lp (ns.filter (· < 2048)) ((ns.filter (2048 ≤ ·)).map (· - 2048))
       if ok && flag then s.calibrated cl lp else s.linkOut cl lp)

/-- A write of SWAP = 1 with WIRE in CL_RT_LINKp (R329). -/
def Chip.swapWrite (s : Chip) (cl p : Nat) (v : W) : Chip :=
  let pg := PageRef.cluster cl
  let wire := fld v 4 11
  if !bit v 3 || (neighbour cl p).isNone || wire ≥ 1088 then s
  else if (SMap.get none ((s.router cl).link p).spares (wireGroup wire)).isSome || s.wearFull then
    s.refuse pg 0x0501 (Off.CL_RT_LINK p)
  else s.placeSpare cl p wire

/-- A write of TAKE_OUT = 1. -/
def Chip.takeOutWrite (s : Chip) (cl p : Nat) (v : W) : Chip := if bit v 15 then s.linkOut cl p else s

/-! ### Tables and epochs (R321 to R324, R335) -/

/-- The failures of one valid route entry `e` at index `i` (R335, R8). -/
def Chip.entryFails (s : Chip) (cl i e : Nat) : List Nat :=
  let port := bits e 1 4
  let dt := bits e 8 7
  let r := s.router cl
  let here := s.clTint cl
  let lacks := port ≥ 0xB || (port < 8 && (neighbour cl port).isNone) ||
    (port = 0xA && (eaveAt cl).isNone && !hostAt cl)
  let wrong := (port = 8 && (s.cl cl).lc ≠ some i) || (port = 9 && i ≠ 4096 + clBay cl) ||
    (port = 0xA && !((hostAt cl && i = 4464) || (match eaveAt cl with | some p => i = 4432 + p | none => false)))
  let away := dt ≠ 0 && (match neighbour cl port with
    | some nb => !(dt = s.clTint nb || bit (s.router nb).corridor (dt - 1))
    | none => false)
  (if lacks then [0x0101] else []) ++ (if bits e 5 2 = 3 then [0x0102] else []) ++ (if wrong then [0x0104] else []) ++
    (if i < 4096 && i ≥ s.bringup.record.grade then [0x0105] else []) ++
    (if port < 8 && (r.link port).state ≠ .up then [0x0301] else []) ++ (if away then [0x0401] else []) ++
    (if (port = 8 || port = 9) && dt ≠ here then [0x0402] else [])

/-- The failures of one valid multicast word. -/
def Chip.mcastFails (s : Chip) (cl : Nat) (w : W) : List Nat :=
  let r := s.router cl
  let mt := fld w 16 7
  let ps := (List.range 8).filter fun p => bit w p
  let lacks := ps.any fun p => (neighbour cl p).isNone
  let away := mt ≠ 0 && ps.any fun p => match neighbour cl p with
    | some nb => !(mt = s.clTint nb || bit (s.router nb).corridor (mt - 1))
    | none => false
  (if lacks then [0x0101] else []) ++ (if ps.any fun p => (r.link p).state ≠ .up then [0x0301] else []) ++
    (if away then [0x0401] else []) ++ (if bit w 8 && mt ≠ s.clTint cl then [0x0402] else [])

/-- The check of ARM of epoch `e`: the failure at the lowest table word, of lowest code (R335, R478). -/
def Chip.routeVerdict (s : Chip) (cl e : Nat) : Verdict :=
  let r := s.router cl
  let mine (m : SMap W) : List (Nat × W) := (m.filter fun p => p.1 / 2048 = e).map fun p => (p.1 % 2048, p.2)
  let fail (w c : Nat) : Nat × Nat × Nat := (c, Off.CL_RT_CMD, w)
  let routes := (mine r.route).flatMap fun p =>
    (List.range 4).flatMap fun k =>
      let i := 4 * p.1 + k
      let x := fld p.2 (16 * k) 16
      let resv := if x &&& 0x8080 ≠ 0 || (i ≥ 4465 && x ≠ 0) then [0x0103] else []
      (resv ++ if bits x 0 1 = 1 then s.entryFails cl i x else []).map (fail p.1)
  let casts := (mine r.mcast).flatMap fun p =>
    let resv := if fld p.2 9 7 ≠ 0 || bit p.2 23 || fld p.2 36 27 ≠ 0 then [0x0103] else []
    (resv ++ if bit p.2 63 then s.mcastFails cl p.2 else []).map (fail p.1)
  leastIdx (routes ++ casts)

/-- ARM and INVALIDATE are refused for the current epoch and during a flip (R323). -/
def Router.epochHeld (r : Router) (e : Nat) : Bool := r.cur = e || !r.flipping.isEmpty

def Chip.setValid (s : Chip) (cl e : Nat) (v : Bool) : Chip :=
  s.modRouter cl fun r => if e = 0 then { r with valid0 := v } else { r with valid1 := v }

/-- A write of INVALIDATE = 1. -/
def Chip.rtInvalidate (s : Chip) (cl : Nat) (v : W) : Chip :=
  let e := b2n (bit v 0)
  if !bit v 9 then s
  else if (s.router cl).epochHeld e then s.refuse (.cluster cl) 0x0201 Off.CL_RT_CMD
  else s.setValid cl e false

/-- A write of FLIP = 1 (R322, R549): sources with nothing outstanding inject under the new epoch at once. The
host bridge and an eave port follow their attach router (R324, R419). -/
def Chip.rtFlip (s : Chip) (cl : Nat) (v : W) : Chip :=
  let e := b2n (bit v 0)
  let r := s.router cl
  if !bit v 10 then s
  else if !r.valid e then s.refuse (.cluster cl) 0x0302 Off.CL_RT_CMD
  else if !bit s.bringup.done 6 then s.refuse (.cluster cl) 0x0702 Off.CL_RT_CMD
  else
    (s.modRouter cl fun r => { r with cur := e, flipping := r.busyKeys }).followCur cl

/-- EPOCH_CHANNEL_CHANGE (R322): source channel `n` changes once it has nothing outstanding. -/
def execEpochChannelChange (cl n : Nat) (s : State) : Out := s.run fun s =>
  onUnit (cl < 4032)
    (let r := s.router cl
     let s := if cl = s.hibCluster && !(n ∈ busyChannels s.link.outstanding) then
         { s with link := { s.link with flipping := s.link.flipping.erase n } }
       else s
     let s := match eaveAt cl with
       | some p => if n ∈ busyChannels (s.eave p).outstanding then s
         else s.modEave p fun x => { x with flipping := x.flipping.erase n }
       | none => s
     if n ∈ r.busyKeys then s else s.modRouter cl fun r => { r with flipping := r.flipping.erase n })

/-! ### Reset (R336, R337) -/

/-- A source of the cluster, of its bay (a walk, a controller's bias request, a packet the controller has not answered)
or of a chiplet attached to it has a packet outstanding, or a channel still to change its epoch (R336, R651). -/
def Chip.sourcesBusy (s : Chip) (cl : Nat) : Bool :=
  let r := s.router cl
  let bay := s.bay (clBay cl)
  !r.outstanding.isEmpty || !r.flipping.isEmpty ||
    bay.arrived.any (fun p => p.1 = cl) ||
    bay.walks.any (fun p => p.2.isSome) ||
    (bayClusters (clBay cl)).any (fun c => (s.router c).outstanding.any fun o => 0x10 ≤ o.unit && o.unit ≤ 0x11) ||
    (hostAt cl && (!s.link.outstanding.isEmpty || !s.link.flipping.isEmpty)) ||
    (match eaveAt cl with | some p => !(s.eave p).outstanding.isEmpty || !(s.eave p).flipping.isEmpty | none => false)

/-- Flits a router holds (R338): in its input buffers, in its replay buffers with those that follow them there, and those
it has received of a packet whose next flit a neighbour sends again. -/
def Chip.flitsHeld (s : Chip) (cl : Nat) : Nat :=
  let r := s.router cl
  let own := r.inbuf.foldl (fun n i => n + i.pkt.flits) 0
  (List.range 8).foldl (fun n p =>
    let sent := match (r.link p).replaying with | some (k, got) => k.flits - got | none => 0
    let here := match neighbour cl p with
      | some nb => match ((s.router nb).link (oppPort p)).replaying with | some (_, got) => got | none => 0
      | none => 0
    n + sent + here) own

/-- A flit is held at the router: in its buffers, or at its deliveries. -/
def Chip.holdsFlit (s : Chip) (cl : Nat) : Bool := s.flitsHeld cl > 0 || !(s.router cl).arrived.isEmpty

/-- A write of RESET = 1 to CL_RT_CMD (R336, R337): tables and buffers are cleared, and while the router is held in
reset its links are OUT (R331). A packet of which this router has received no flit stays in its neighbour's replay
buffer. -/
def Chip.rtReset (s : Chip) (cl : Nat) (v : W) : Chip :=
  if !bit v 11 then s
  else if s.holdsFlit cl || s.sourcesBusy cl then s.refuse (.cluster cl) 0x0202 Off.CL_RT_CMD
  else
    let s := s.modRouter cl fun r => { r with
      up := false, resetting := true, valid0 := false, valid1 := false, route := [], mcast := [], lastChan := [], lastPort := [] }
    ((List.range 8).foldl (fun s p => s.modBoth cl p fun l => { l with state := .out }) s).chipletOff cl

/-- ROUTER_RESET_COMPLETE (R337): the links `ns` retrained, but to a hole (R331); one that did not train is OUT (R330),
with what its neighbour holds for it discarded (R328). A router that has become a hole of another kind meanwhile does
not come up. -/
def execRouterResetComplete (cl : Nat) (ns : List Nat) (s : State) : Out := s.run fun s =>
  onUnit (cl < 4032)
    (if !(s.router cl).resetting then s
     else
       let s := s.modRouter cl fun r => { r with resetting := false }
       let s := s.modRouter cl fun r => { r with up := s.inService cl }
       (List.range 8).foldl (fun s p => match neighbour cl p with
         | none => s
         | some nb =>
           if !s.inService cl || !s.inService nb then s.linkOff cl p
           else if p ∈ ns then s.modBoth cl p fun l => { l with state := .up, replays := 0 }
           else s.linkOut cl p) s)

/-! ### Table access (R338) -/

/-- An access to CL_RT_DATA: the value read (before a write) and the state; WORD advances. -/
def Chip.rtData (s : Chip) (cl : Nat) (wr : Option W) : W × Chip :=
  let pg := PageRef.cluster cl
  let a := s.reg pg Off.CL_RT_ADDR
  let e := fld a 0 1
  let tab := bit a 1
  let w := fld a 8 11
  let r := s.router cl
  let inTab := w < (if tab then 1024 else 1120)
  let old := if !inTab then 0#64 else if tab then r.mcastWord e w else r.routeWord e w
  let s := s.modReg pg Off.CL_RT_ADDR fun v => putFld v 8 11 (w + 1)
  match wr with
  | none => (old, s)
  | some v =>
    if !inTab then (old, s)
    else if r.valid e then (old, s.modRouter cl fun r => { r with writeDrop := true })
    else (old, s.modRouter cl fun r =>
      if tab then { r with mcast := SMap.set 0#64 r.mcast (2048 * e + w) v }
      else { r with route := SMap.set 0#64 r.route (2048 * e + w) v })

end Sys2Proof.Machine
end

