-- ==== Sys2Proof/Machine/FlagUnit.lean ====
section
/-! DEFINITION. The flag unit (R195 to R198), with the posts it sends for watched flags (R413). -/

namespace Sys2Proof.Machine

open Sys2Proof

/-- What a set reaches. -/
inductive SetPlace where
  | core (p f : Nat)
  | ring (u q : Nat)
  /-- register i watches the flag: a post to its eave port (R413) -/
  | post (i : Nat)
  | bad
  deriving DecidableEq, Repr

/-- The core flag of a name, or the ring of a doorbell code (R195, R196). -/
def Cluster.setPlace (x : Cluster) : SetTarget → SetPlace
  | .flag name =>
    let f := name % 64
    let watch (i : Nat) : Bool :=
      let v := x.page.reg .cluster (Off.CL_EV_POST i)
      bit v 63 && fld v 0 16 = name
    if f ≥ 48 || name / 8192 ≠ 0 || !x.mapEn then .bad
    else match (List.range 8).find? watch with
      | some i => .post i
      | none => .core (x.pcore (name / 64 % 128)) f
  | .doorbell c =>
    if c < 0x84 then .ring 0 (c - 0x80)
    else if c < 0x88 then .ring 1 (c - 0x84)
    else if c = 0x88 then .ring 3 0
    else if c = 0x89 then .ring 2 0
    else .ring 4 0

/-- The post of register `i`: a LAST packet on channel 11 that names the next descriptor (R413). -/
def Chip.post (s : Chip) (cl i : Nat) : Chip :=
  let x := s.cl cl
  let v := x.page.reg .cluster (Off.CL_EV_POST i)
  let n := SMap.get 0 x.postCount i
  let desc := (fld v 24 18 + n % 2 ^ fld v 42 4) * 64 % 2 ^ 24
  let s := s.inject cl { destLC := fld v 16 5, destUnit := 0x12, srcUnit := 0x03, channel := 11, ptype := 1,
                         payload := leBytes 8 desc }
  s.modCl cl fun x => { x with postCount := SMap.set 0 x.postCount i (n + 1) }

/-- One set applied. -/
def Chip.applyPlace (s : Chip) (cl : Nat) : SetPlace → Chip
  | .core p f => s.modCoreF cl p fun c => c.applySet f
  | .ring u q => s.doorbell cl u q
  | .post i => s.post cl i
  | .bad => s.countSat (.cluster cl) Off.CL_FLAG_BAD 16 1

/-- Place of a source in the order of R198. -/
def SetSource.rank : SetSource → Nat
  | .mesh => 0 | .dma0 => 1 | .dma1 => 2 | .thatcher => 3 | .gutter => 4 | .skylight => 5 | .core c => 6 + c

/-- A set put behind those of sources before its own or of its own. -/
def insertSet (p : PendingSet) : List PendingSet → List PendingSet
  | [] => [p]
  | x :: xs => if p.source.rank < x.source.rank then p :: x :: xs else x :: insertSet p xs

/-- The sets that arrived in a cycle in the order of their sources; of one source in the order it gave them. -/
def inOrder (l : List PendingSet) : List PendingSet := l.foldl (fun a p => insertSet p a) []

/-- The sets of one cycle: in order, one of each flag or doorbell, at most 32; the rest wait (R198). A set that
becomes a post is no set applied (R413). -/
def Chip.applySets (cl : Nat) : List PendingSet → List SetPlace → List PendingSet → Chip → List PendingSet × Chip
  | [], _, left, s => (left, s)
  | p :: ps, seen, left, s =>
    match (s.cl cl).setPlace p.target with
    | .bad => applySets cl ps seen left (s.applyPlace cl .bad)
    | t =>
      let post := match t with | .post _ => true | _ => false
      let held := post && (!s.mayInject cl 3 11 || s.coreHeld cl)
      if held || t ∈ seen || seen.length ≥ 32 then applySets cl ps seen (left ++ [p]) s
      else
        let s := s.applyPlace cl t
        applySets cl ps (seen ++ [t]) left (if post then s else s.count (.cluster cl) Off.CL_FLAG_SETS 1)

/-- FLAG_SET_APPLY (R198): one cycle of the flag unit, whose clock runs in a Lit bay (R538). The sets it deferred come before those that have arrived
since. -/
def execFlagSetApply (cl : Nat) (s : State) : Out := s.run fun s =>
  onUnit (cl < 4032)
    (if !s.bayRuns (clBay cl) then s
     else
       let x := s.cl cl
       let (left, s) := Chip.applySets cl (x.deferred ++ inOrder x.sets) [] [] s
       (s.modCl cl fun x => { x with sets := [], deferred := left }).count (.cluster cl) Off.CL_FLAG_DEFER left.length)

end Sys2Proof.Machine
end

