-- ==== Sys2Proof/Machine/Deliver.lean ====
section
/-! DEFINITION. Packets at their ends: mesh ports close packets (R144, R302); units, stores and bay
memory controllers take delivered packets and answer them (R300, R301, R333). -/

namespace Sys2Proof.Machine

open Sys2Proof

/-! ### Mesh ports (R144, R302) -/

/-- INJECT_BAD: the packet is discarded and the first cause recorded. -/
def Chip.injectBad (s : Chip) (cl mp kind : Nat) : Chip :=
  let pg := PageRef.cluster cl
  let s := if bit (s.reg pg Off.CL_RT_INJECT) 0 then s
    else s.setReg pg Off.CL_RT_INJECT (BitVec.ofNat 64 (1 + kind <<< 4 + mp <<< 8))
  s.raise pg 11

/-- The open packet of a mesh port closes: at MAX_ITEMS items, or at an item marked LAST. -/
def execMeshPortPacketClose (cl mp : Nat) (s : State) : Out := s.run fun s =>
  onUnit (cl < 4032 && mp < 4)
    (let w := (s.cl cl).weave
     match w.active with
     | none => s
     | some ctx =>
       let g := SMap.get [] w.gather mp
       let last := g.any (·.last)
       if !s.weaveRuns cl || g.isEmpty || !(last || g.length ≥ w.mpField ctx mp 8 2) then s
       else
         let k : Packet := {
           destLC := w.mpField ctx mp 0 2 % 4096, destCore := w.mpField ctx mp 2 1 % 128
           destUnit := w.mpField ctx mp 3 1 % 32, srcUnit := 0, srcSub := mp
           channel := w.mpField ctx mp 4 1 % 16, mcast := (w.mpField ctx mp 5 1).testBit 0
           mIndex := w.mpField ctx mp 6 2 % 1024, ptype := b2n last, payload := g.flatMap (·.bytes) }
         let next (s : Chip) : Chip := (s.modCl cl fun x =>
           { x with weave := gatherAll { x.weave with gather := SMap.set [] x.weave.gather mp [] } ctx mp }).gatherEcc cl ctx mp
         let r := s.router cl
         if w.mpField ctx mp 3 1 > 3 then next (s.injectBad cl mp 1)
         else if k.channel > 7 then next (s.injectBad cl mp 2)
         else if ((r.lookup { k with epoch := r.cur }).isNone) then next (s.injectBad cl mp 3)
         else if s.mayInject cl 0 k.channel then next (s.inject cl k)
         else s)

/-! ### Delivery in a cluster -/

/-- The tint a packet for unit `u` must carry here (R333). -/
def Chip.tintOk (s : Chip) (cl : Nat) (k : Packet) : Bool :=
  if k.destUnit = 0x08 then k.tint = 0 else k.tint = s.clTint cl

/-- The oldest delivered packet that `f` selects: discarded as a stranger or for a reserved type,
refused for a type its unit does not accept, or given to `eff`, which says whether it accepted. One whose answer has no
room yet waits (R306). -/
def Chip.deliver (s : Chip) (cl : Nat) (f : Packet → Bool) (types : List Nat)
    (eff : Chip → Packet → Chip × Bool) : Chip :=
  match s.takeArrived cl f with
  | none => s
  | some (k, s1) =>
    let s0 := s
    let s := s1
    if !s.tintOk cl k then s.stranger cl k true
    else if k.ptype ≥ 6 then s
    else if !s.answerRoom cl k then s0
    else if !(k.ptype ∈ types) then s.ackErr cl k
    else
      let (s, ok) := eff s k
      if ok then s.ack cl k else s.ackErr cl k

/-- Requests and data for a unit; answers are rows of their own. -/
def forUnit (u : Nat) (k : Packet) : Bool := k.destUnit = u && !(k.ptype = 3 || k.ptype = 4 || k.ptype = 5)

/-- Items of a mesh port's 64 KiB delivery buffer (R310). -/
def deliveryItems : Nat := 1024

/-- A WEAVE packet that can be taken: the oldest for its mesh port, which has room for its items. -/
def Chip.weaveReady (s : Chip) (cl : Nat) (k : Packet) : Bool :=
  let port (k : Packet) : Nat := k.destCore % 4
  forUnit 0 k && (s.router cl).arrived.find? (fun j => forUnit 0 j && port j = port k) = some k &&
    (!s.tintOk cl k || k.ptype ≥ 2 ||
      decide ((SMap.get [] (s.cl cl).weave.delivery (port k)).length + (itemsOf k.payload).length ≤ deliveryItems))

/-- PACKET_WEAVE (R144, R310): the items enter the mesh port's delivery buffer and OQ0; a packet for which the buffer
has no room waits. -/
def execPacketWeave (cl : Nat) (s : State) : Out := s.run fun s =>
  onUnit (cl < 4032) (s.deliver cl (s.weaveReady cl) [0, 1] fun s k =>
    let m := k.destCore % 4
    let items := markLast (k.ptype = 1) (itemsOf k.payload)
    (s.modCl cl fun x =>
      let w := { x.weave with delivery := SMap.upd [] x.weave.delivery m (· ++ items) }
      { x with weave := refillPort w m }, true))

/-- The address word and the data of a payload. -/
def Packet.addr (k : Packet) : Nat := leNat (k.payload.take 8)
def Packet.data (k : Packet) : List Byte := k.payload.drop 8

/-- PACKET_STORE (R300): a range beyond the store, or a merge into an uncorrectable word, is refused. -/
def execPacketStore (cl : Nat) (s : State) : Out := s.run fun s =>
  onUnit (cl < 4032) (s.deliver cl (fun k => forUnit 1 k && k.ptype ≠ 2) [0, 1] fun s k =>
    match s.storeTold cl (k.addr % 2 ^ 24) k.data with
    | .ok s _ => (s, true)
    | .refused s => (s, false)
    | _ => (s, false))

/-- PACKET_STORE_READ_REQ (R264, R300): answered with READ_RESP. -/
def execPacketStoreReadReq (cl : Nat) (s : State) : Out := s.run fun s =>
  onUnit (cl < 4032)
    (match s.takeArrived cl fun k => k.destUnit = 1 && k.ptype = 2 with
     | none => s
     | some (k, s1) =>
       if !s1.tintOk cl k then s1.stranger cl k true
       else if !s1.answerRoom cl k then s
       else match s1.storeAsked cl (k.addr % 2 ^ 24) (leNat ((k.payload.drop 8).take 4)) with
         | .ok s bs => s.respond cl k 3 bs
         | .refused s => s.ackErr cl k
         | _ => s)

/-- PACKET_GUTTER (R187, R188): DEST_CORE names the slot. -/
def execPacketGutter (cl : Nat) (s : State) : Out := s.run fun s =>
  onUnit (cl < 4032) (s.deliver cl (forUnit 2) [0, 1] fun s k => s.slotAdd cl k.destCore k.payload)

/-- PACKET_FLAG (R197): the names go to the flag unit in list order. -/
def execPacketFlag (cl : Nat) (s : State) : Out := s.run fun s =>
  onUnit (cl < 4032) (s.deliver cl (forUnit 3) [0, 1] fun s k =>
    (s.modCl cl fun x => { x with sets := x.sets ++ (cutBytes 2 k.payload).map fun n => ⟨.mesh, .flag n⟩ }, true))

/-- Data written to local memory of logical core `c`; `false` when there is none, or the range does not fit. -/
def Chip.loadCore (s : Chip) (cl c : Nat) (k : Packet) : Chip × Bool :=
  let x := s.cl cl
  let a := k.addr % 65536
  if !x.mapEn || a % 8 ≠ 0 || a + k.data.length > 0xC000 then (s, false)
  else
    let p := x.pcore c
    let (core, ok) := (x.core p).lmWrite a k.data
    (s.modCore cl p fun _ => core, ok)

/-- PACKET_CORE_LM (R300). -/
def execPacketCoreLm (cl : Nat) (s : State) : Out := s.run fun s =>
  onUnit (cl < 4032) (s.deliver cl (forUnit 4) [0, 1] fun s k => s.loadCore cl k.destCore k)

/-- PACKET_CORE_LM_ALL (R300): the same bytes to all 128 logical cores. -/
def execPacketCoreLmAll (cl : Nat) (s : State) : Out := s.run fun s =>
  onUnit (cl < 4032) (s.deliver cl (forUnit 5) [0, 1] fun s k =>
    (List.range 128).foldl (fun p c =>
      let (s, ok) := p.1.loadCore cl c k
      (s, p.2 && ok)) (s, true))

/-- One 64-bit word of a context image written (R153). -/
def Cluster.ctxWrite (x : Cluster) (ctx word : Nat) (v : W) : Cluster :=
  if x.weave.valid.getD ctx false then { x with weave := { x.weave with writeDrop := true } }
  else { x with weave := { x.weave with
    images := Memory.writeNat x.weave.images (4096 * ctx + 8 * word) 8 v.toNat
    imgErr := eccWipe x.weave.imgErr (512 * ctx + word) (512 * ctx + word + 1) } }

/-- Whole 64-bit words of a payload from word `first`, those below `limit`. -/
def payloadWords (k : Packet) (first limit : Nat) : List (Nat × W) :=
  ((cutBytes 8 k.data).zipIdx.map fun p => (first + p.2, BitVec.ofNat 64 p.1)).filter fun p => p.1 < limit

/-- PACKET_WEAVE_CTX (R300, R153): refused for a valid context. -/
def execPacketWeaveCtx (cl : Nat) (s : State) : Out := s.run fun s =>
  onUnit (cl < 4032) (s.deliver cl (forUnit 6) [0, 1] fun s k =>
    let ctx := k.addr % 4
    let ok := !(s.cl cl).weave.valid.getD ctx false
    (s.modCl cl fun x => (payloadWords k (bits k.addr 8 9) 512).foldl (fun x p => x.ctxWrite ctx p.1 p.2) x, ok))

/-- One word of the virtual flag table: four entries, their reserved bits 0 (R13, R199). -/
def Cluster.vftWrite (x : Cluster) (word : Nat) (v : W) : Cluster :=
  { x with vft := (List.range 4).foldl (fun m i => SMap.set 0#16 m (4 * word + i) (BitVec.ofNat 16 (fld v (16 * i) 16) &&& 0xFF3F#16)) x.vft }

def Cluster.vftRead (x : Cluster) (word : Nat) : W :=
  BitVec.ofNat 64 ((List.range 4).foldl (fun n i => n + (SMap.get 0#16 x.vft (4 * word + i)).toNat <<< (16 * i)) 0)

/-- PACKET_VFT (R199). -/
def execPacketVft (cl : Nat) (s : State) : Out := s.run fun s =>
  onUnit (cl < 4032) (s.deliver cl (forUnit 7) [0, 1] fun s k =>
    (s.modCl cl fun x => (payloadWords k (bits k.addr 0 10) 1024).foldl (fun x p => x.vftWrite p.1 p.2) x, true))

/-- PACKET_MICROCODE (R300, R333): an offset outside the 1 MiB store, or not a multiple of 8, is refused. -/
def execPacketMicrocode (cl : Nat) (s : State) : Out := s.run fun s =>
  onUnit (cl < 4032) (s.deliver cl (forUnit 8) [0, 1] fun s k =>
    if k.addr % 8 ≠ 0 || k.addr + k.data.length > 2 ^ 20 then (s, false)
    else (s.modCl cl fun x => { x with microcode := Memory.write x.microcode k.addr k.data }, true))

/-- Answers at their source cluster. -/
def Chip.takeAnswer (s : Chip) (cl ptype : Nat) : Chip :=
  match s.takeArrived cl fun k => k.ptype = ptype with
  | none => s
  | some (k, s) => if k.tint = s.clTint cl then s.answer cl k else s.stranger cl k true

/-- PACKET_READ_RESP (R307). -/
def execPacketReadResp (cl : Nat) (s : State) : Out := s.run fun s => onUnit (cl < 4032) (s.takeAnswer cl 3)
/-- PACKET_ACK (R307). -/
def execPacketAck (cl : Nat) (s : State) : Out := s.run fun s => onUnit (cl < 4032) (s.takeAnswer cl 4)
/-- PACKET_ACK_ERR (R307). -/
def execPacketAckErr (cl : Nat) (s : State) : Out := s.run fun s => onUnit (cl < 4032) (s.takeAnswer cl 5)

/-! ### Delivery at a bay memory controller (R237 to R247) -/

/-- The oldest packet at the controller that `f` selects, with the router it came through. -/
def Chip.takeBay (s : Chip) (b : Nat) (f : Packet → Bool) : Option (Nat × Packet × Chip) :=
  match (s.bay b).arrived.find? fun p => f p.2 with
  | none => none
  | some (cl, k) => some (cl, k, s.modBay b fun x => { x with arrived := x.arrived.erase (cl, k) })

/-- PACKET_BAY (R237, R242, R247): DATA and LAST are written under the slot of the address word; a range that leaves
one 256-byte chunk is refused. A walker takes neither (R300). -/
def execPacketBay (b : Nat) (s : State) : Out := s.run fun s =>
  onUnit (b < 336)
    (match s.takeBay b fun k => k.ptype ≠ 2 with
     | none => s
     | some (cl, k, s1) =>
       let off := bits k.addr 0 36
       let n := k.data.length
       if k.tint ≠ (s.bay b).tint then s1.stranger cl k true
       else if k.ptype = 3 || k.ptype = 4 || k.ptype = 5 then s1.count (.cluster cl) Off.CL_RT_LATE 1
       else if k.ptype ≥ 6 then s1
       else if !s1.answerRoom cl k then s
       else if k.destUnit ≠ 0x10 || n = 0 || off / 256 ≠ (off + n - 1) / 256 then s1.ackErr cl k
       else match s1.stackWrite b (bits k.addr 36 6) k.tint off k.data with
         | .ok s _ => s.ack cl k
         | .refused s => s.ackErr cl k
         | .uncorr s => s.ackErr cl k
         | _ => s)

/-- PACKET_BAY_READ_REQ (R237, R238): 64 to 256 bytes within one aligned 256-byte chunk. -/
def execPacketBayReadReq (b : Nat) (s : State) : Out := s.run fun s =>
  onUnit (b < 336)
    (match s.takeBay b fun k => k.ptype = 2 with
     | none => s
     | some (cl, k, s1) =>
       let off := bits k.addr 0 36
       let n := leNat ((k.payload.drop 8).take 4)
       if k.tint ≠ (s.bay b).tint then s1.stranger cl k true
       else if !s1.answerRoom cl k then s
       else if k.destUnit ≠ 0x10 || n % 64 ≠ 0 || n = 0 || n > 256 || off % 64 ≠ 0 || off / 256 ≠ (off + n - 1) / 256 then
         s1.ackErr cl k
       else match s1.stackRead b (bits k.addr 36 6) k.tint off n with
         | .refused s => s.ackErr cl k
         | .uncorr s => s.ackErr cl k
         | .ok s bs => s.respond cl k 3 bs
         | _ => s)

end Sys2Proof.Machine
end

