-- ==== Sys2Proof/Machine/Balance.lean ====
section
/-! DEFINITION. What the units of a weave wait for (R149, R163), and the balance fault of a wait that lasts
(R164, R165). -/

namespace Sys2Proof.Machine

open Sys2Proof

/-- The multiplier of core `p` is occupied: an instruction on its datapath has cycles left, and the operand B of
one that takes it from a queue is there (R105, R648). -/
def Cluster.multiplies (x : Cluster) (p : Nat) : Bool :=
  let c := x.core p
  c.occ > 0 || match c.qops.find? (fun o => match o with | .tmul _ => true | _ => false) with
    | some (.tmul j) => (j.advance (x.weave.iq (x.coreQueue p j.queue)) 1).1.cyc > j.cyc
    | _ => false

/-- KIND and blocked queue of a core that waits for a queue: 0 to 3 an empty input queue, 4 and 5 a full output
queue. -/
def queueWait (u q : Nat) : Nat × Nat := if q < 4 then (1, 4 * u + q) else (2, 4 * u + (q - 4))

/-- What core `p`, known to the weave as unit `u`, waits for (R124): nothing while its multiplier is occupied. A
core that no command moves waits on the queue instructions it has not finished (log entry 53). A wait that blocks no
queue (a flag, a rise, a port or a bank, a steering debt) is given queue 0 of the unit (DESIGN CHOICE, log entry
53). -/
def Chip.coreWait (s : Chip) (cl p u : Nat) : Option (Nat × Nat) :=
  let x := s.cl cl
  let c := x.core p
  if c.run ≠ .running || s.coreHeld cl || x.multiplies p then none
  else match c.wait with
    | .flag _ _ => some (3, 4 * u)
    | .rise => some (7, 4 * u)
    | .queue q => some (queueWait u q)
    | .none => c.blockedOn.map (queueWait u)

/-- What a special-function unit waits for: an input queue it uses holds an item and it cannot fire. -/
def Weave.sfuWait (w : Weave) (ctx n : Nat) : Option (Nat × Nat) :=
  let u := 4 * (0x100 + n)
  let two := sfuTwo (w.img ctx (2592 + 8 * n) 1)
  let a := (w.iq u).isEmpty
  let b := two && (w.iq (u + 1)).isEmpty
  if a && (!two || b) then none
  else if a then some (1, u)
  else if b then some (1, u + 1)
  else if (w.oq u).length ≥ queueDepth then some (2, u) else none

/-- What a steering unit waits for (R149): it holds a token or a data item and cannot fire. A unit that STEERING sets
off counts no wait for what lies in its queues (DESIGN CHOICE, log entry 53). -/
def Weave.steerWait (w : Weave) (ctx n : Nat) : Option (Nat × Nat) :=
  let u := 4 * (0x200 + n)
  if w.img ctx (3168 + 4 * n) 1 ≠ 1 then none
  else match w.iq u with
    | [] => if (w.iq (u + 1)).isEmpty && (w.iq (u + 2)).isEmpty then none else some (1, u)
    | tok :: _ =>
      let sel := tok.data.toNat % 2
      if SMap.get 0 w.debts (debtKey n (1 - sel)) ≥ 255 then some (5, u)
      else if (w.iq (u + 1 + sel)).isEmpty then some (1, u + 1 + sel)
      else if (w.oq u).length ≥ queueDepth then some (2, u) else none

/-- What a SLACK port waits for: an item at IQ0 and no room in its region. The other waits of a store port are for
the head of its output queue. -/
def Weave.portWait (w : Weave) (ctx sp : Nat) : Option (Nat × Nat) :=
  let u := 4 * (0x180 + sp)
  if w.spMode ctx sp = 4 && !(w.iq u).isEmpty && (SMap.get [] w.slack sp).length ≥ w.spSlack ctx sp then some (2, u)
  else none

/-- What a mesh port waits for: its packet is incomplete, or closed and not yet let into the mesh. -/
def Chip.meshWait (s : Chip) (cl ctx m : Nat) : Option (Nat × Nat) :=
  let w := (s.cl cl).weave
  let u := 4 * (0x1C0 + m)
  let g := SMap.get [] w.gather m
  if g.isEmpty then none
  else if !(g.any (·.last) || g.length ≥ w.mpField ctx m 8 2) then some (6, u)
  else if s.mayInject cl 0 (w.mpField ctx m 4 1 % 16) then none else some (2, u)

/-- What unit `u` of the weave waits for: KIND and the blocked queue (R163). -/
def Chip.unitWait (s : Chip) (cl u : Nat) : Option (Nat × Nat) :=
  let x := s.cl cl
  let w := x.weave
  match w.active with
  | none => none
  | some ctx =>
    let own :=
      if u < 128 then (x.resolvedCore ctx u).bind fun p => s.coreWait cl p u
      else if 0x100 ≤ u && u < 0x110 then w.sfuWait ctx (u - 0x100)
      else if 0x180 ≤ u && u < 0x188 then w.portWait ctx (u - 0x180)
      else if 0x1C0 ≤ u && u < 0x1C4 then s.meshWait cl ctx (u - 0x1C0)
      else if 0x200 ≤ u && u < 0x220 then w.steerWait ctx (u - 0x200)
      else none
    own.orElse fun _ =>
      if w.headBlocked ctx (4 * u) then some (2, 4 * u)
      else if u < 128 && w.headBlocked ctx (4 * u + 1) then some (2, 4 * u + 1)
      else none

/-- A core may be waiting for its store port or a bank (KIND 4): it runs, and its last instruction reaches the cluster
store by a port (R141). -/
def Chip.portContends (s : Chip) (cl u : Nat) : Bool :=
  let x := s.cl cl
  match x.weave.active with
  | none => false
  | some ctx => match x.resolvedCore ctx u with
    | some p => (x.core p).run = .running && (x.core p).portUse && !s.coreHeld cl && (x.portOf p).isSome
    | none => false

/-- `k` cycles that the core behind unit `u` waited for its store port or a bank (R124, R141). -/
def Chip.portWaited (s : Chip) (cl u k : Nat) : Chip :=
  match (s.cl cl).weave.active.bind fun ctx => (s.cl cl).resolvedCore ctx u with
  | some p => s.modCore cl p fun c => { c with waitCycles := c.waitCycles + BitVec.ofNat 64 k }
  | none => s

/-- BALANCE_FAULT (R164, R165): the unit whose blocked queue is `m` has waited `k` cycles that no nanosecond of the
clock has counted, for the reason `n` (KIND). Where the unit waits so, its count rises by them, and the weave
freezes if they take it above BALANCE_LIMIT. Those that a core waits for its store port or a bank, which no other
command but STORE_PORT_ACCESS shows, are wait cycles of the core (KIND 4; R141). -/
def execBalanceFault (cl n m k : Nat) (s : State) : Out := s.run fun s =>
  onUnit (cl < 4032)
    (if !s.weaveCounts cl then s
     else if n = 4 && m % 4 = 0 && s.portContends cl (m / 4) then (s.portWaited cl (m / 4) k).addWait cl (m / 4) n m k
     else if s.unitWait cl (m / 4) = some (n, m) then s.addWait cl (m / 4) n m k
     else s)

end Sys2Proof.Machine
end

