-- ==== Sys2Proof/Machine/EavePort.lean ====
section
/-! DEFINITION. What an eave port injects into the mesh (R380, R383, R416 to R419): its packets through its attach
router, their answers and losses; the buffer of received payload and the pause it causes (R402). -/

namespace Sys2Proof.Machine

open Sys2Proof

/-! ### Packets of a port (R302, R307, R394, R419) -/

/-- EV_LINK_STATE.ATTACH_OK (R394). -/
def Chip.attachOk (s : Chip) (p : Nat) : Bool := s.inService (eaveCluster p)

/-- Bytes of a payload that one STORE packet carries behind its 8-byte offset: the whole lines of 8,192 bytes less 8
(R298, R422, log entry 57). -/
def storePiece : Nat := 8128

/-- The port may inject on channel 11: its window is that of its attach cluster (R307, log entry 57). -/
def Chip.portMayInject (s : Chip) (p : Nat) : Bool :=
  let e := s.eave p
  let n := (e.outstanding.filter fun o => o.channel = 11).length
  s.powered && s.attachOk p && !(srcKey 0x12 11 ∈ e.flipping) &&
    decide (n ≤ fld (s.reg (.cluster (eaveCluster p)) Off.CL_RT_WINDOW) 44 4) && s.bufferRoom (eaveCluster p) 0xA 11

/-- A packet of the port completed at injection, its tint as the port writes it; its record as outstanding, and the
port with its SEQ counted. -/
def Chip.portStamped (s : Chip) (p : Nat) (k : Packet) : Packet × Outstanding × Chip :=
  let e := s.eave p
  let key := srcKey 0x12 k.channel
  let seq := SMap.get 0 e.seqs key
  ({ k with srcUnit := 0x12, srcSub := 0, srcLC := p, epoch := e.cur, esc := 0, seq },
   ⟨0x12, 0, k.channel, seq, s.clTime (eaveCluster p), 1, k.tint⟩,
   s.modEave p fun e => { e with seqs := SMap.set 0 e.seqs key ((seq + 1) % 65536) })

/-- A packet of port `p` for a unit of logical cluster `lc` under the tint of gable `t`, and its answer. -/
def Chip.portSend (s : Chip) (p t lc unit ptype : Nat) (payload : List Byte) (act : Chip → Nat → StackRes) : StackRes :=
  if !s.portMayInject p then .busy .unsent
  else
    let (k, o, s) := s.portStamped p { destLC := lc, destUnit := unit, tint := t, channel := 11, ptype, payload }
    s.roundTrip (eaveCluster p) k (fun s => .lost (s.modEave p fun e => { e with outstanding := e.outstanding ++ [o] })) act

/-- A read of a cluster's store: one READ_REQ (R416, R417). -/
def Chip.portRead (s : Chip) (p t lc off n : Nat) : StackRes :=
  s.portSend p t lc 1 2 (readReq off n) fun s far => s.storeAsked far off n

/-- Bytes written to a cluster's store: one STORE packet (R380, R383). -/
def Chip.portWrite (s : Chip) (p t lc off : Nat) (bs : List Byte) : StackRes :=
  s.portSend p t lc 1 0 (leBytes 8 off ++ bs) fun s far => s.storeTold far off bs

/-- A flag of a cluster set: one FLAG packet (R383, R418). -/
def Chip.portFlag (s : Chip) (p t lc name : Nat) : StackRes :=
  s.portSend p t lc 3 1 (leBytes 2 name) fun s far =>
    .ok (s.modCl far fun x => { x with sets := x.sets ++ [⟨.mesh, .flag name⟩] }) []

/-! ### The receive buffer (R402) -/

/-- Bytes the receive buffer holds, and those of one priority. -/
def Eave.held (e : Eave) : Nat := e.waiting.foldl (fun n w => n + w.bytes.length) 0
def Eave.share (e : Eave) (prio : Nat) : Nat := (e.waiting.filter fun w => w.prio = prio).foldl (fun n w => n + w.bytes.length) 0

/-- The receive buffer: 4 MiB. -/
def rxBuffer : Nat := 2 ^ 22

/-- A PFC frame that pauses a priority, or releases it: none starts without an UP link (R398). -/
def Chip.sendPfc (s : Chip) (p prio : Nat) (pause : Bool) : Chip :=
  if (s.evLinks p).all (fun l => (s.evLink p l).state ≠ .up) then s else
  let s := s.modEave p fun e => { e with pausing := if pause then e.pausing ++ [prio] else e.pausing.erase prio }
  ((s.emit (.pfc p prio pause)).count (.eave p) Off.EV_TX_FRAMES 1).count (.eave p) Off.EV_PFC_TX 1

/-- PFC frames for the priorities whose share has passed XOFF or XON. -/
def Chip.pfcCheck (s : Chip) (p : Nat) : Chip :=
  let c := s.reg (.eave p) Off.EV_PFC_CFG
  (List.range 8).foldl (fun s q =>
    let e := s.eave p
    if q ∈ e.pausing then if e.share q < 1024 * fld c 16 16 then s.sendPfc p q false else s
    else if e.share q > 1024 * fld c 0 16 then s.sendPfc p q true else s) s

end Sys2Proof.Machine
end

