-- ==== Sys2Proof/Machine/Time.lean ====
section
/-! DEFINITION. The timekeeper and the cluster nodes of the timebase (R293 to R297). -/

namespace Sys2Proof.Machine

open Sys2Proof

/-- Signed offset from the nearest multiple of 10^9 (TK_OFFSET). -/
def ppsOffset (n : Nat) : Int :=
  let r : Int := ((n % billion : Nat) : Int)
  if r ≤ 500000000 then r else r - billion

def clampTrim (i : Int) : Int := max (-200000) (min 200000 i)

/-- A write of TK_SET: only before step CLOCKS has been started (R293). -/
def Chip.tkSetWrite (s : Chip) (v : W) : Chip :=
  if s.bringup.clocksStarted then s.refuse .timekeeper 0x0701 Off.TK_SET
  else { s with tk := { s.tk with now := v } }

/-- TIMEPULSE (R294): an accepted pulse sets the trim so that the interval measures 10^9 ns. How far ALIGN slews it
besides, while accepted pulses do not fall on multiples of 10^9, is not stated: a free value within ±200 ppm (log entry
16). -/
def execTimepulse (s : State) : Out := s.run fun s =>
  .next
    (let cfg := s.reg .timekeeper Off.TK_PPS_CFG
     let t := s.tk
     let d : Int := match t.ppsLast with | some l => ((t.now - l).toNat : Int) | none => billion
     if !s.module.standby || !bit cfg 0 then s
     else if 999999000 ≤ d ∧ d ≤ 1000001000 then
       let off := ppsOffset t.now.toNat
       let near := decide (-100 ≤ off) && decide (off ≤ 100)
       let (trim, s) :=
         if bit cfg 1 && off ≠ 0 then
           let (v, s) := s.draw
           (((v.toNat % 400001 : Nat) : Int) - 200000, s)
         else (clampTrim (t.trim + (billion - d)), s)
       { s with tk := { s.tk with ppsLast := some t.now, trim, locked := if near then t.locked + 1 else 0 } }
     else s.modReg .timekeeper Off.TK_PPS_STATUS fun v => putFld v 16 16 (min 65535 (fld v 16 16 + 1)))

/-- PPS_LOST (R294): no pulse accepted for 2 × 10^9 ns, for one in the last of them is in time (R357, R358); the trim is held. Open meter periods note it. -/
def execPpsLost (s : State) : Out := s.run fun s =>
  .next
    (let t := s.tk
     let since := match t.ppsLast with | some l => (t.now - l).toNat | none => t.now.toNat
     if !bit (s.reg .timekeeper Off.TK_PPS_CFG) 0 || since ≤ 2 * billion then s
     else
       let s := s.modReg .timekeeper Off.TK_PPS_STATUS fun v => setBit v 1
       (s.gables.map (·.1)).foldl (fun s t => s.metered t fun m => { m with ppsLost := true }) s)

/-- A difference as a signed byte, saturating. -/
def sat8 (d : Int) : Nat := codeOf 8 (max (-128) (min 127 d))

/-- The node's count changed to the received one without ever decreasing (R296). -/
def Chip.nodeSet (s : Chip) (cl : Nat) (off : Int) : Chip :=
  let here := s.clTime cl
  s.modCl cl fun x => { x with tbOff := off, tbFloor := here }

/-- The count of a bay or field node when the timekeeper's is `now`. -/
def TbNode.count (n : TbNode) (now : W) : W :=
  let c := now + BitVec.ofInt 64 n.off
  if c.toNat < n.floor.toNat then n.floor else c

/-- The node's count changed without ever decreasing (R296). -/
def TbNode.set (n : TbNode) (now : W) (off : Int) : TbNode := { n with off, floor := n.count now }

/-- A sync at a bay or field node (R295). -/
def TbNode.sync (n : TbNode) (now : W) : Option Int → TbNode
  | none =>
    let m := n.missed + 1
    if m ≥ 4 then { n with missed := m, take := true, lost := true } else { n with missed := m }
  | some d =>
    let n := { n with missed := 0, last := d, slewing := false }
    if n.take then { n.set now 0 with take := false }
    else if d.natAbs ≤ 2 then n.set now (-d)
    else if d.natAbs ≤ 16 then { n.set now 0 with slewing := true, adjusts := min 65535 (n.adjusts + 1) }
    else { n.set now (-d) with take := true, lost := true }

/-- A sync at a cluster node (R295). -/
def Chip.clusterSync (s : Chip) (cl : Nat) (got : Option Int) : Chip :=
  let pg := PageRef.cluster cl
  let lost (s : Chip) : Chip :=
    ((s.modCl cl fun x => { x with tbTake := true }).modReg pg Off.CL_TB_STATUS fun v => setBit v 0).raise pg 12
  match got with
  | none =>
    let n := (s.cl cl).tbMissed + 1
    let s := s.modCl cl fun x => { x with tbMissed := n }
    if n ≥ 4 then lost s else s
  | some d =>
    let s := s.modCl cl fun x => { x with tbMissed := 0 }
    let s := s.modReg pg Off.CL_TB_STATUS fun v => clrBit (putFld v 32 8 (sat8 d)) 1
    if (s.cl cl).tbTake then (s.nodeSet cl 0).modCl cl fun x => { x with tbTake := false }
    else if d.natAbs ≤ 2 then s.nodeSet cl (-d)
    else if d.natAbs ≤ 16 then
      (s.nodeSet cl 0).modReg pg Off.CL_TB_STATUS fun v =>
        setBit (putFld v 16 16 (min 65535 (fld v 16 16 + 1))) 1
    else lost (s.nodeSet cl (-d))

/-- TIMEBASE_SYNC (R295): node `cl` is a cluster's below 4,032, else bay 4,032 + b's, else field 4,368 + f's. `got` is the
received count less the node's own, or `none` for a missed sync. -/
def execTimebaseSync (cl : Nat) (got : Option Int) (s : State) : Out := s.run fun s =>
  onUnit (cl < 4452)
    (if cl < 4032 then if s.bayOk (clBay cl) then s.clusterSync cl got else s
     else if cl < 4368 then
       if s.bayOk (cl - 4032) then s.modBay (cl - 4032) fun x => { x with node := x.node.sync s.now got } else s
     else if s.powered then s.modField (cl - 4368) fun x => { x with node := x.node.sync s.now got } else s)

end Sys2Proof.Machine
end

