-- ==== Sys2Proof/WellFormed.lean ====
section
/-! DEFINITION. The identifiers of R7, R129 and R443 as bounds on the operands of a command. -/

namespace Sys2Proof

/-- A page that exists. -/
def PageRef.ok : PageRef → Bool
  | .dev | .hib | .bringup | .timekeeper | .sec | .meter | .power => true
  | .gable t => 1 ≤ t && t ≤ 64
  | .eave p => p < 32
  | .field f => f < 84
  | .bay b | .baymem b => b < 336
  | .dma cl n => cl < 4032 && n < 2
  | .cluster cl | .weave cl | .gutter cl | .thatcher cl | .skylight cl | .ctu cl => cl < 4032

/-- Queue pairs of a function: 64 of the physical function, 8 of each virtual function (R443). -/
def queuesOf (fn : Nat) : Nat := if fn = 0 then 64 else 8

/-- Vectors of a function (R439): 2,048 of the physical function, 64 of a virtual function. -/
def vectorsOf (fn : Nat) : Nat := if fn = 0 then 2048 else 64

/-- Well-formedness: every identifier of a command is one the engine has. A command's meaning answers
`noSuchUnit` where it looks up a unit the engine does not have. -/
def Instr.wf : Instr → Bool
  | .add cl core _ => cl < 4032 && core < 136
  | .sub cl core _ => cl < 4032 && core < 136
  | .and cl core _ => cl < 4032 && core < 136
  | .or cl core _ => cl < 4032 && core < 136
  | .xor cl core _ => cl < 4032 && core < 136
  | .shl cl core _ => cl < 4032 && core < 136
  | .shr cl core _ => cl < 4032 && core < 136
  | .sra cl core _ => cl < 4032 && core < 136
  | .slt cl core _ => cl < 4032 && core < 136
  | .sltu cl core _ => cl < 4032 && core < 136
  | .seq cl core _ => cl < 4032 && core < 136
  | .min cl core _ => cl < 4032 && core < 136
  | .max cl core _ => cl < 4032 && core < 136
  | .mul cl core _ => cl < 4032 && core < 136
  | .li cl core _ => cl < 4032 && core < 136
  | .fadd cl core _ => cl < 4032 && core < 136
  | .fsub cl core _ => cl < 4032 && core < 136
  | .fmul cl core _ => cl < 4032 && core < 136
  | .ffma cl core _ => cl < 4032 && core < 136
  | .fmin cl core _ => cl < 4032 && core < 136
  | .fmax cl core _ => cl < 4032 && core < 136
  | .f2i cl core _ => cl < 4032 && core < 136
  | .i2f cl core _ => cl < 4032 && core < 136
  | .ldB cl core _ => cl < 4032 && core < 136
  | .ldH cl core _ => cl < 4032 && core < 136
  | .ldW cl core _ => cl < 4032 && core < 136
  | .stB cl core _ => cl < 4032 && core < 136
  | .stH cl core _ => cl < 4032 && core < 136
  | .stW cl core _ => cl < 4032 && core < 136
  | .aadd cl core _ => cl < 4032 && core < 136
  | .amovSa cl core _ => cl < 4032 && core < 136
  | .amovAs cl core _ => cl < 4032 && core < 136
  | .ali cl core _ => cl < 4032 && core < 136
  | .j cl core _ => cl < 4032 && core < 136
  | .jr cl core _ => cl < 4032 && core < 136
  | .beq cl core _ => cl < 4032 && core < 136
  | .bne cl core _ => cl < 4032 && core < 136
  | .blt cl core _ => cl < 4032 && core < 136
  | .bge cl core _ => cl < 4032 && core < 136
  | .loop cl core _ => cl < 4032 && core < 136
  | .stop cl core _ => cl < 4032 && core < 136
  | .tmulAcc cl core _ => cl < 4032 && core < 136
  | .tmulZero cl core _ => cl < 4032 && core < 136
  | .tensorInstructionEnd cl core => cl < 4032 && core < 136
  | .accClr cl core _ => cl < 4032 && core < 136
  | .accLd cl core _ => cl < 4032 && core < 136
  | .accSt cl core _ => cl < 4032 && core < 136
  | .accSend cl core _ => cl < 4032 && core < 136
  | .cvtAcc cl core _ => cl < 4032 && core < 136
  | .cvtLm cl core _ => cl < 4032 && core < 136
  | .qrecv cl core _ => cl < 4032 && core < 136
  | .qsend cl core _ => cl < 4032 && core < 136
  | .qpopS cl core _ => cl < 4032 && core < 136
  | .qpushS cl core _ => cl < 4032 && core < 136
  | .fset cl core _ => cl < 4032 && core < 136
  | .fclr cl core _ => cl < 4032 && core < 136
  | .fwait cl core _ => cl < 4032 && core < 136
  | .fwaitc cl core _ => cl < 4032 && core < 136
  | .ftest cl core _ => cl < 4032 && core < 136
  | .flagWaitEnd cl core _ => cl < 4032 && core < 136
  | .vfset cl core _ => cl < 4032 && core < 136
  | .vfclr cl core _ => cl < 4032 && core < 136
  | .vfwait cl core _ => cl < 4032 && core < 136
  | .vfwaitc cl core _ => cl < 4032 && core < 136
  | .nop cl core _ => cl < 4032 && core < 136
  | .hint cl core _ => cl < 4032 && core < 136
  | .asclr cl core _ => cl < 4032 && core < 136
  | .coreRun cl _ => cl < 4032
  | .coreHostStop cl _ => cl < 4032
  | .coreReset cl _ => cl < 4032
  | .coreResetComplete cl core => cl < 4032 && core < 136
  | .o2ModeWrite cl _ => cl < 4032
  | .coreFlagSet cl _ => cl < 4032
  | .coreFlagClr cl _ => cl < 4032
  | .lmDataAccess cl _ => cl < 4032
  | .accDataAccess cl _ => cl < 4032
  | .clusterStart cl _ => cl < 4032
  | .clusterStop cl _ => cl < 4032
  | .haltNFall => true
  | .haltNRise => true
  | .devHaltSet => true
  | .devHaltClear => true
  | .haltedSet => true
  | .ctxArm cl _ => cl < 4032
  | .ctxInvalidate cl _ => cl < 4032
  | .ctxSwitch cl _ => cl < 4032
  | .ctxDataAccess cl _ => cl < 4032
  | .contextEndSwitch cl => cl < 4032
  | .weaveItemSend cl qa => cl < 4032 && qa < 4096
  | .steeringFire cl su => cl < 4032 && su < 32
  | .sfuFire cl sfu => cl < 4032 && sfu < 16
  | .storePortAccess cl sp _ => cl < 4032 && sp < 8
  | .readStream cl sp => cl < 4032 && sp < 8
  | .writeStream cl sp => cl < 4032 && sp < 8
  | .slackPass cl sp _ => cl < 4032 && sp < 8
  | .meshPortPacketClose cl mp => cl < 4032 && mp < 4
  | .balanceFault cl _ _ _ => cl < 4032
  | .weaveFreeze cl => cl < 4032
  | .dmaTailWrite cl eng ring _ => cl < 4032 && eng < 2 && ring < 4
  | .dmaPause cl eng ring => cl < 4032 && eng < 2 && ring < 4
  | .copy cl eng ring => cl < 4032 && eng < 2 && ring < 4
  | .fill cl eng ring => cl < 4032 && eng < 2 && ring < 4
  | .dmaDescComplete cl eng ring => cl < 4032 && eng < 2 && ring < 4
  | .gutterTailWrite cl _ => cl < 4032
  | .quant cl => cl < 4032
  | .iadd cl => cl < 4032
  | .dequant cl => cl < 4032
  | .pack48 cl => cl < 4032
  | .unpack48 cl => cl < 4032
  | .fsum cl => cl < 4032
  | .vdot cl => cl < 4032
  | .vadd cl => cl < 4032
  | .vmerge cl => cl < 4032
  | .vread cl => cl < 4032
  | .vclr cl => cl < 4032
  | .vaddraw cl => cl < 4032
  | .gutterCmdComplete cl => cl < 4032
  | .slotEnable cl slot _ => cl < 4032 && slot < 16
  | .flagSetApply cl => cl < 4032
  | .vftDataAccess cl _ => cl < 4032
  | .thatcherTailWrite cl _ => cl < 4032
  | .pack cl => cl < 4032
  | .unpack cl => cl < 4032
  | .gather cl => cl < 4032
  | .thatcherCmdComplete cl => cl < 4032
  | .skylightTailWrite cl _ => cl < 4032
  | .predict cl => cl < 4032
  | .skylightCmdComplete cl => cl < 4032
  | .retireGo b _ => b < 336
  | .retirementCopyComplete b => b < 336
  | .ctuInvalidate cl _ => cl < 4032
  | .invalidationComplete cl => cl < 4032
  | .walkerReadResp b walk => b < 336 && walk < 16
  | .atsCompletion cl unit ring _ => cl < 4032 && unit < 5 && ring < 4
  | .prgResponse cl unit ring _ => cl < 4032 && unit < 5 && ring < 4
  | .atsInvalidateRequest t _ _ => (1 ≤ t && t ≤ 64)
  | .unitPark cl unit ring => cl < 4032 && unit < 5 && ring < 4
  | .faultDispatch cl unit ring => cl < 4032 && unit < 5 && ring < 4
  | .resume cl unit _ => cl < 4032 && unit < 5
  | .preempt t _ => (1 ≤ t && t ≤ 64)
  | .restore t _ => (1 ≤ t && t ≤ 64)
  | .stoppingEnd cl => cl < 4032
  | .drainingEnd cl => cl < 4032
  | .drainingTimeout cl => cl < 4032
  | .savingEnd cl => cl < 4032
  | .restoreComplete cl => cl < 4032
  | .tkSet _ => true
  | .timepulse => true
  | .ppsLost => true
  | .timebaseSync cl _ => cl < 4452
  | .packetHop cl port => cl < 4032 && port < 11
  | .packetWeave cl => cl < 4032
  | .packetStore cl => cl < 4032
  | .packetStoreReadReq cl => cl < 4032
  | .packetGutter cl => cl < 4032
  | .packetFlag cl => cl < 4032
  | .packetCoreLm cl => cl < 4032
  | .packetCoreLmAll cl => cl < 4032
  | .packetWeaveCtx cl => cl < 4032
  | .packetVft cl => cl < 4032
  | .packetMicrocode cl => cl < 4032
  | .packetReadResp cl => cl < 4032
  | .packetBay b => b < 336
  | .packetBayReadReq b => b < 336
  | .packetAck cl => cl < 4032
  | .packetAckErr cl => cl < 4032
  | .e2eLost cl => cl < 4032
  | .flitReplay cl lp => cl < 4032 && lp < 8
  | .linkFailing cl lp => cl < 4032 && lp < 8
  | .calibrationEnd cl lp _ _ => cl < 4032 && lp < 8
  | .routeArm cl _ => cl < 4032
  | .routeInvalidate cl _ => cl < 4032
  | .flip cl _ => cl < 4032
  | .epochChannelChange cl _ => cl < 4032
  | .routerReset cl _ => cl < 4032
  | .routerResetComplete cl _ => cl < 4032
  | .rtDataAccess cl _ => cl < 4032
  | .swap cl lp _ => cl < 4032 && lp < 8
  | .linkTakeOut cl lp _ => cl < 4032 && lp < 8
  | .stepStartWrite t _ => (1 ≤ t && t ≤ 64)
  | .stepStartInstant t => (1 ≤ t && t ≤ 64)
  | .attemptEnd t => (1 ≤ t && t ≤ 64)
  | .stepRetry t _ => (1 ≤ t && t ≤ 64)
  | .redArm t _ => (1 ≤ t && t ≤ 64)
  | .redDisarm t => (1 ≤ t && t ≤ 64)
  | .redDataAccess t _ => (1 ≤ t && t ≤ 64)
  | .digestGo t _ => (1 ≤ t && t ≤ 64)
  | .copyComplete t red _ => (1 ≤ t && t ≤ 64) && red < 1024
  | .dueReached t red => (1 ≤ t && t ≤ 64) && red < 1024
  | .deadlinePassed t red => (1 ≤ t && t ≤ 64) && red < 1024
  | .selectionAck t red => (1 ≤ t && t ≤ 64) && red < 1024
  | .portTrain p _ => p < 32
  | .portTakeOut p _ => p < 32
  | .linkLockLoss p link => p < 32 && link < 2
  | .eaveRetrainEnd p link _ => p < 32 && link < 2
  | .sessionEnable p _ => p < 32
  | .sessionDisable p _ => p < 32
  | .sessDataAccess p _ => p < 32
  | .dataFrameReceive p link _ => p < 32 && link < 2
  | .ackFrameReceive p link _ => p < 32 && link < 2
  | .pfcFrameReceive p prio _ => p < 32 && prio < 8
  | .pfcQuantaExpire p prio => p < 32 && prio < 8
  | .ackDelayExpire p entry => p < 32 && entry < 512
  | .rtoExpire p entry _ => p < 32 && entry < 512
  | .rateInterval p entry => p < 32 && entry < 512
  | .postReceive p => p < 32
  | .sendDescriptorRead p => p < 32
  | .frameSend p _ => p < 32
  | .evPostWrite cl i8 _ => cl < 4032 && i8 < 8
  | .hostLinkTrain _ _ _ => true
  | .hostLinkRetrain _ _ => true
  | .hostLinkDown => true
  | .perstNAssert => true
  | .sqDoorbell fn q _ => fn < 65 && q < queuesOf fn
  | .hibCommandStart fn q _ => fn < 65 && q < queuesOf fn
  | .cmdNop _ => true
  | .hostToStack _ _ => true
  | .stackToHost _ => true
  | .load _ _ => true
  | .cmdFlag _ => true
  | .commandComplete _ => true
  | .cqHeadWrite fn q _ => fn < 65 && q < queuesOf fn
  | .sqEnable fn q _ => fn < 65 && q < queuesOf fn
  | .sqDisable fn q _ => fn < 65 && q < queuesOf fn
  | .cqEnable fn q _ => fn < 65 && q < queuesOf fn
  | .watchedLineSnoop fn q _ => fn < 65 && q < queuesOf fn
  | .packetHost cl => cl < 4032
  | .hostReadCompletion _ _ => true
  | .cxlMemRead win _ => win < 4
  | .cxlMemWrite win _ _ => win < 4
  | .biasToDevice _ => true
  | .biasToHost _ => true
  | .biasFlipComplete => true
  | .hdmCommit win _ _ _ => win < 4
  | .windowEnable win _ => win < 4
  | .functionLevelReset fn => fn < 65
  | .msixUnmask fn vec => fn < 65 && vec < vectorsOf fn
  | .ideStreamStop _ => true
  | .registerWrite off size _ => off < 72482816 && (1 ≤ size && size ≤ 8)
  | .rcRead rd => rd.off < 72482816 && 1 ≤ rd.size && rd.size ≤ 8
  | .enableWrite pg => pg.ok
  | .consistencyCheckComplete pg => pg.ok
  | .disableWrite pg => pg.ok
  | .softReset pg => pg.ok
  | .devFenceRead => true
  | .windowSelect n16 _ => n16 < 16
  | .wmtEntryWrite wmt _ => wmt < 524288
  | .commit _ => true
  | .release _ => true
  | .mapEn cl => cl < 4032
  | .mapDisable cl => cl < 4032
  | .engineIdWrite _ => true
  | .gableEnable t => (1 ≤ t && t ≤ 64)
  | .gableDisable t => (1 ≤ t && t ≤ 64)
  | .bayAdd t _ => (1 ≤ t && t ≤ 64)
  | .bayRemove t _ => (1 ≤ t && t ≤ 64)
  | .allotWrite t _ => (1 ≤ t && t ≤ 64)
  | .meterPeriodEnd t => (1 ≤ t && t ≤ 64)
  | .mtClose _ => true
  | .meterRecordWrite t => (1 ≤ t && t ≤ 64)
  | .mtIntervalWrite _ => true
  | .mtRecDataRead => true
  | .estimateWindow b _ => b < 336
  | .measurementWindow b _ _ => b < 336
  | .calibrationFit b _ _ => b < 336
  | .opportunisticControl t => (1 ≤ t && t ≤ 64)
  | .learnUpdate t _ _ _ => (1 ≤ t && t ≤ 64)
  | .armingStart b => b < 336
  | .armingComplete b => b < 336
  | .disarm b => b < 336
  | .thermalTrip cl _ => cl < 4032
  | .thermalEscalate b => b < 336
  | .thermalRelease b _ => b < 336
  | .overdraw t => (1 ≤ t && t ≤ 64)
  | .thermalLatch cl _ => cl < 4032
  | .bayLatch b => b < 336
  | .relight _ => true
  | .inletSample _ => true
  | .inputSample _ => true
  | .inputLoss _ => true
  | .darkEnter _ => true
  | .wake => true
  | .bladeWithdraw => true
  | .bladeInsert => true
  | .rails _ => true
  | .clocks _ => true
  | .ridge _ => true
  | .record => true
  | .test _ _ => true
  | .mapStep => true
  | .mapFinish => true
  | .mesh _ => true
  | .firmware _ => true
  | .stacks _ => true
  | .host => true
  | .eave _ => true
  | .ready => true
  | .bringupStepEnd => true
  | .standbyPowerUp _ => true
  | .coldReset => true
  | .warmReset => true
  | .gableReset t => (1 ≤ t && t ≤ 64)
  | .gableResetComplete t => (1 ≤ t && t ≤ 64)
  | .testBay _ => true
  | .testBayComplete _ _ => true
  | .imgErase => true
  | .imgDataWrite _ => true
  | .microcodeSend cl => cl < 4032
  | .fcHeartbeat f => f < 84
  | .nbrLost f => f < 84
  | .cover f _ => f < 84
  | .fcReset f => f < 84
  | .ctrCommit _ => true
  | .reportGo _ => true
  | .blobDataWrite _ => true
  | .keyLoad _ => true
  | .keyErase _ => true
  | .signingComplete => true
  | .rngFail => true
  | .getVersion => true
  | .getCapabilities => true
  | .negotiateAlgorithms _ => true
  | .getDigests => true
  | .getCertificate _ _ _ => true
  | .challenge _ _ => true
  | .getMeasurements _ _ => true
  | .keyExchange _ _ => true
  | .finish _ _ => true
  | .heartbeat _ => true
  | .keyUpdate _ _ => true
  | .endSession _ => true
  | .ideKm _ _ => true
  | .errorRecordWrite pg _ => pg.ok
  | .storePatrol cl => cl < 4032
  | .stackPatrol b => b < 336
  | .spareWireSweep cl lp _ _ => cl < 4032 && lp < 8
  | .agingReading cl _ => cl < 4032
  | .fcMark f _ => f < 84
  | .setEndpointId _ _ => true
  | .getEndpointId => true
  | .getMctpVersionSupport _ => true
  | .getMessageTypeSupport => true
  | .getVendorDefinedMessageSupport _ => true
  | .mctpRead _ _ _ => true
  | .tapReset => true
  | .extest => true
  | .idcode => true
  | .samplePreload => true
  | .clamp => true
  | .highz => true
  | .extestPulse => true
  | .extestTrain => true
  | .ebSample => true
  | .ebExtestPulse => true
  | .ebExtestTrain => true
  | .bypass => true
  | .standbyPowerLoss => true
  | .ridgePathLost f => f < 84
  | .hostReadTimeout _ => true
  | .controllerRestart f _ => f < 84
  | .softResetComplete pg => pg.ok
  | .digestComplete t => (1 ≤ t && t ≤ 64)
  | .fcMarkComplete f => f < 84
  | .imgEraseComplete => true
  | .keySwapComplete => true

end Sys2Proof
end

