-- ==== Sys2Proof/Machine/HostQueue.lean ====
section
/-! DEFINITION. The host link and its command queues (R434 to R453): training, HELD, the 576 queue
pairs, the commands of R445, completions, the packets of the host bridge. Host memory is outside the
engine: what a command read there comes with the command. -/

namespace Sys2Proof.Machine

open Sys2Proof

def Chip.modLinkH (s : Chip) (f : HostLink → HostLink) : Chip := { s with link := f s.link }

/-! ### Training (R434 to R438, R463, R464) -/

/-- The lane counts and speed encodings of HL_LINK (R466). -/
def linkShape (n m : Nat) : Bool := n ∈ [1, 2, 4, 8, 16] && decide (1 ≤ m) && decide (m ≤ 5)

/-- A change of HL_LINK: held traffic may go out, and PF vector 0 is signalled (R437, R441). -/
def Chip.linkChanged (s : Chip) : Chip := s.releaseHeld.signal 0 0

/-- Where HELD read `was` before: what may have changed HL_LINK.HELD (R441, R464). -/
def Chip.heldChanged (s : Chip) (was : Bool) : Chip := if s.link.held = was then s else s.linkChanged

/-- HOST_LINK_TRAIN (R434, R435): the link comes up at width `n` and SPEED `m`, `flag` telling whether CXL
mode was offered: the engine negotiates it from ×4 and 8 GT/s on (R431). A link trains with PERST_N high and standby power present, and not while boundary scan
takes the pins (R643). -/
def execHostLinkTrain (n m : Nat) (flag : Bool) (s : State) : Out := s.run fun s =>
  .next
    (if s.link.up || !s.module.standby || s.module.tapTakes || !linkShape n m then s
     else
       let s := { s with module := { s.module with perstN := true } }
       (s.modLinkH fun l => { l with up := true, width := n, speed := m, cxl := flag && 4 ≤ n && 3 ≤ m }).linkChanged)

/-- HOST_LINK_RETRAIN (R436, R437): the rate changes, LINK_CHANGE is set, RETRAINS counts; a link that still meets its
conditions counts a CORRECTED error of the host link, which AER reports (R432). -/
def execHostLinkRetrain (n m : Nat) (s : State) : Out := s.run fun s =>
  .next
    (if !s.link.up || !linkShape n m then s
     else (s.modLinkH fun l =>
       let l := { l with width := n, speed := m, linkChange := true, retrains := min 65535 (l.retrains + 1) }
       { l with aer := if l.meets then l.aer + 1 else l.aer }).linkChanged)

/-- The decoders, uncommitted (R438). -/
def HostLink.uncommit (l : HostLink) : HostLink :=
  { l with windows := SMap.mapVals {} l.windows fun _ w => { w with committed := false, commitErr := false } }

/-- IDE streams stop (R438, R464). -/
def HostLink.stopIde (l : HostLink) (io cm : Bool) : HostLink :=
  { l with
    ideStopped := l.ideStopped || (io && l.ioIde) || (cm && l.cmIde)
    ioIde := l.ioIde && !io
    cmIde := l.cmIde && !cm }

/-- The link goes down: configuration space (AER with it) and the CXL component registers reset; the queue pages,
host-link page, windows and bias tables are kept (R438). -/
def HostLink.goDown (l : HostLink) : HostLink :=
  { l.uncommit.stopIde true true with
    up := false, width := 0, speed := 0, cxl := false, atsEnabled := [], msix := [], pendingVec := []
    devCtl := 0x2000#64, memReqs := [], aer := 0, ras := 0 }

/-- HOST_LINK_DOWN (R438). -/
def execHostLinkDown (s : State) : Out := s.run fun s =>
  .next (if s.link.up then (s.modLinkH HostLink.goDown).signal 0 0 else s)

/-- IDE_STREAM_STOP (R464): `flag` for the CXL.io stream, else the CXL.cache/mem one. -/
def execIdeStreamStop (flag : Bool) (s : State) : Out := s.run fun s =>
  .next ((s.modLinkH fun l => l.stopIde flag (!flag)).heldChanged s.link.held)

/-- Both IDE streams active again lifts the hold. -/
def HostLink.startIde (l : HostLink) (io cm : Bool) : HostLink :=
  let l := { l with ioIde := l.ioIde || io, cmIde := l.cmIde || cm }
  if l.ioIde && l.cmIde then { l with ideStopped := false } else l

/-- A vector's mask clears and a pending message is sent (R442). -/
def Chip.unmask (s : Chip) (key : Nat) : Chip :=
  let s := s.modLinkH fun l => l.setMsix (2 * key + 1) (clrBit (l.msixWord (2 * key + 1)) 32)
  if key ∈ s.link.pendingVec then
    (s.modLinkH fun l => { l with pendingVec := l.pendingVec.erase key }).sendHost (.vector (key / 2048) (key % 2048))
  else s

/-- MSIX_UNMASK (R442). -/
def execMsixUnmask (fn vec : Nat) (s : State) : Out := s.run fun s =>
  onUnit (fn < 65 && vec < vectorsOf fn) (s.unmask (2048 * fn + vec))

/-! ### Queue pairs (R443, R444, R448 to R451, R465) -/

def queueKey (fn q : Nat) : Nat := 64 * fn + q
/-- Place in the order PF queues, then VF queues (R444). -/
def queueOrder (fn q : Nat) : Nat := if fn = 0 then q else 64 + 8 * (fn - 1) + q
def queueOk (fn q : Nat) : Bool := decide (fn < 65) && decide (q < queuesOf fn)

def Chip.queue (s : Chip) (fn q : Nat) : QueuePair := SMap.get {} s.link.queues (queueKey fn q)
def Chip.modQueue (s : Chip) (fn q : Nat) (f : QueuePair → QueuePair) : Chip :=
  s.modLinkH fun l => { l with queues := SMap.upd {} l.queues (queueKey fn q) f }

/-- Reset value of a queue register: HQ_CQ_CFG.VECTOR is 213 for the PF and 2 for a VF. -/
def queueReset (fn off : Nat) : W :=
  if fn ≠ 0 ∧ off = Off.HQ_CQ_CFG then 0x20004#64 else Block.resetReg .queue off

def QueuePair.reg (p : QueuePair) (fn off : Nat) : Nat := (SMap.get (queueReset fn off) p.regs off).toNat
def QueuePair.setReg (p : QueuePair) (fn off v : Nat) : QueuePair :=
  { p with regs := SMap.set (queueReset fn off) p.regs off (BitVec.ofNat 64 v) }

def QueuePair.sqLog (p : QueuePair) (fn : Nat) : Nat := p.reg fn Off.HQ_SQ_CFG % 16
def QueuePair.watch (p : QueuePair) (fn : Nat) : Bool := (p.reg fn Off.HQ_SQ_CFG).testBit 4
def QueuePair.cqLog (p : QueuePair) (fn : Nat) : Nat := p.reg fn Off.HQ_CQ_CFG % 16
def QueuePair.vector (p : QueuePair) (fn : Nat) : Nat := bits (p.reg fn Off.HQ_CQ_CFG) 16 11

/-- The completion queue holds 2^LOG2SIZE entries not consumed. -/
def QueuePair.cqFull (p : QueuePair) (fn : Nat) : Bool :=
  decide (sub16 (p.reg fn Off.HQ_CQ_TAIL) (p.reg fn Off.HQ_CQ_HEAD) ≥ 2 ^ p.cqLog fn)

/-- A host write of HQ_SQ_TAIL (R443, R450). -/
def Chip.sqTailWrite (s : Chip) (fn q : Nat) (v : W) : Chip :=
  let p := s.queue fn q
  let tail := v.toNat % 65536
  if p.watch fn then s
  else if sub16 tail (p.reg fn Off.HQ_SQ_HEAD) > 2 ^ p.sqLog fn then
    s.modQueue fn q fun p => { p with ovf := true, error := true }
  else s.modQueue fn q fun p => p.setReg fn Off.HQ_SQ_TAIL tail

/-- SQ_DOORBELL. -/
def execSqDoorbell (fn q : Nat) (v : W) (s : State) : Out := s.run fun s => onUnit (queueOk fn q) (s.sqTailWrite fn q v)

/-- CQ_HEAD_WRITE (R448). -/
def Chip.cqHeadWrite (s : Chip) (fn q : Nat) (v : W) : Chip :=
  s.modQueue fn q fun p => p.setReg fn Off.HQ_CQ_HEAD (v.toNat % 65536)

def execCqHeadWrite (fn q : Nat) (v : W) (s : State) : Out := s.run fun s => onUnit (queueOk fn q) (s.cqHeadWrite fn q v)

/-- Bytes of watched rings enabled, all queues but `skip` (R451). -/
def HostLink.watchedBytes (l : HostLink) (skip : Nat) : Nat :=
  l.queues.foldl (fun n p =>
    if p.1 ≠ skip && p.2.sqEnable && p.2.watch (p.1 / 64) then n + 64 * 2 ^ p.2.sqLog (p.1 / 64) else n) 0

/-- The check of an SQ's ENABLE: 0 admits (R465). -/
def Chip.sqCheck (s : Chip) (fn q : Nat) : Nat :=
  let p := s.queue fn q
  let n := p.sqLog fn
  if n < 4 ∨ n > 12 then 0x0101
  else if !p.cqEnable then 0x0301
  else if p.watch fn && decide (s.link.watchedBytes (queueKey fn q) + 64 * 2 ^ n > 2 ^ 22) then 0x0501
  else 0

/-- The check of a CQ's ENABLE. -/
def QueuePair.cqCheck (p : QueuePair) (fn : Nat) : Nat :=
  let n := p.cqLog fn
  let v := p.vector fn
  if n < 4 ∨ n > 14 ∨ (if fn = 0 then v < 213 ∨ v > 2047 else v < 2 ∨ v > 63) then 0x0101 else 0

/-- Commands of a queue in progress are marked to end with ABORTED once nothing is outstanding (R449). -/
def HostLink.abortQueue (l : HostLink) (f : HibCmd → Bool) (silent : Bool) : HostLink :=
  { l with
    running := l.running.map fun c =>
      if f c && !c.done then { c with abort := true, silent := c.silent || silent } else c }

/-- A write of HQ_SQ_CFG (R443, R449, R465). One that leaves a running queue enabled starts no check and changes no field
but DOORBELL_OVF (log entry 21). -/
def Chip.sqCfgWrite (s : Chip) (fn q : Nat) (v : W) : Chip :=
  let p := s.queue fn q
  let kept := bit v 5 && p.sqEnable && !p.error
  let s := s.modQueue fn q fun p =>
    { (if kept then p else p.setReg fn Off.HQ_SQ_CFG (v.toNat % 32)) with ovf := p.ovf && !bit v 6 }
  if !bit v 5 then
    if p.sqEnable then
      (s.modQueue fn q fun p => { p with sqEnable := false }).modLinkH fun l =>
        l.abortQueue (fun c => c.fn = fn && c.queue = q) false
    else s
  else if kept then s
  else
    let code := s.sqCheck fn q
    let s := s.modQueue fn q fun p => p.setReg fn Off.HQ_REFUSAL code
    if code ≠ 0 then s.modQueue fn q fun p => { p with sqEnable := false }
    else (s.modQueue fn q fun p =>
      { (p.setReg fn Off.HQ_SQ_HEAD 0).setReg fn Off.HQ_SQ_TAIL 0 with
        sqEnable := true, error := false, started := 0, ahead := [], blocked := none }).modLinkH fun l =>
        { l with running := l.running.map fun c => if c.fn = fn && c.queue = q then { c with old := true } else c }

/-- SQ_ENABLE: a write of HQ_SQ_CFG with ENABLE = 1. -/
def execSqEnable (fn q : Nat) (v : W) (s : State) : Out := s.run fun s =>
  onUnit (queueOk fn q) (if bit v 5 then s.sqCfgWrite fn q v else s)

/-- SQ_DISABLE: a write of HQ_SQ_CFG with ENABLE = 0. -/
def execSqDisable (fn q : Nat) (v : W) (s : State) : Out := s.run fun s =>
  onUnit (queueOk fn q) (if bit v 5 then s else s.sqCfgWrite fn q v)

/-- A write of HQ_CQ_CFG (R465). -/
def Chip.cqCfgWrite (s : Chip) (fn q : Nat) (v : W) : Chip :=
  let kept := bit v 4 && (s.queue fn q).cqEnable
  let s := s.modQueue fn q fun p =>
    if kept then p else p.setReg fn Off.HQ_CQ_CFG (fld v 0 4 + fld v 16 11 * 65536)
  let p := s.queue fn q
  if !bit v 4 then s.modQueue fn q fun p => { p with cqEnable := false }
  else if kept then s
  else
    let code := p.cqCheck fn
    let s := s.modQueue fn q fun p => p.setReg fn Off.HQ_REFUSAL code
    if code ≠ 0 then s
    else s.modQueue fn q fun p =>
      { (p.setReg fn Off.HQ_CQ_HEAD 0).setReg fn Off.HQ_CQ_TAIL 0 with cqEnable := true }

/-- CQ_ENABLE: a write of HQ_CQ_CFG with ENABLE = 1. -/
def execCqEnable (fn q : Nat) (v : W) (s : State) : Out := s.run fun s =>
  onUnit (queueOk fn q) (if bit v 4 then s.cqCfgWrite fn q v else s)

/-- PHASE of count `n` in a ring of 2^k entries: 1 on the first pass, alternating (R448, R450). -/
def passPhase (n k : Nat) : Bool := n / 2 ^ k % 2 = 0

/-- WATCHED_LINE_SNOOP (R450): the HIB reads lines of the ring again, from the entry at HQ_SQ_TAIL on, up to the first
that is not new; `ns` are their PHASE bits. New entries are taken in ring order while the ring has room. -/
def execWatchedLineSnoop (fn q : Nat) (ns : List Nat) (s : State) : Out := s.run fun s =>
  onUnit (queueOk fn q)
    (let p := s.queue fn q
     if !s.link.cxlServes || !p.sqEnable || p.error || !p.watch fn then s
     else
       let k := p.sqLog fn
       let room := 2 ^ k - sub16 (p.reg fn Off.HQ_SQ_TAIL) (p.reg fn Off.HQ_SQ_HEAD)
       let t := p.reg fn Off.HQ_SQ_TAIL
       let fresh := ((ns.take room).zipIdx.takeWhile fun x => (x.1 % 2 = 1) = passPhase ((t + x.2) % 65536) k).length
       let s := (List.range (min (fresh + 1) (min room ns.length))).foldl (fun s i =>
         s.sendHost (.cacheRead fn (p.reg fn Off.HQ_SQ_BASE + 64 * ((t + i) % 2 ^ k)))) s
       s.modQueue fn q fun p => p.setReg fn Off.HQ_SQ_TAIL ((t + fresh) % 65536))

/-! ### Starting a command (R444 to R449) -/

def HibCmd.fld (c : HibCmd) (off len : Nat) : Nat := recFld c.cmd off len
def HibCmd.op (c : HibCmd) : Nat := c.fld 0 1
def HibCmd.fence (c : HibCmd) : Bool := (c.fld 1 1).testBit 0
def HibCmd.mcast (c : HibCmd) : Bool := (c.fld 1 1).testBit 1
def HibCmd.cid (c : HibCmd) : Nat := c.fld 2 2
/-- The tint acted in: a VF's own whatever the command holds. -/
def HibCmd.tint (c : HibCmd) : Nat := if c.fn = 0 then c.fld 4 1 else c.fn
def HibCmd.unit (c : HibCmd) : Nat := c.fld 5 1
def HibCmd.target (c : HibCmd) : Nat := c.fld 6 2
def HibCmd.host (c : HibCmd) : Nat := c.fld 8 8
def HibCmd.len (c : HibCmd) : Nat := c.fld 16 4
def HibCmd.key (c : HibCmd) : Nat := c.fld 20 1
def HibCmd.coreNo (c : HibCmd) : Nat := c.fld 21 1
def HibCmd.pkt (c : HibCmd) : Nat := c.fld 22 2
def HibCmd.dev (c : HibCmd) : Nat := c.fld 24 8

/-- Bytes of the space a LOAD addresses in a unit (R446). -/
def loadSpace : Nat → Nat
  | 1 => 0x1000000 | 4 => 0x10000 | 5 => 0x10000 | 6 => 0x4000 | 7 => 0x2000 | _ => 0x100000

/-- BAD_CMD of R447: OP, reserved bits, fields out of range, R446. -/
def HibCmd.bad (c : HibCmd) : Bool :=
  let resv := bits (c.fld 1 1) 2 6 ≠ 0 || (c.fn = 0 && c.tint > 64) || c.fld 32 31 ≠ 0 || bits (c.fld 63 1) 1 7 ≠ 0
  let target := if c.mcast then c.target ≥ 1024 else c.target ≥ 4096
  let stack := c.target ≥ 336 || c.key ≥ 64 || c.len % 64 ≠ 0 || c.dev % 64 ≠ 0 || c.dev + c.len > stackSize
  c.op > 4 || resv ||
    (match c.op with
     | 1 | 2 => stack
     | 3 => target || !(c.unit ∈ [1, 4, 5, 6, 7, 8]) || c.pkt % 64 ≠ 0 || c.pkt < 64 || c.pkt > 8128 ||
         (c.unit = 4 && c.coreNo ≥ 128) || c.dev % 8 ≠ 0 || c.len % 8 ≠ 0 || c.dev + c.len > loadSpace c.unit
     | 4 => target || c.len < 1 || c.len > 4
     | _ => false)

/-- TINT of R447. -/
def Chip.badTint (s : Chip) (c : HibCmd) : Bool :=
  let lcOut := !c.mcast && (match s.physOf c.target with
    | some p => decide (s.clTint p ≠ c.tint)
    | none => true)
  match c.op with
  | 1 | 2 => decide ((s.bay c.target).tint ≠ c.tint)
  | 3 => if c.unit = 8 then decide (c.tint ≠ 0) || decide (c.fn ≠ 0) else lcOut
  | 4 => lcOut
  | _ => false

/-- Commands of a queue not yet complete. -/
def Chip.inProgress (s : Chip) (fn q : Nat) : List HibCmd := s.link.running.filter fun c => c.fn = fn && c.queue = q

/-- A queue with a command ready (R444, R448, R449). -/
def Chip.queueReady (s : Chip) (fn q : Nat) : Bool :=
  let p := s.queue fn q
  p.sqEnable && p.cqEnable && !p.error && decide (p.started ≠ p.reg fn Off.HQ_SQ_TAIL) &&
    !p.cqFull fn && !(fn ≠ 0 && s.preempted fn) &&
    (match p.blocked with
     | none => true
     | some 0 => (s.inProgress fn q).isEmpty
     | some (t + 1) => !s.preempted t)

/-- The queues with a command ready, by their order. -/
def Chip.readyOrders (s : Chip) : List Nat :=
  (s.link.queues.filter fun p => s.queueReady (p.1 / 64) (p.1 % 64)).map fun p => queueOrder (p.1 / 64) (p.1 % 64)

/-- The HIB starts commands: nothing holds it, the halt is off, and one of its 32 places is free. -/
def Chip.hibStarts (s : Chip) : Bool := !s.halting && !s.link.held && decide (s.link.running.length < 32)

/-- HIB_COMMAND_START (R444, R447, R449): `cmd` is the next entry of the queue whose turn it is. -/
def execHibCommandStart (fn q : Nat) (cmd : BitVec 512) (s : State) : Out := s.run fun s =>
  onUnit (queueOk fn q)
    (if !s.hibStarts || rotate (some s.link.lastQueue) s.readyOrders ≠ some (queueOrder fn q) then s
     else
       let p := s.queue fn q
       let size := 2 ^ p.sqLog fn
       let s := s.sendHost (.hostRead fn (p.reg fn Off.HQ_SQ_BASE + 64 * (p.started % size)) 64)
       let c : HibCmd := { fn, queue := q, cmd, ix := p.started }
       if c.fence && !(s.inProgress fn q).isEmpty then s.modQueue fn q fun p => { p with blocked := some 0 }
       else if s.preempted c.tint then s.modQueue fn q fun p => { p with blocked := some (c.tint + 1) }
       else
         let status := if c.bad then 1 else if s.badTint c then 2 else 0
         let s := s.modQueue fn q fun p => { p with started := (p.started + 1) % 65536, blocked := none }
         s.modLinkH fun l => { l with
           lastQueue := queueOrder fn q
           running := l.running ++ [{ c with status, done := decide (status ≠ 0) }] })

/-! ### The commands of R445. A row names the command by its place in `running` -/

def Chip.hibCmd (s : Chip) (n : Nat) : Option HibCmd := s.link.running[n]?
def Chip.setHib (s : Chip) (n : Nat) (c : HibCmd) : Chip :=
  s.modLinkH fun l => { l with running := l.running.set n c }
/-- The command ends with a status. -/
def Chip.endHib (s : Chip) (n : Nat) (c : HibCmd) (status : Nat) : Chip := s.setHib n { c with status, done := true }

/-- Command `n` works on: it is of operation `op`, not ended, not aborted, its tint not pre-empted. -/
def Chip.hibWorks (s : Chip) (n op : Nat) : Option HibCmd :=
  match s.hibCmd n with
  | some c =>
    if c.op = op && !c.done && !c.abort && !s.halting && !s.link.held && !s.preempted c.tint then some c else none
  | none => none

/-- CMD_NOP. -/
def execCmdNop (n : Nat) (s : State) : Out := s.run fun s =>
  .next (match s.hibWorks n 0 with
    | some c => s.endHib n c 0
    | none => s)

/-! ### Packets of the host bridge (R302, R307, R433) -/

/-- The router the HIB injects at is in service. -/
def Chip.hibAttached (s : Chip) : Bool :=
  (s.router s.hibCluster).up && s.bayOk (clBay s.hibCluster) && s.hostOpen s.hibCluster

/-- A channel of the HIB may inject. -/
def Chip.hibMayInject (s : Chip) (ch : Nat) : Bool :=
  let n := (s.link.outstanding.filter fun o => o.channel = ch).length
  !(srcKey 0x13 ch ∈ s.link.flipping) &&
    decide (n ≤ fld (s.reg (.cluster s.hibCluster) Off.CL_RT_WINDOW) (4 * ch) 4) && s.bufferRoom s.hibCluster 0xA ch

/-- A packet of the HIB completed at injection, the tint as the HIB writes it; its record as outstanding, and the
bridge with its SEQ counted. -/
def Chip.hibStamped (s : Chip) (k : Packet) : Packet × Outstanding × Chip :=
  let cl := s.hibCluster
  let key := srcKey 0x13 k.channel
  let seq := SMap.get 0 s.link.seqs key
  let k := { k with srcUnit := 0x13, srcSub := 0, srcLC := 0, epoch := s.link.cur, esc := 0, seq }
  let leaves := if k.mcast then fld ((s.router cl).mcastWord k.epoch k.mIndex) 24 12 else 1
  (k, ⟨0x13, 0, k.channel, seq, s.clTime cl, leaves, k.tint⟩,
   s.modLinkH fun l => { l with seqs := SMap.set 0 l.seqs key ((seq + 1) % 65536) })

def Chip.hibOut (s : Chip) (o : Outstanding) : Chip := s.modLinkH fun l => { l with outstanding := l.outstanding ++ [o] }

/-- A packet of the HIB enters its attach router; its SEQ is answered. -/
def Chip.hibInject (s : Chip) (k : Packet) : Chip × Nat :=
  let (k, o, s) := s.hibStamped k
  ((s.modRouter s.hibCluster fun r => { r with inbuf := r.inbuf ++ [{ port := 0xA, pkt := k }] }).hibOut o, k.seq)

/-- What a stack access of the HIB ended in: its outcome, and the SEQ of one whose answer never comes. -/
def Chip.hibStack (s : Chip) (b slot t off : Nat) (ptype : Nat) (payload : List Byte) (act : Chip → StackRes) :
    StackRes × Nat :=
  if !s.hibAttached || !s.hibMayInject 11 then (.busy .unsent, 0)
  else
    let (k, o, s) := s.hibStamped
      { destLC := b, destUnit := 0x10, tint := t, channel := 11, ptype, payload := leBytes 8 (bayWord off slot) ++ payload }
    (s.roundTrip s.hibCluster k (fun s => .lost (s.hibOut o)) fun s far => s.atBay b far act, k.seq)

/-- The HIB reads `n` bytes of one 256-byte chunk of stack `b`. Its requests come on channel 11, which no full controller
holds (R238, R309). -/
def Chip.hibRead (s : Chip) (b slot t off n : Nat) (counted : Bool) : StackRes × Nat :=
  s.hibStack b slot t off 2 (leBytes 4 n) fun s => s.stackRead b slot t off n counted

/-- The HIB writes bytes of one chunk. -/
def Chip.hibWrite (s : Chip) (b slot t off : Nat) (bs : List Byte) (counted : Bool) : StackRes × Nat :=
  s.hibStack b slot t off 0 bs fun s => s.stackWrite b slot t off bs counted

/-! ### Moves between host and stack (R445) -/

/-- What one chunk of `m` bytes leaves of command `c`: it goes on, waits for an answer that never comes, or sends
nothing more. -/
def HibCmd.moved (c : HibCmd) (m status : Nat) (lost : Option Nat) : HibCmd :=
  { c with
    next := if status = 0 then c.next + m else c.len
    status := if c.status = 0 then status else c.status
    waits := match lost with | some q => c.waits ++ [(11, q)] | none => c.waits }

/-- The chunks of a move, from the command's position on: `f` performs the chunk at a stack offset. A chunk that waits
ends the run. -/
def Chip.hibMove (n : Nat) (f : Chip → HibCmd → Nat → Nat → StackRes × Nat) (after : Chip → HibCmd → Nat → List Byte → Chip) :
    List (Nat × Nat) → Chip → Chip
  | [], s => s
  | (o, m) :: rest, s =>
    match s.hibCmd n with
    | none => s
    | some c =>
      if c.next ≥ c.len then s
      else match f s c o m with
        | (.busy h, _) => s.waiting h
        | (.ok s bs, _) => Chip.hibMove n f after rest ((after s c o bs).setHib n (c.moved m 0 none))
        | (.lost s, q) => Chip.hibMove n f after rest (s.setHib n (c.moved m 0 (some q)))
        | (.refused s, _) => s.setHib n (c.moved m 3 none)
        | (.uncorr s, _) => s.setHib n (c.moved m 5 none)

/-- A command with nothing to move ends. -/
def Chip.hibChunks (s : Chip) (n : Nat) (c : HibCmd) (upTo : Nat) (go : List (Nat × Nat) → Chip → Chip) : Chip :=
  if c.len = 0 then s.endHib n c 0
  else if !s.hibAttached then s.endHib n c 6
  else go (chunks256 (upTo / 256 + 2) (c.dev + c.next) (c.dev + c.next + upTo)) s

/-- HOST_TO_STACK: the next bytes the host returned (whole lines of what remains), or `none` for a read
that failed. They go to the stack under KEY, a chunk at a time, on channel 11 (R303). -/
def execHostToStack (n : Nat) (hd : Option (List Byte)) (s : State) : Out := s.run fun s =>
  .next (match s.hibWorks n 1 with
    | none => s
    | some c =>
      match hd with
      | none => s.setHib n { c with status := if c.status = 0 then 4 else c.status, next := c.len, done := c.waits.isEmpty }
      | some bs =>
        if bs.length % 64 ≠ 0 || bs.length > c.len - c.next then s
        else
          let base := c.dev + c.next
          s.hibChunks n c bs.length (Chip.hibMove n
            (fun s c o m => (s.hostGet c.tint (c.host + (o - c.dev)) m).hibWrite c.target c.key c.tint o
              ((bs.drop (o - base)).take m) false)
            (fun s _ _ _ => s)))

/-- STACK_TO_HOST: the range is read under KEY, a chunk at a time, and written to host memory. -/
def execStackToHost (n : Nat) (s : State) : Out := s.run fun s =>
  .next (match s.hibWorks n 2 with
    | none => s
    | some c => s.hibChunks n c (c.len - c.next) (Chip.hibMove n
        (fun s c o m => s.hibRead c.target c.key c.tint o m false)
        (fun s c o bs => s.hostPut c.tint (c.host + (o - c.dev)) bs)))

/-! ### Loads and flags (R445, R446) -/

/-- The address form of R300 for unit byte address `a` (R446). -/
def loadForm (unit a : Nat) : Nat :=
  match unit with
  | 6 => a / 4096 % 4 + (a % 4096 / 8) <<< 8
  | 7 => a / 8
  | _ => a

/-- Packets a LOAD takes. -/
def HibCmd.packets (c : HibCmd) : Nat := (c.len + c.pkt - 1) / c.pkt

/-- LOAD (R446): the next packet, its data as read from the host, or `none` for a read that failed. -/
def execLoad (n : Nat) (hd : Option (List Byte)) (s : State) : Out := s.run fun s =>
  .next (match s.hibWorks n 3 with
    | none => s
    | some c =>
      if c.len = 0 then s.endHib n c 0
      else if !s.hibAttached then s.endHib n c 6
      else match hd with
        | none => s.setHib n { c with status := 4, next := c.packets }
        | some bs =>
          let off := c.next * c.pkt
          let m := min c.pkt (c.len - off)
          if c.next ≥ c.packets || bs.length ≠ m || !s.hibMayInject 14 then s
          else
            let s := s.hostGet c.tint (c.host + off) m
            let (s, seq) := s.hibInject {
              destLC := if c.mcast then 0 else c.target, destCore := if c.unit = 4 then c.coreNo else 0
              destUnit := c.unit, tint := c.tint, channel := 14, mcast := c.mcast, mIndex := c.target % 1024
              ptype := b2n (c.next + 1 = c.packets), payload := leBytes 8 (loadForm c.unit (c.dev + off)) ++ bs }
            s.setHib n { c with next := c.next + 1, waits := c.waits ++ [(14, seq)] })

/-- CMD_FLAG: one FLAG packet on channel 11 with the names in order. -/
def execCmdFlag (n : Nat) (s : State) : Out := s.run fun s =>
  .next (match s.hibWorks n 4 with
    | none => s
    | some c =>
      if !s.hibAttached then s.endHib n c 6
      else if c.next ≠ 0 || !s.hibMayInject 11 then s
      else
        let (s, seq) := s.hibInject {
          destLC := if c.mcast then 0 else c.target, destUnit := 3, tint := c.tint, channel := 11
          mcast := c.mcast, mIndex := c.target % 1024, ptype := 1, payload := leBytes (2 * c.len) c.dev }
        s.setHib n { c with next := 1, waits := [(11, seq)] })

/-! ### Completion (R444, R447 to R449) -/

/-- The command has ended: at once, aborted with nothing outstanding, or with every packet answered. -/
def HibCmd.ended (c : HibCmd) : Option Nat :=
  if c.done then some c.status
  else if !c.waits.isEmpty then none
  else if c.abort then some 7
  else if (c.op = 1 || c.op = 2) && c.next ≥ c.len then some c.status
  else if (c.op = 3 && c.next ≥ c.packets && c.next > 0) || (c.op = 4 && c.next > 0) then some c.status
  else none

/-- HEAD moves over complete entries: the oldest command not complete (R173, R443). -/
def advanceHead : Nat → Nat → List Nat → Nat × List Nat
  | 0, h, l => (h, l)
  | fuel + 1, h, l => if h ∈ l then advanceHead fuel ((h + 1) % 65536) (l.erase h) else (h, l)

/-- The ring entry of a command is complete, unless the ring has been enabled anew since. -/
def Chip.retireEntry (s : Chip) (c : HibCmd) : Chip :=
  if c.old then s
  else s.modQueue c.fn c.queue fun p =>
    let (h, l) := advanceHead 65536 (p.reg c.fn Off.HQ_SQ_HEAD) (p.ahead ++ [c.ix])
    { p.setReg c.fn Off.HQ_SQ_HEAD h with ahead := l }

/-- The 16 bytes of a completion entry (R448). -/
def completionEntry (c : HibCmd) (head status : Nat) (phase : Bool) (time : W) : List Byte :=
  leBytes 2 c.cid ++ leBytes 2 c.queue ++ leBytes 2 head ++ leBytes 1 status ++ leBytes 1 (b2n phase) ++ leBytes 8 time.toNat

/-- COMMAND_COMPLETE (R448, R449): an ended command writes its entry and signals the queue's vector; it
waits while the completion queue is full or traffic is held. A function that was reset writes none. -/
def execCommandComplete (n : Nat) (s : State) : Out := s.run fun s =>
  .next (match s.hibCmd n with
    | none => s
    | some c =>
      match c.ended with
      | none => s
      | some status =>
        let drop (s : Chip) : Chip := s.modLinkH fun l => { l with running := l.running.eraseIdx n }
        let p := s.queue c.fn c.queue
        if c.silent then drop s
        else if s.link.held then s
        else if p.cqFull c.fn || !p.cqEnable then s.setHib n { c with done := true, status }
        else
          let s := (drop s).retireEntry c
          let p := s.queue c.fn c.queue
          let t := p.reg c.fn Off.HQ_CQ_TAIL
          let k := p.cqLog c.fn
          let s := s.hostWrite c.fn (p.reg c.fn Off.HQ_CQ_BASE + 16 * (t % 2 ^ k))
            (completionEntry c (p.reg c.fn Off.HQ_SQ_HEAD) status (passPhase t k) s.now)
          let s := s.modQueue c.fn c.queue fun p =>
            (p.setReg c.fn Off.HQ_CQ_TAIL ((t + 1) % 65536)).setReg c.fn Off.HQ_CMDS ((p.reg c.fn Off.HQ_CMDS + 1) % 2 ^ 64)
          s.signal c.fn (p.vector c.fn))

/-- HOST_READ_TIMEOUT (R447): the host read of command `n` is never answered. -/
def execHostReadTimeout (n : Nat) (s : State) : Out := s.run fun s =>
  .next (match s.hibCmd n with
    | none => s
    | some c =>
      if c.done || c.abort then s
      else if c.op = 1 then s.setHib n { c with status := if c.status = 0 then 4 else c.status, next := c.len }
      else if c.op = 3 && c.next < c.packets then s.setHib n { c with status := 4, next := c.packets }
      else s)

/-- FUNCTION_LEVEL_RESET (R449): the function's commands end without a completion and its queue pages
and vectors return to reset. The gable of a VF is not touched. -/
def execFunctionLevelReset (fn : Nat) (s : State) : Out := s.run fun s =>
  onUnit (fn < 65)
    (let s := s.modLinkH fun l => l.abortQueue (fun c => c.fn = fn) true
     s.modLinkH fun l => { l with
       running := l.running.map fun c => if c.fn = fn then { c with silent := true } else c
       queues := l.queues.filter fun p => p.1 / 64 ≠ fn
       msix := l.msix.filter fun p => p.1 / 4096 ≠ fn
       pendingVec := l.pendingVec.filter fun v => v / 2048 ≠ fn
       atsEnabled := l.atsEnabled.erase fn })

/-! ### HOST packets (R452, R453) -/

/-- An answer to a packet of the HIB (R307): one that comes too late finds its packet lost (R308). -/
def Chip.hibAnswer (s : Chip) (cl : Nat) (k : Packet) : Chip :=
  match answered s.link.outstanding k with
  | none => s.count (.cluster cl) Off.CL_RT_LATE 1
  | some o =>
    if s.tooLate s.hibCluster o then (s.hibLost o).count (.cluster cl) Off.CL_RT_LATE 1
    else
      let whole := o.leaves ≤ 1
      let s := s.modLinkH fun l => { l with
        outstanding := takeLeaf o l.outstanding
        running := l.running.map fun (c : HibCmd) =>
          if whole then c.answered o.channel o.seq (k.ptype = 5)
          else if k.ptype = 5 && (o.channel, o.seq) ∈ c.waits && c.status = 0 then { c with status := 6 } else c }
      if k.ptype = 5 then s.count (.cluster cl) Off.CL_RT_ACK_ERR 1 else s

/-- Window of a bias request (log entry 14). -/
def Packet.biasWindow (k : Packet) : Nat := leNat ((k.payload.drop 13).take 1)

/-- PACKET_HOST (R452, R453): the oldest packet delivered through attach cluster `cl`. -/
def execPacketHost (cl : Nat) (s : State) : Out := s.run fun s =>
  onUnit (cl < 4032)
    (match s.link.arrived.find? fun p => p.1 = cl with
     | none => s
     | some (_, k) =>
       let s1 := s.modLinkH fun l => { l with arrived := l.arrived.erase (cl, k) }
       if k.ptype = 3 || k.ptype = 4 || k.ptype = 5 then s1.hibAnswer cl k
       else if k.ptype ≥ 6 then s1
       else if s.link.held || !s1.answerRoom cl k then s
       else if k.ptype = 2 then
         let n := leNat ((k.payload.drop 8).take 4)
         let kind := leNat ((k.payload.drop 12).take 1)
         if kind > 2 || n = 0 || n > 4096 || (kind ≠ 0 && n ≠ 64) then s1.ackErr cl k
         else
           let s := if kind = 0 then s1.hostGet k.tint k.addr n
             else s1.sendHost (.bias (kind = 2) k.biasWindow k.addr)
           s.modLinkH fun l => { l with reads := l.reads ++ [(cl, k)] }
       else if k.data.isEmpty || k.data.length > 8184 then s1.ackErr cl k
       else (s1.hostPut k.tint k.addr k.data).ack cl k)

/-- The answer to a READ_REQ, carried from attach cluster `cl` to its source: whether it went, for one held on the way
comes later. -/
def Chip.readAnswer (s : Chip) (cl : Nat) (k : Packet) (bs : List Byte) : Chip × Bool :=
  let a := s.answerTo cl k 3 bs
  match s.carry a maxHops cl with
  | .held h => (s.waiting h, false)
  | .lost s => (s, true)
  | .at s home p =>
    (if p ≠ unitPort a.destUnit then s.count (.cluster home) Off.CL_RT_LATE 1
      else if !s.delivers home a then s.stranger home a true
      else if p = 9 then s.biasAnswer home a else s.answer home a, true)

/-- HOST_READ_COMPLETION (R452, R462): the host answers read `n` with `hd`. A bias ownership is answered with no
bytes, a bias read the host returns nothing for as well; a failed host read returns no data, and its source meets
R308 (log entry 14). -/
def execHostReadCompletion (n : Nat) (hd : Option (List Byte)) (s : State) : Out := s.run fun s =>
  .next (match s.link.reads[n]? with
    | none => s
    | some (cl, k) =>
      let len := leNat ((k.payload.drop 8).take 4)
      let kind := leNat ((k.payload.drop 12).take 1)
      let s1 := s.modLinkH fun l => { l with reads := l.reads.eraseIdx n }
      let goes (bs : List Byte) : Chip := match s1.readAnswer cl k bs with
        | (s1, true) => s1
        | (s1, false) => s1.modLinkH fun l => { l with reads := s.link.reads }
      if kind = 2 then goes []
      else match hd with
        | none => if kind = 1 then goes [] else s1
        | some bs => if bs.length = len then goes bs else s)

end Sys2Proof.Machine
end

