-- ==== Sys2Proof/Machine/HostMem.lean ====
section
/-! DEFINITION. HDM windows over CXL.mem and their bias tables (R454 to R462), and the host-link
registers that drive them (R466). -/

namespace Sys2Proof.Machine

open Sys2Proof

def HostLink.reg (l : HostLink) (off : Nat) : W := SMap.get (Block.resetReg .hostLink off) l.regs off
def HostLink.setReg (l : HostLink) (off : Nat) (v : W) : HostLink :=
  { l with regs := SMap.set (Block.resetReg .hostLink off) l.regs off v }

/-! ### Windows (R455, R456) -/

structure WinShape where
  tint : Nat
  key : Nat
  nstack : Nat
  base : Nat
  per : Nat

def HostLink.shape (l : HostLink) (w : Nat) : WinShape :=
  let c := l.winCfg w
  { tint := fld c 8 7, key := fld c 16 6, nstack := fld c 24 6, base := fld c 32 7, per := fld c 40 7 }

def HostLink.window (l : HostLink) (w : Nat) : Window := SMap.get {} l.windows w
def HostLink.modWindow (l : HostLink) (w : Nat) (f : Window → Window) : HostLink :=
  { l with windows := SMap.upd {} l.windows w f }

def WinShape.size (x : WinShape) : Nat := x.nstack * x.per * 2 ^ 30

/-- The stacks of a window's LIST in order. -/
def HostLink.winStacks (l : HostLink) (w : Nat) : List Nat := (List.range (l.shape w).nstack).map (l.winStack w)

/-- Stack and stack offset of window offset `o` (R456). -/
def HostLink.winPlace (l : HostLink) (w o : Nat) : Nat × Nat :=
  let x := l.shape w
  let n := o / 4096
  (l.winStack w (n % x.nstack), x.base * 2 ^ 30 + n / x.nstack * 4096 + o % 4096)

/-- Two windows cover a common range of a common stack. -/
def HostLink.winOverlap (l : HostLink) (w v : Nat) : Bool :=
  let x := l.shape w
  let y := l.shape v
  decide (x.base < y.base + y.per) && decide (y.base < x.base + x.per) &&
    (l.winStacks w).any fun b => b ∈ l.winStacks v

/-- Bits of HL_WINw_CFG that are reserved. -/
def winReserved : W := 0x8080C0C080FC#64

/-- The check of a window's ENABLE; `v` is the value written (R455). -/
def Chip.windowCheck (s : Chip) (w : Nat) (v : W) : Nat :=
  let l := s.link
  let x := l.shape w
  let bs := l.winStacks w
  if x.nstack < 1 || x.nstack > 32 || x.per = 0 || x.base + x.per > 64 || x.nstack * x.per > 2048 then 0x0101
  else if v &&& winReserved ≠ 0#64 then 0x0103
  else if bs.dedup.length ≠ bs.length || (List.range 4).any (fun u => u ≠ w && (l.window u).enable && l.winOverlap w u) then 0x0201
  else if bs.any fun b => b ≥ 336 || (s.bay b).tint ≠ x.tint then 0x0401
  else if bs.any fun b => ((s.bay b).keyFor x.key x.tint).isNone then 0x0402
  else if !bit s.bringup.done 8 then 0x0702
  else 0

/-- A write of HL_WINw_CFG: fields change only while ENABLE is 0; every region of a window enabled is in
host bias (R455, R459). -/
def Chip.winCfgWrite (s : Chip) (w : Nat) (v : W) : Chip :=
  if (s.link.window w).enable then
    if bit v 0 then s else s.modLinkH fun l => l.modWindow w fun x => { x with enable := false }
  else
    let s := s.modLinkH fun l => l.setReg (Off.HL_WIN_CFG w) (v &&& 0x7F7F3F3F7F00#64)
    if !bit v 0 then s
    else
      let code := s.windowCheck w v
      s.modLinkH fun l =>
        { l.modWindow w fun x => { x with enable := code = 0, refused := decide (code ≠ 0), code } with
          deviceBias := if code = 0 then l.deviceBias.filter fun r => r / 2 ^ 20 ≠ w else l.deviceBias }

/-- WINDOW_ENABLE: a write of HL_WINw_CFG with ENABLE = 1. -/
def execWindowEnable (win : Nat) (v : W) (s : State) : Out := s.run fun s =>
  onUnit (win < 4) (if bit v 0 then s.winCfgWrite win v else s)

/-- A write of an HL_WINw_LIST register: only while the window's ENABLE is 0. -/
def Chip.winListWrite (s : Chip) (w off : Nat) (v : W) : Chip :=
  if (s.link.window w).enable then s else s.modLinkH fun l => l.setReg off (v &&& 0x1FF01FF01FF01FF#64)

/-- HDM_COMMIT (R454): decoder `win` is committed over DPA `n`, size `m`, interleave ways `k`. -/
def execHdmCommit (win n m k : Nat) (s : State) : Out := s.run fun s =>
  onUnit (win < 4)
    (let ok := n = win * 2 ^ 41 && m = (s.link.shape win).size && (s.link.window win).enable && k = 1
     s.modLinkH fun l => l.modWindow win fun x => { x with committed := ok, commitErr := !ok })

/-! ### Bias (R459 to R461) -/

def biasKey (w r : Nat) : Nat := w * 2 ^ 20 + r

/-- Regions of a window. -/
def WinShape.regions (x : WinShape) : Nat := x.nstack * x.per * 512

/-- Regions FIRST to FIRST + COUNT − 1 of window `w` given a bias. -/
def HostLink.setBias (l : HostLink) (w first count : Nat) (device : Bool) : HostLink :=
  let inside (r : Nat) : Bool := decide (biasKey w first ≤ r) && decide (r < biasKey w first + count)
  let rest := l.deviceBias.filter fun r => !inside r
  { l with
    deviceBias := if device then rest ++ (List.range count).map fun i => biasKey w (first + i) else rest }

/-- A write of HL_BIAS_CMD (R460): GO starts a flip; it is discarded with COUNT 0 or beyond the window, and
while a flip is in progress (log entry 18). -/
def Chip.biasWrite (s : Chip) (v : W) : Chip :=
  let s := s.modLinkH fun l => l.setReg Off.HL_BIAS_CMD (v &&& 0x1FFFFFFFFFF007#64)
  let w := fld v 0 2
  let first := fld v 12 20
  let count := fld v 32 21
  if !bit v 3 || s.link.biasBusy.isSome || count = 0 || !(s.link.window w).enable ||
      first + count > (s.link.shape w).regions then s
  else s.modLinkH fun l => { l with biasBusy := some (w, bit v 2, first, count) }

/-- BIAS_TO_DEVICE: a write with TO_DEVICE = 1. -/
def execBiasToDevice (v : W) (s : State) : Out := s.run fun s => .next (if bit v 2 then s.biasWrite v else s)
/-- BIAS_TO_HOST: a write with TO_DEVICE = 0. -/
def execBiasToHost (v : W) (s : State) : Out := s.run fun s => .next (if bit v 2 then s else s.biasWrite v)

/-- A bias request of the regions is with the host. -/
def HostLink.biasPending (l : HostLink) (w first count : Nat) : Bool :=
  l.reads.any fun p =>
    let r := leNat (p.2.payload.take 8) / 2 ^ 21
    p.2.srcUnit = 0x10 && p.2.biasWindow = w && decide (first ≤ r) && decide (r < first + count)

/-- BIAS_FLIP_COMPLETE: once no unit access to the regions waits for the host (every other access completes within
its own command), every copy of the table is updated and BUSY clears (R459, R460). -/
def execBiasFlipComplete (s : State) : Out := s.run fun s =>
  .next (match s.link.biasBusy with
    | none => s
    | some (w, dev, first, count) =>
      if s.link.biasPending w first count then s
      else s.modLinkH fun l => { l.setBias w first count dev with biasBusy := none })

/-! ### CXL.mem (R457, R461) -/

/-- A CXL.mem request reaches window `w` at offset `o`: CXL.mem serves, the decoder is committed. -/
def Chip.memReaches (s : Chip) (w o : Nat) : Bool :=
  s.link.cxlServes && (s.link.window w).enable && (s.link.window w).committed &&
    decide (o < (s.link.shape w).size)

/-- A device-bias region is flipped to host bias before it is served (R461). -/
def Chip.autoFlip (s : Chip) (w o : Nat) : Chip :=
  let r := o / 2 ^ 21
  if biasKey w r ∈ s.link.deviceBias then
    s.modLinkH fun l => (l.setBias w r 1 false).setReg Off.HL_BIAS_AUTO (l.reg Off.HL_BIAS_AUTO + 1#64)
  else s

/-- An error of a CXL.mem request: HL_MEM_ERR counts, and the CXL RAS capability reports it (R457). -/
def Chip.memErr (s : Chip) : Chip :=
  s.modLinkH fun l => { l.setReg Off.HL_MEM_ERR (l.reg Off.HL_MEM_ERR + 1#64) with ras := l.ras + 1 }

/-- A CXL.mem request carried to its bay over channel 11 and answered: a read with the line, poisoned when the stack
refuses it or its data is uncorrectable, a write once it has reached the controller, a refused one being discarded. One
lost in the mesh is not answered (R308). The result says
whether it was carried. -/
def Chip.memServe (s : Chip) (r : MemReq) : Chip × Bool :=
  let (b, off) := s.link.winPlace r.win (r.off / 64 * 64)
  let x := s.link.shape r.win
  let s0 := s.autoFlip r.win r.off
  match r.line with
  | none => match (s0.hibRead b x.key x.tint off 64 true).1 with
    | .busy h => (s.waiting h, false)
    | .lost s => (s, true)
    | .refused s => (s.memErr.emit (.memData none), true)
    | .uncorr s => (s.memErr.emit (.memData none), true)
    | .ok s bs => (s.emit (.memData (some bs)), true)
  | some line => match (s0.hibWrite b x.key x.tint off (leBytes 64 line.toNat) true).1 with
    | .busy h => (s.waiting h, false)
    | .lost s => (s, true)
    | .refused s => (s.memErr.emit .memDone, true)
    | .uncorr s => (s.emit .memDone, true)
    | .ok s _ => (s.emit .memDone, true)

/-- Requests are served in their order until one must wait; one whose window serves no longer is dropped. -/
def Chip.memGo : List MemReq → Chip → Chip
  | [], s => s.modLinkH fun l => { l with memReqs := [] }
  | r :: rest, s =>
    if !s.memReaches r.win r.off then Chip.memGo rest s
    else match s.memServe r with
      | (s, true) => Chip.memGo rest s
      | (s, false) => s.modLinkH fun l => { l with memReqs := r :: rest }

/-- A CXL.mem request behind those that wait. -/
def Chip.memRequest (s : Chip) (r : MemReq) : Chip :=
  if !s.memReaches r.win r.off then s else Chip.memGo (s.link.memReqs ++ [r]) s

/-- CXL_MEM_READ (R457): the line at window offset `n`. -/
def execCxlMemRead (win n : Nat) (s : State) : Out := s.run fun s =>
  onUnit (win < 4) (s.memRequest ⟨win, n, none⟩)

/-- CXL_MEM_WRITE (R457): a whole line. -/
def execCxlMemWrite (win n : Nat) (line : BitVec 512) (s : State) : Out := s.run fun s =>
  onUnit (win < 4) (s.memRequest ⟨win, n, some line⟩)

end Sys2Proof.Machine
end

