-- ==== Sys2Proof/Machine/Schedule.lean ====
section
/-! DEFINITION. Steps of a gable (R344 to R353): arming, start, end of an attempt, stall charging,
repeats; starting and stopping the cores of a cluster (R201). -/

namespace Sys2Proof.Machine

open Sys2Proof

/-! ### Cores started and stopped (R125, R126, R201) -/

/-- CL_CORE_CTRL.RUN: a STOPPED core issues at CL_CORE_PC. Its loop levels stay (DEDUCED, log entry 8). -/
def Core.start (c : Core) : Core :=
  if c.run = .stopped then { c with run := .running, cause := .none, wait := .none } else c

/-- CL_CORE_CTRL.STOP: a running core stops with cause HOST. -/
def Chip.hostStop (s : Chip) (cl p : Nat) : Chip :=
  if (s.core cl p).run = .running then s.stopCore cl p .host else s

/-- The physical cores behind logical cores 0 to 127, when the core map is enabled. -/
def Cluster.mappedCores (x : Cluster) : List Nat := if x.mapEn then (List.range 128).map x.pcore else []

/-- CL_START.RUN: every STOPPED logical core starts. -/
def Cluster.startAll (x : Cluster) : Cluster := x.mappedCores.foldl (fun x p => x.modCore p Core.start) x

/-- CL_START.STOP: every RUNNING logical core stops. -/
def Chip.stopAll (s : Chip) (cl : Nat) : Chip := (s.cl cl).mappedCores.foldl (fun s p => s.hostStop cl p) s

/-! ### Windows and stalls (R347, R351, R352) -/

/-- GB_CFG.FREQ in MHz; 0 for an encoding that is refused (R513). -/
def freqMHz : Nat → Nat
  | 0 => 3000 | 1 => 2800 | 2 => 2600 | 3 => 2400 | 4 => 2000 | _ => 0

def Chip.gableFreq (s : Chip) (t : Nat) : Nat := freqMHz (fld (s.reg (.gable t) Off.GB_CFG) 2 3)
/-- GB_CFG.MODE: opportunistic. -/
def Chip.gableOpp (s : Chip) (t : Nat) : Bool := bit (s.reg (.gable t) Off.GB_CFG) 1

/-- The nominal count at instant `ns` at `mhz`. -/
def nominal (ns mhz : Nat) : Nat := ns * mhz / 1000

/-- Intervals in order of their start. -/
def insertIv (x : Nat × Nat) : List (Nat × Nat) → List (Nat × Nat)
  | [] => [x]
  | y :: ys => if x.1 ≤ y.1 then x :: y :: ys else y :: insertIv x ys

def sortIv (l : List (Nat × Nat)) : List (Nat × Nat) := l.foldr insertIv []

/-- Length of the union of ordered intervals beyond `at_`. -/
def unionFrom : Nat → List (Nat × Nat) → Nat
  | _, [] => 0
  | at_, (a, b) :: l => (b - max a at_) + unionFrom (max b at_) l

/-- The raw count of a cause over [lo, hi] (R351). -/
def rawCount (ws : List StallWindow) (c : StallCause) (lo hi mhz : Nat) : Nat :=
  let ivs := (ws.filter fun w => w.cause = c).map fun w =>
    (max lo w.opened.toNat, min hi (match w.closed with | some t => t.toNat | none => hi))
  unionFrom 0 (sortIv ivs) * mhz / 1000

/-- The six causes in the order of R352. -/
def stallOrder : List StallCause := [.preempt, .fault, .thermal, .fabric, .hintmiss, .balance]

/-- Each cause takes the lesser of its raw count and what is left; what is left at the end. -/
def takeStalls : List Nat → Nat → List Nat × Nat
  | [], left => ([], left)
  | r :: rs, left =>
    let m := min r left
    let (l, rest) := takeStalls rs (left - m)
    (m :: l, rest)

/-- The six stalls for raw counts and D > 0 (R352). -/
def chargeStalls (raw : List Nat) (d : Nat) (opp : Bool) : List Nat :=
  let (l, left) := takeStalls raw d
  let at_ := (raw.findIdx? (· > 0)).getD (if opp then 2 else 1)
  l.set at_ (l.getD at_ 0 + left)

/-! ### Conditions of R345 -/

/-- The clusters of a gable that hold a committed logical cluster. -/
def Chip.gableLive (s : Chip) (t : Nat) : List Nat := (s.gableClusters t).filter fun cl => (s.cl cl).lc.isSome

/-- Every logical core of the cluster is STOPPED with DONE. -/
def Cluster.allDone (x : Cluster) : Bool :=
  x.mappedCores.all fun p => (x.core p).run = .stopped && (x.core p).cause = .done

/-- Rings of a unit: four for a DMA engine, one otherwise. -/
def ringsOf (u : Nat) : List Nat := if u < 2 then List.range 4 else [0]

/-- Every ring of the cluster's five units is empty and not parked. -/
def Chip.ringsIdle (s : Chip) (cl : Nat) : Bool :=
  (List.range 5).all fun u => (ringsOf u).all fun q =>
    s.ringHeld cl u q = 0 && (((s.cl cl).engine u).parked q).isNone

/-- No packet of the gable is outstanding under R307: those of its clusters and bays, and those the host bridge and
the eave ports sent under its tint. -/
def Chip.nothingOut (s : Chip) (t : Nat) : Bool :=
  ((s.gableClusters t).all fun cl => (s.router cl).outstanding.isEmpty) &&
    (s.link.outstanding.all fun o => o.tint ≠ t) &&
    (s.eaves.all fun e => e.2.outstanding.all fun o => o.tint ≠ t) &&
    s.link.running.all fun c => c.tint ≠ t || c.waits.isEmpty

def Chip.attemptOver (s : Chip) (t : Nat) : Bool :=
  ((s.gableLive t).all fun cl => (s.cl cl).allDone && s.ringsIdle cl) && s.nothingOut t

/-- Work cycles of every logical core of the gable. -/
def Chip.gableWork (s : Chip) (t : Nat) : Nat :=
  (s.gableLive t).foldl (fun n cl =>
    (s.cl cl).mappedCores.foldl (fun n p => n + ((s.cl cl).core p).work.toNat) n) 0

/-! ### The step registers (R344, R346) -/

/-- A new attempt is armed for instant `v`. -/
def Gable.arm (g : Gable) (v : W) : Gable := { g with step := .armed, stepAt := v }

/-- A write of GB_STEP_START. -/
def Chip.stepStart (s : Chip) (t : Nat) (v : W) : Chip :=
  let g := s.gable t
  if v.toNat < s.now.toNat + 2000 then s.refuse (.gable t) 0x0101 Off.GB_STEP_START
  else if g.step = .armed ∨ g.step = .running then s.refuse (.gable t) 0x0206 Off.GB_STEP_START
  else s.modGable t fun g =>
    { g.arm v with
      firstStart := none, charged := [], errs := [], misses := [], repeats := none
      windows := g.windows.filter fun w => w.closed = none }

/-- The FAULT windows of scale misses close at the end of the attempt (R373). -/
def Gable.closeMisses (g : Gable) (at_ : W) : Gable :=
  { g with windows := g.windows ++ g.misses.map fun m => ⟨.fault, m, some at_⟩, misses := [] }

/-- The window of an attempt that ends in a repeat: BALANCE when its first error was a balance fault,
else FAULT (R351). -/
def Gable.noteRepeat (g : Gable) : Gable :=
  if g.step = .running ∨ g.step = .ended then
    let c : StallCause := match g.errs with | (_, true) :: _ => .balance | _ => .fault
    { g with windows := g.windows ++ [⟨c, g.stepAt, none⟩], repeats := some c, errs := [] }
  else g

/-- A write of GB_STEP_RETRY. -/
def Chip.stepRetry (s : Chip) (t : Nat) (v : W) : Chip :=
  if v.toNat < s.now.toNat + 2000 then s.refuse (.gable t) 0x0101 Off.GB_STEP_RETRY
  else if (s.gable t).step = .idle then s.refuse (.gable t) 0x0206 Off.GB_STEP_RETRY
  else s.modGable t fun g => (g.closeMisses s.now).noteRepeat.arm v

/-- Vmin raises that fell due are applied to the clusters `cls` (R611). -/
def Chip.applyRaises (s : Chip) (cls : List Nat) : Chip :=
  cls.foldl (fun s cl =>
    if (s.cl cl).vminDue = 0 then s
    else s.modCl cl fun x => { x with vminRaises := x.vminRaises + x.vminDue, vminDue := 0 }) s

/-- The step of gable `t` starts: every STOPPED logical core of the gable (R344). -/
def Chip.startStep (s : Chip) (t : Nat) : Chip :=
  let g := s.gable t
  let s := ((s.gableLive t).foldl (fun s cl => s.modCl cl Cluster.startAll) s).applyRaises (s.gableClusters t)
  let s := match g.repeats with | some c => s.closeWindow t c | none => s
  let work := s.gableWork t
  let s := s.modGable t fun g =>
    { g with step := .running, workAt := work, repeats := none
             firstStart := match g.firstStart with | some f => some f | none => some g.stepAt }
  match g.firstStart with
  | some _ => s
  | none => s.setReg (.gable t) Off.GB_STEP_T_START g.stepAt

/-- The armed instant of the gable's step has come. -/
def Chip.stepDue (s : Chip) (t : Nat) : Bool :=
  decide ((s.gable t).step = .armed) && decide ((s.gable t).stepAt.toNat ≤ s.now.toNat)

/-- STEP_START_INSTANT (R344, R512): every STOPPED logical core of the gable starts. During a save, while
DORMANT or during a restore they start at the end of the restore (`Chip.restoreOver`). -/
def execStepStartInstant (t : Nat) (s : State) : Out := s.run fun s =>
  onUnit (1 ≤ t && t ≤ 64)
    (if !s.stepDue t || s.preempted t then s else s.startStep t)

/-- A total changed by the difference of a step's final value and the value added before (R346). -/
def addDiff (total new old : Nat) : Nat := (total + new + 2 ^ 64 - old % 2 ^ 64) % 2 ^ 64

/-- The meter's step-end counts (R353, R514): `vals` are ELAPSED, REPORT, the six stalls and WORK of the
step; `old` what an earlier end of it added. -/
def Meter.addStep (m : Meter) (first : Bool) (vals old : List Nat) : Meter :=
  let d (i total : Nat) : Nat := addDiff total (vals.getD i 0) (old.getD i 0)
  { m with
    steps := m.steps + b2n first
    elapsed := d 0 m.elapsed
    report := d 1 m.report
    stalls := (List.range 6).map fun i => d (i + 2) (m.stalls.getD i 0)
    work := d 8 m.work }

/-- ATTEMPT_END (R345 to R353). The errors of the attempt are kept: a later RETRY makes it one that ends in a repeat,
whose cause its first error decides, and which has no window of its errors (R346, R351). -/
def execAttemptEnd (t : Nat) (s : State) : Out := s.run fun s =>
  onUnit (1 ≤ t && t ≤ 64)
    (let g := (s.gable t).closeMisses s.now
     if g.step ≠ .running || !s.attemptOver t then s
     else
       let pg := PageRef.gable t
       let f := s.gableFreq t
       let t0 := (g.firstStart.getD g.stepAt).toNat
       let t1 := s.now.toNat
       let ws := g.windows ++ g.errs.map fun e => ⟨.fault, e.1, some s.now⟩
       let elapsed := nominal t1 f - nominal t0 f
       let report := (s.reg pg Off.GB_STEP_REPORT).toNat
       let raw := stallOrder.map fun c => rawCount ws c t0 t1 f
       let stalls := if elapsed ≤ report then [0, 0, 0, 0, 0, 0] else chargeStalls raw (elapsed - report) (s.gableOpp t)
       let vals := [elapsed, report] ++ stalls ++ [s.gableWork t - g.workAt]
       let s := s.modGable t fun g => { g with
         step := .ended, charged := vals, windows := (g.closeMisses s.now).windows, misses := [] }
       let s := s.metered t fun m => m.addStep g.charged.isEmpty vals g.charged
       let s := (s.setReg pg Off.GB_STEP_ELAPSED (BitVec.ofNat 64 elapsed)).setReg pg Off.GB_STEP_T_END s.now
       let s := s.setReg pg Off.GB_STEP_DELTA (BitVec.ofInt 64 ((elapsed : Int) - report))
       let s := stalls.zipIdx.foldl (fun s x =>
         s.setReg pg (Off.GB_STALL_PREEMPT + 8 * x.2) (BitVec.ofNat 64 x.1)) s
       s.signal t 0)

end Sys2Proof.Machine
end

