-- ==== Sys2Proof/Machine/Power.lean ====
section
/-! DEFINITION. Power, capping and heat (R520 to R542): estimates and measurements, calibration, the cap
check, opportunistic clocks, arming and rises, stretching, latching, the states of bays. Powers are in
1/16 W and estimates in 1/65,536 W, so that the gains in 1/4,096 stay exact. A command that stands for the work of
a window or a period judges what the windows reported so far hold (log entry 19). -/

namespace Sys2Proof.Machine

open Sys2Proof

/-! ### Estimates (R522 to R525) -/

/-- g M + o in 1/65,536 W. -/
def Bay.fitted (x : Bay) (m : Nat) : Int := (x.gain * m : Nat) + 4096 * x.offset

/-- Measured power less g M + o over a 10 us window, in 1/655,360 W (R524). -/
def Bay.residual (x : Bay) (w : MeasWindow) : Int :=
  40960 * ((w.meas : Int) - x.offset) - (x.gain * w.model : Nat)

/-- The corrected estimate of a bay: r is the mean difference over the last ten windows (R524). -/
def Bay.estimate (x : Bay) : Int :=
  let ws := x.windows.take 10
  x.fitted x.model + ws.foldl (fun a w => a + x.residual w) 0 / (10 * max 1 ws.length : Nat)

/-- The bays of a gable that carry its tint: those lent to another gable count there (R505, R514). -/
def Chip.heldBays (s : Chip) (t : Nat) : List Nat := (s.gableBays t).filter fun b => (s.bay b).tint = t

/-- The corrected estimate of a gable. -/
def Chip.gableEst (s : Chip) (t : Nat) : Int := (s.heldBays t).foldl (fun a b => a + (s.bay b).estimate) 0

/-- The number of the 1 us window that ended last. -/
def Chip.lastWindow (s : Chip) : Nat := s.now.toNat / 1000 - 1

/-- The gable's corrected estimate of window `w` is `v`. -/
def Gable.noteEst (g : Gable) (w : Nat) (v : Int) : Gable :=
  { g with ests := ((w, v) :: g.ests.filter fun x => x.1 ≠ w).take 128 }

/-- Vmin(f) of a cluster in mV: the wafer record's, raised (R520, R555, R611). -/
def Chip.vmin (s : Chip) (cl step : Nat) : Nat :=
  SMap.get 0 s.bringup.record.vmin (32 * cl + step) + 10 * (s.cl cl).vminRaises

/-- The record's step of a frequency: 50 MHz above 2.00 GHz. -/
def freqStep (f : Nat) : Nat := (f - 2000) / 50

/-- The voltage a cluster needs to run at `f`, in mV (R520). -/
def Chip.runVolts (s : Chip) (cl f : Nat) : Nat := s.vmin cl (freqStep f) + 60

/-- The cluster can run at `f` (R520). -/
def Chip.canRun (s : Chip) (cl f : Nat) : Bool := decide (s.runVolts cl f ≤ 850)

/-- The voltage of a cluster in mV: Vmin(f) + 60 while its bay is Lit, 550 while it is Shaded, none in another state
(R520, R538). -/
def Chip.volts (s : Chip) (cl : Nat) : Nat :=
  if !s.powered then 0
  else match (s.bay (clBay cl)).power with
    | .lit => s.runVolts cl (s.cl cl).freq
    | .shaded => 550
    | _ => 0

/-- The activity counters of a cluster (R522): by its number, what each counts since reset. Numbers 0 to 255 are
tensor-multiplier occupancy cycles by operand formats; 256 bank accesses, 257 special-function firings, 258 flits. -/
def Chip.activity (s : Chip) (cl : Nat) : List (Nat × Nat) :=
  let x := s.cl cl
  x.tensorCyc ++ [(256, (s.reg (.cluster cl) Off.CL_STORE_ACC).toNat), (257, x.sfuFires),
    (258, (s.reg (.cluster cl) Off.CL_RT_FLITS).toNat)]

/-- The counters of bay `b`: of its clusters, at key `1024 × counter + cluster of the bay`, and of its stack, lines read
(259) and written (260). -/
def Chip.bayActivity (s : Chip) (b : Nat) : List (Nat × Nat) :=
  (bayClusters b).zipIdx.flatMap (fun p => (s.activity p.1).map fun a => (1024 * a.1 + p.2, a.2)) ++
    [(1024 * 259, (s.reg (.baymem b) Off.BM_READ_BYTES).toNat / 64), (1024 * 260, (s.reg (.baymem b) Off.BM_WRITE_BYTES).toNat / 64)]

/-- M(b) in 1/16 W (R522): what each counter has moved since the window before, weighted by its energy coefficient at
the cluster's frequency and voltage, and the leakage of each cluster at its voltage and the temperature `temp`. The
coefficients are in the wafer record; the sum rounds down (log entry 19). -/
def Chip.modelPower (s : Chip) (b temp : Nat) : Nat :=
  let seen := (s.bay b).actSeen
  let cls := bayClusters b
  let coeff (k : Nat) : Nat :=
    let cl := cls.getD (k % 1024) 0
    Config.energyCoeff b (k / 1024) (s.cl cl).freq (s.volts cl)
  let dyn := (s.bayActivity b).foldl (fun a p => a + (p.2 + 2 ^ 64 - SMap.get 0 seen p.1) % 2 ^ 64 * coeff p.1) 0
  dyn / 65536 + cls.foldl (fun a cl => a + Config.leakage b (s.volts cl) temp) 0

/-- The bay's 1 us window number `w` had the model value `m`, with its counters at `seen`; a fit that applies from this
window on takes effect (R525). -/
def Bay.modelled (x : Bay) (w m : Nat) (seen : SMap Nat) : Bay :=
  let x := match x.nextFit with
    | some (from_, g, o) => if from_ ≤ w then { x with gain := g, offset := o, nextFit := none } else x
    | none => x
  { x with model := m, models := ((w, m) :: x.models.filter fun p => p.1 ≠ w).take 1024, actSeen := seen }

/-- ESTIMATE_WINDOW (R522): bay `b` forms its model value for the 1 us window that has ended, at temperature `n` in
1/8 °C. The estimate counts in the meter period of the tint that holds the bay, and in its gable's estimate of the
window. -/
def execEstimateWindow (b n : Nat) (s : State) : Out := s.run fun s =>
  onUnit (b < 336)
    (if !s.bayOk b then s
     else
       let m := s.modelPower b n
       let seen := (s.bayActivity b).foldl (fun a p => SMap.set 0 a p.1 p.2) []
       let s := s.modBay b fun x => x.modelled s.lastWindow m seen
       let t := (s.bay b).tint
       let e := (s.bay b).estimate.toNat
       let s := if t = 0 then s else s.modGable t fun g => g.noteEst s.lastWindow (s.gableEst t)
       s.metered t fun m => { m with energyEst := m.energyEst + e })

/-- Measured power in the window `w` of the bays that carry a tint. -/
def Chip.gableMeasured (s : Chip) (t w : Nat) : Nat :=
  (List.range 336).foldl (fun a b =>
    let x := s.bay b
    if x.tint = t && x.supplied && x.measuredIn = w then a + x.measured else a) 0

/-- M over the 10 us window number `w` in 1/160 W: its ten model values summed; the mean of those reported stands for one
that was not, and with none the last holds (log entry 19). -/
def Bay.windowModel (x : Bay) (w : Nat) : Nat :=
  let ms := (x.models.filter fun p => p.1 / 10 = w).map (·.2)
  if ms.isEmpty then 10 * x.model else ms.foldl (· + ·) 0 * 10 / ms.length

/-- The bay's 10 us window number `w` measured `n`. -/
def Bay.measure (x : Bay) (w n : Nat) : Bay :=
  { x with measured := n, measuredIn := w, windows := (⟨w, n, x.windowModel w⟩ :: x.windows).take 10000 }

/-- MEASUREMENT_WINDOW (R523, R514): `n` is the measured power of a 10 us window, `m` the windows that have begun since
it ended. Energy and peak go to the tint that holds the bay's clusters, tint 0 when no gable does. -/
def execMeasurementWindow (b n m : Nat) (s : State) : Out := s.run fun s =>
  onUnit (b < 336)
    (if !s.bayOk b then s
     else
       let w := s.now.toNat / 10000 - m
       let s := s.modBay b fun x => x.measure w n
       let t := (s.bay b).tint
       let sum := s.gableMeasured t w
       s.metered t fun m => { m with energyMeas := m.energyMeas + 10 * n, peak := max m.peak (sum / 16) })

/-- Sums of least squares over windows, x the model value and y the measured power in 1/160 W: Σx, Σy, Σxx, Σxy. -/
def fitSums (ws : List MeasWindow) : Nat × Nat × Nat × Nat :=
  ws.foldl (fun a w =>
    (a.1 + w.model, a.2.1 + 10 * w.meas, a.2.2.1 + w.model * w.model, a.2.2.2 + w.model * (10 * w.meas))) (0, 0, 0, 0)

/-- The spread of M is at least 2 % of its mean: the difference of the extremes (log entry 19). -/
def spreadOk (ws : List MeasWindow) : Bool :=
  let ms := ws.map (·.model)
  decide (2 * (fitSums ws).1 ≤ (ms.foldl max 0 - ms.foldl min (ms.headD 0)) * 100 * ws.length)

/-- Gain and offset fitted to windows, rounded down; none where the fit is undetermined or the gain lies outside
[0.8, 1.25] (R525). -/
def fit (ws : List MeasWindow) : Option (Nat × Int) :=
  let n := ws.length
  let (sx, sy, sxx, sxy) := fitSums ws
  let den : Int := (n * sxx : Nat) - (sx * sx : Nat)
  let num : Int := (n * sxy : Nat) - (sx * sy : Nat)
  let gain := 4096 * num / den
  if !spreadOk ws || den ≤ 0 || 5 * num < 4 * den || 4 * num > 5 * den then none
  else some (gain.toNat, ((sy : Int) * 4096 - gain * sx) / (40960 * n : Nat))

/-- Windows of 100 ms (R525). -/
def fitSize : Nat := 10000

/-- The windows of the last 100 ms: those reported, and those that no command reported, by their measured powers `ns`
and model sums `ms` in 1/160 W (log entry 19). -/
def Chip.fitWindows (s : Chip) (b : Nat) (ns ms : List Nat) : List MeasWindow :=
  let w := s.now.toNat / 10000
  (((s.bay b).windows.filter fun x => decide (w ≤ x.win + 10000)) ++ List.zipWith (MeasWindow.mk w) ns ms).take fitSize

/-- CALIBRATION_FIT (R525): the field controller's fit over the 10,000 windows of the last 100 ms gives the gain and the
offset of the windows from the next on, or is rejected. Without all of them there is no fit (log entry 19). -/
def execCalibrationFit (b : Nat) (ns ms : List Nat) (s : State) : Out := s.run fun s =>
  onUnit (b < 336)
    (let ws := s.fitWindows b ns ms
     if !s.bayOk b || (s.dispatcher (bayField b)).isNone || ws.length < fitSize then s
     else match fit ws with
       | some (g, o) => s.modBay b fun x => { x with nextFit := some (s.now.toNat / 1000 + 1, g, o) }
       | none => (s.count .power Off.PW_CAL_REJECT 1).raise .power 4)

/-! ### The cap (R526 to R528) -/

/-- Bays that lie in some enabled gable's corridor. -/
def Chip.inCorridor (s : Chip) (b : Nat) : Bool :=
  s.gables.any fun p => p.2.page.enable && s.maskBit (.gable p.1) (Off.GB_CORR 0) b

/-- A bay of tint 0. -/
def Chip.freeBay (s : Chip) (b : Nat) : Bool := (s.bay b).tint = 0

/-- Tint 0's allotment in tenths of a watt when the bays `free` belong to it and those of `corr` lie in a corridor. -/
def t0Of (free corr : Nat → Bool) : Nat :=
  1000 + (List.range 336).foldl (fun a b => if !free b then a else a + (if corr b then 300 else 11)) 0

/-- T0_ALLOT in tenths of a watt (R526). -/
def Chip.t0Allot (s : Chip) : Nat := t0Of s.freeBay s.inCorridor

/-- T0_ALLOT as it is with gable `t` enabled: its bays leave tint 0, and its corridor counts. -/
def Chip.t0With (s : Chip) (t : Nat) : Nat :=
  t0Of (fun b => s.freeBay b && !s.maskBit (.gable t) (Off.GB_BAYS 0) b)
    fun b => s.inCorridor b || s.maskBit (.gable t) (Off.GB_CORR 0) b

/-- A gable enabled and not DORMANT (R513). -/
def Gable.active (g : Gable) : Bool := g.page.enable && !g.dormant

/-- Allotment in force (R508). -/
def Chip.allot (s : Chip) (t : Nat) : Nat := fld (s.reg (.gable t) Off.GB_ALLOT) 0 16

/-- Allotments of the ACTIVE gables other than `t`. -/
def Chip.allotSum (s : Chip) (t : Nat) : Nat :=
  s.gables.foldl (fun a p => if p.1 ≠ t && p.2.active then a + s.allot p.1 else a) 0

/-- The allotments would sum above 34,000 W with `w` watts for gable `t` (R501). -/
def Chip.capOver (s : Chip) (t w : Nat) : Bool := decide (10 * (s.allotSum t + w) + s.t0With t > 340000)

/-- NEED of gable `t` over `bays`, in 1/2^24 W (R527): 256 times 1/65,536 W. -/
def Chip.needOf (s : Chip) (t : Nat) (bays : List Nat) : Int :=
  let g := s.gable t
  let f := s.gableFreq t
  bays.foldl (fun (a : Int) b =>
    let x := s.bay b
    let raises := (bayClusters b).map fun cl => (s.cl cl).vminRaises
    let p : Nat :=
      if s.gableOpp t then 256 * Config.staticPower b 2000 raises
      else 256 * Config.staticPower b f raises + g.ceil * Config.dynamicPower b f
    a + ((x.gain * p : Nat) : Int) + 256 * 4096 * x.offset) 0

/-- 0x0602 of R528 for allotment `w` over `bays`. -/
def Chip.needFails (s : Chip) (t w : Nat) (bays : List Nat) : Bool :=
  decide ((w : Int) * 2 ^ 24 < s.needOf t bays)

/-- 0x0602: a cluster of the bays cannot run at the fixed frequency. -/
def Chip.freqFails (s : Chip) (t : Nat) (bays : List Nat) : Bool :=
  !s.gableOpp t && (bays.flatMap bayClusters).any fun cl =>
    !(s.cl cl).hole && !(s.cl cl).unusable && !s.canRun cl (s.gableFreq t)

/-! ### States of bays (R538, R539) -/

/-- A bay is Lit for an ACTIVE gable that holds it, or as a tint 0 bay of a corridor; none while the coolant inlet is
above 40 °C (R537). -/
def Chip.wantsLit (s : Chip) (b : Nat) : Bool :=
  let t := (s.bay b).tint
  if s.module.inlet.getD 0 > 4000 then false
  else if t = 0 then s.inCorridor b else (s.gable t).active

/-- Every supplied bay takes the state its ownership gives it. -/
def Chip.lightBays (s : Chip) : Chip :=
  { s with bays := SMap.mapVals {} s.bays fun b x =>
      if x.supplied then { x with power := if s.wantsLit b then .lit else .shaded } else x }

/-! ### Clocks (R529, R530) -/

/-- The highest frequency of R530 at which a cluster can run; 0, its clock stopped, where it can run at none (DESIGN
CHOICE, log entry 19). -/
def Chip.topFreq (s : Chip) (cl : Nat) : Nat :=
  match (List.range 27).reverse.find? fun k => s.canRun cl (2000 + 50 * k) with
  | some k => 2000 + 50 * k
  | none => 0

/-- The clocks of the clusters that carry a gable's tint: FREQ in fixed mode, the target or what the cluster can run in
the other. A bay lent to another gable follows that one (R287, R505). -/
def Chip.setClocks (s : Chip) (t : Nat) : Chip :=
  let g := s.gable t
  let opp := s.gableOpp t
  let f := s.gableFreq t
  ((s.gableClusters t).filter fun cl => s.clTint cl = t).foldl (fun s cl =>
    let v := if opp then min g.target (s.topFreq cl) else f
    s.modCl cl fun x => { x with freq := v }) s

/-- Hints of a gable whose due time lies in the next 10 us: their LEARN values (R530). -/
def Chip.learnSum (s : Chip) (t : Nat) : Int :=
  let g := s.gable t
  let soon (due : Nat) : Bool := decide (s.now.toNat ≤ due) && decide (due ≤ s.now.toNat + 10000)
  (s.gableClusters t).foldl (fun a cl =>
    let x := s.cl cl
    let tags := (x.hints.filter fun h => soon (h.stamp.toNat + h.lead)).map (·.tag) ++
      (x.dueHints.filter fun h => soon h.2.toNat).map (·.1)
    tags.foldl (fun a k => a + SMap.get 0 g.learn (k % 1024)) a) 0

/-- OPPORTUNISTIC_CONTROL (R530), once per 1 us window; the windows of calm are consecutive. -/
def execOpportunisticControl (t : Nat) (s : State) : Out := s.run fun s =>
  onUnit (1 ≤ t && t ≤ 64)
    (let g := s.gable t
     let w := s.now.toNat / 1000
     if !g.active || !s.gableOpp t || g.oppWin = w + 1 then s
     else
       let a : Int := s.allot t * 65536
       let f := s.gableEst t + s.learnSum t
       let calm := if 100 * f ≤ 95 * a then (if g.oppWin = w then g.calm + 1 else 1) else 0
       let (target, calm) :=
         if f > a then (max 2000 (g.target - 50), 0)
         else if calm ≥ 20 then (min 3300 (g.target + 50), calm)
         else (g.target, calm)
       (s.modGable t fun g => { g with target, calm, oppWin := w + 1 }).setClocks t)

/-- Q of R531: the gable's estimate in the window before `due`. Where no command reported that one it is `n`, and
without it the last one reported before (log entry 19). -/
def Chip.learnQ (s : Chip) (t due : Nat) (n : Option Int) : Int :=
  let es := (s.gable t).ests
  match es.find? fun x => x.1 + 1 = due / 1000 with
  | some x => x.2
  | none => n.getD (((es.find? fun x => x.1 < due / 1000).map (·.2)).getD (s.gableEst t))

/-- H of R531: the highest estimate of the windows in the 20 us after `due`, those reported and the others `m`; the
estimate before them holds where there is none. -/
def Chip.learnH (s : Chip) (t due : Nat) (n : Option Int) (m : List Int) : Int :=
  match ((s.gable t).ests.filter fun x => due / 1000 ≤ x.1 && decide (x.1 * 1000 < due + 20000)).map (·.2) ++ m with
  | [] => s.learnQ t due n
  | v :: l => l.foldl max v

/-- LEARN_UPDATE (R531): 20 us after a due time of tag `k`; `n` and `m` are estimates in 1/65,536 W of windows that no
command reported. The quotient rounds down (log entry 19). -/
def execLearnUpdate (t k : Nat) (n : Option Int) (m : List Int) (s : State) : Out := s.run fun s =>
  onUnit (1 ≤ t && t ≤ 64)
    (let here (p : Nat × W) : Bool := p.1 = k && decide (p.2.toNat + 20000 ≤ s.now.toNat)
     match (s.gableClusters t).find? fun cl => (s.cl cl).dueHints.any here with
     | none => s
     | some cl =>
       match (s.cl cl).dueHints.find? here with
       | none => s
       | some p =>
         let s := s.modCl cl fun x => { x with dueHints := x.dueHints.eraseP here }
         if !(s.gable t).active then s
         else s.modGable t fun g =>
           let v := SMap.get 0 g.learn (k % 1024)
           { g with learn := SMap.set 0 g.learn (k % 1024) (v + (s.learnH t p.2.toNat n m - s.learnQ t p.2.toNat n - v) / 4) })

/-! ### Arming (R532, R533) -/

/-- Due time of a hint. -/
def Hint.due (h : Hint) : Nat := h.stamp.toNat + h.lead

/-- ARMING_START (R532): the due time of a hint of one of the bay's clusters is 800 ns away or nearer. -/
def execArmingStart (b : Nat) (s : State) : Out := s.run fun s =>
  onUnit (b < 336)
    (let ready (cl : Nat) (h : Hint) : Bool := decide (h.due ≤ (s.clTime cl).toNat + 800)
     match (bayClusters b).find? fun cl => (s.cl cl).hints.any (ready cl) with
     | none => s
     | some cl =>
       match (s.cl cl).hints.find? (ready cl) with
       | none => s
       | some h =>
         let s := s.modCl cl fun x => { x with
           hints := x.hints.erase h
           dueHints := x.dueHints ++ [(h.tag, BitVec.ofNat 64 h.due)] }
         if (s.bay b).armed then s else s.modBay b fun x => x.arm s.now)

/-- ARMING_COMPLETE (R532, R533): 800 ns after the arming started. -/
def execArmingComplete (b : Nat) (s : State) : Out := s.run fun s =>
  onUnit (b < 336)
    (if !(s.bay b).arming || decide ((s.now - (s.bay b).armingAt).toNat < 800) then s
     else
       let s := s.modBay b fun x => { x with arming := false, armed := true, armedAt := s.now }
       (bayClusters b).foldl (fun s cl => s.releaseRises cl) s)

/-- A multiplier of the cluster is occupied, or was within 10 us. -/
def Chip.busyLately (s : Chip) (cl : Nat) : Bool :=
  let x := s.cl cl
  (x.cores.any fun p => p.2.occ > 0) ||
    match x.lastBusy with
    | some t => decide ((s.now - t).toNat < 10000)
    | none => false

/-- DISARM (R532). -/
def execDisarm (b : Nat) (s : State) : Out := s.run fun s =>
  onUnit (b < 336)
    (let x := s.bay b
     if !x.armed || decide ((s.now - x.armedAt).toNat < 10000) || (bayClusters b).any s.busyLately then s
     else s.modBay b fun x => { x with armed := false })

/-! ### Stretching (R534) -/

/-- The stretch level in force: the highest of the cluster's own, its bay's and its gable's. -/
def Chip.level (s : Chip) (cl : Nat) : Nat :=
  let b := s.bay (clBay cl)
  max (s.cl cl).stretch (max b.level (if b.tint = 0 then 0 else (s.gable b.tint).odLevel))

/-- A change of levels or of tints over `cls`: a THERMAL window of its gable opens for each cluster that begins to
stretch and closes for each that ends, or that goes to another gable (R351, R534). -/
def Chip.stretchWith (s : Chip) (cls : List Nat) (f : Chip → Chip) : Chip :=
  let s' := f s
  cls.foldl (fun s1 cl =>
    let was := decide (s.level cl > 0)
    let is_ := decide (s'.level cl > 0)
    let moved := decide (s.clTint cl ≠ s'.clTint cl)
    let s1 := if was && (!is_ || moved) then s1.closeWindow (s.clTint cl) .thermal else s1
    if is_ && (!was || moved) then s1.openWindow (s'.clTint cl) .thermal else s1) s'

/-- THERMAL_TRIP: sensor reading `n` (1/8 °C) of 105 °C or more. -/
def execThermalTrip (cl n : Nat) (s : State) : Out := s.run fun s =>
  onUnit (cl < 4032)
    (if n < 840 || !s.bayOk (clBay cl) then s
     else
       let s := s.count .power Off.PW_TRIPS 1
       s.stretchWith [cl] fun s =>
         (s.modCl cl fun x => { x with temp := n, stretch := max x.stretch 4 }).modBay (clBay cl) fun x =>
           { x with trip := true, hotAt := s.now })

/-- The highest level of the bay's clusters. -/
def Chip.topStretch (s : Chip) (b : Nat) : Nat := (bayClusters b).foldl (fun a cl => max a (s.cl cl).stretch) 0

/-- THERMAL_ESCALATE, by the field controller: the bay takes its highest level; then it rises by 1 every 100 us while a sensor reads 100 °C or
more. -/
def execThermalEscalate (b : Nat) (s : State) : Out := s.run fun s =>
  onUnit (b < 336)
    (let cls := bayClusters b
     let top := s.topStretch b
     let hot := cls.any fun cl => (s.cl cl).temp ≥ 800
     let x := s.bay b
     let lv := x.level
     if !s.guarded (bayField b) then s
     else if lv < top then s.stretchWith cls fun s => s.modBay b fun x => { x with level := top, levelAt := s.now }
     else if lv = 0 || !hot || decide ((s.now - x.levelAt).toNat < 100000) then s
     else s.stretchWith cls fun s => s.modBay b fun x => { x with level := min 7 (lv + 1), levelAt := s.now })

/-- The twelve sensors of bay `b` read `ns`. -/
def Chip.readSensors (s : Chip) (b : Nat) (ns : List Nat) : Chip :=
  let s := (List.zip (bayClusters b) ns).foldl (fun s p => s.modCl p.1 fun x => { x with temp := p.2 }) s
  s.modBay b fun x => { x with trip := ns.any (· ≥ 840), hotAt := if ns.any (· ≥ 760) then s.now else x.hotAt }

/-- The gable's estimate has been at or below 0.97 of its allotment for 100 us. -/
def Chip.drawLow (s : Chip) (t : Nat) : Bool :=
  let low (v : Int) : Bool := decide (100 * v ≤ 97 * (s.allot t * 65536 : Nat))
  low (s.gableEst t) && (s.gable t).ests.all fun x => low x.2 || decide (x.1 * 1000 + 101000 ≤ s.now.toNat)

/-- THERMAL_RELEASE: with twelve readings `ns`, the bay's sensors read them, and once every one has read below 95 °C
for 1 ms the field controller lets the bay's level fall by 1 per ms; with none, the level of the gable that holds the bay falls by 1 per 100 us
once its estimate has been low for 100 us. -/
def execThermalRelease (b : Nat) (ns : List Nat) (s : State) : Out := s.run fun s =>
  onUnit (b < 336)
    (let cls := bayClusters b
     let t := (s.bay b).tint
     if ns.length = 12 then
       let s := s.readSensors b ns
       let x := s.bay b
       if !s.guarded (bayField b) || decide ((s.now - x.hotAt).toNat < 1000000) || decide ((s.now - x.levelAt).toNat < 1000000) then s
       else s.stretchWith cls fun s =>
         let lv := max x.level (s.topStretch b)
         let s := cls.foldl (fun s cl => s.modCl cl fun x => { x with stretch := 0 }) s
         s.modBay b fun x => { x with level := lv - 1, levelAt := s.now }
     else if ns.isEmpty && t ≠ 0 && s.drawLow t && decide (100000 ≤ (s.now - (s.gable t).odAt).toNat) then
       s.stretchWith (s.gableClusters t) fun s => s.modGable t fun g =>
         { g with odLevel := g.odLevel - 1, overdraw := decide (g.odLevel > 1), odAt := s.now }
     else s)

/-- OVERDRAW (R534): one 1 us window of the gable is judged; from the eighth in a row above the allotment, and while
the emergency lasts, every cluster of the gable rises by one level a window. -/
def execOverdraw (t : Nat) (s : State) : Out := s.run fun s =>
  onUnit (1 ≤ t && t ≤ 64)
    (let g := s.gable t
     let w := s.now.toNat / 1000
     let above := decide (s.gableEst t > (s.allot t * 65536 : Nat)) && (!s.gableOpp t || g.target = 2000)
     if !g.active || g.odWin = w + 1 then s
     else
       let n := if !above then 0 else if g.odWin = w then g.overWin + 1 else 1
       let s := s.modGable t fun g => { g with overWin := n, odWin := w + 1 }
       if !above || (n < 8 && !g.overdraw) then s
       else
         let s := if g.overdraw then s else (s.count .power Off.PW_OVERDRAWS 1).raise .power 5
         s.stretchWith (s.gableClusters t) fun s => s.modGable t fun g =>
           { g with overdraw := true, odLevel := min 7 (g.odLevel + 1), odAt := s.now })

/-! ### Usable clusters (R546, R495, R615) -/

/-- Physical core `p` is dead (CL_CORE_DEAD). -/
def Cluster.coreDead (x : Cluster) (p : Nat) : Bool := bit (x.page.reg .cluster (Off.CL_CORE_DEAD0 + 8 * (p / 64))) (p % 64)

/-- Cluster `cl` is marked unusable: in the record or since, as a hole, or in a bay not yet tested (R570). -/
def Chip.clUnusable (s : Chip) (cl : Nat) : Bool :=
  (s.cl cl).unusable || (s.cl cl).hole || (s.bay (clBay cl)).untested

/-- Physical cores of a cluster that are not dead. -/
def Cluster.liveCores (x : Cluster) : Nat := ((List.range 136).filter fun p => !x.coreDead p).length

/-- A cluster is usable: its bay supplied and tested, itself not marked, at least 128 of its cores alive. -/
def Chip.usable (s : Chip) (cl : Nat) : Bool :=
  s.bayOk (clBay cl) && !s.clUnusable cl && decide ((s.cl cl).liveCores ≥ 128)

def Chip.usableCount (s : Chip) : Nat := ((List.range 4032).filter s.usable).length

/-- Logical clusters committed. -/
def Chip.commits (s : Chip) : Nat := s.committed.length

/-- DEV_POPULATED.SPARE_CLUSTERS. -/
def Chip.spareClusters (s : Chip) : Nat :=
  ((List.range 4032).filter fun cl => s.usable cl && (s.cl cl).lc.isNone).length

/-- DEV FAULT_CAUSE.GRADE_SHORT (R615). -/
def Chip.gradeShort (s : Chip) : Bool := decide (s.commits + s.spareClusters < s.bringup.record.grade)

/-- GRADE_SHORT became 1: IRQ_STATUS of the DEV page shows it. `was` is what it read before. -/
def Chip.gradeChange (was : Bool) (s : Chip) : Chip :=
  { s with dev := { s.dev with irqStat := if !was && s.gradeShort then setBit s.dev.irqStat 3 else s.dev.irqStat } }

/-! ### Latching (R28, R535, R536) -/

/-- The links from outside into bay `b`: neighbouring cluster and its port. -/
def bayLinks (b : Nat) : List (Nat × Nat) :=
  (bayClusters b).flatMap fun cl => (List.range 8).filterMap fun p =>
    match neighbour cl p with
    | some nb => if clBay nb = b then none else some (nb, oppPort p)
    | none => none

/-- Tints a latch is reported to: the gable that holds the bay, and those whose corridor passes through it. -/
def Chip.latchTints (s : Chip) (b : Nat) : List Nat :=
  ((s.bay b).tint :: ((s.gables.filter fun p => p.2.page.enable && s.maskBit (.gable p.1) (Off.GB_CORR 0) b).map (·.1))).dedup

/-- BAY_LATCH set on the POWER page, with a CONTAINED report for each tint concerned, also where an earlier latch has set
the bit (R535). -/
def Chip.reportLatch (s : Chip) (b : Nat) : Chip :=
  let was := bit s.powerPage.fault 0
  match s.latchTints b with
  | [] => s
  | t :: ts =>
    let s := s.raiseWith .power 0 (some .contained) 0 t false
    (if was then t :: ts else ts).foldl (fun s t => s.modPage .power fun p =>
      { p with reports := p.reports ++ [{ bit := 0, cls := .contained, time := s.now, tint := t }] }) s

/-- What a cluster keeps when its supply goes: where it is committed, the marks of it and of its cores, its clock's lock. -/
def Cluster.dark (x : Cluster) : Cluster :=
  { page := { regs := x.page.regs.filter fun p => 0x688 ≤ p.1 && p.1 ≤ 0x698 }
    lc := x.lc, unusable := x.unusable, hole := x.hole, locked := x.locked, freq := x.freq, vminRaises := x.vminRaises, vminDue := x.vminDue
    ctu := { phase := if x.ctu.phase = .none then .none else .failed } }

/-- The stage tile of bay `b` latches off: its clusters, stack, controller and walker stop and lose what
they hold, and its links are OUT at the neighbouring routers. -/
def Chip.latchOff (s : Chip) (b cause : Nat) : Chip :=
  if !(s.bay b).supplied || !s.powered then s
  else
    let again := match (s.bay b).relitAt with
      | some t => decide ((s.now - t).toNat ≤ 1000000000)
      | none => false
    let s := s.stretchWith (bayClusters b) fun s =>
      let s := (bayClusters b).foldl (fun s cl => (s.releaseRises cl).modCl cl Cluster.dark) s
      s.modBay b fun x => {
        power := if again then .latchedHard else .latched
        latchCause := cause, relitAt := x.relitAt, untested := x.untested, tint := x.tint
        retired := x.retired, gain := x.gain, offset := x.offset }
    let s := (bayClusters b).foldl Chip.chipletOff ((bayLinks b).foldl (fun s p => s.endOut p.1 p.2) s)
    s.reportLatch b

/-- Bay `b` belongs to an enabled gable, DORMANT or not. -/
def Chip.bayHeld (s : Chip) (b : Nat) : Bool :=
  s.gables.any fun p => p.2.page.enable && s.maskBit (.gable p.1) (Off.GB_BAYS 0) b

/-- A write of PW_BAY_CMD (R536): a latched bay comes up Shaded and UNTESTED, and Lit when it lies in a corridor
(R539). -/
def Chip.relightWrite (s : Chip) (v : W) : Chip :=
  let b := fld (s.reg .power Off.PW_BSEL) 0 9
  let x := s.bay b
  if !bit v 0 || b ≥ 336 then s
  else if s.bayHeld b then s.refuse .power 0x0201 Off.PW_BAY_CMD
  else if x.power ≠ .latched ∧ x.power ≠ .latchedHard then s.refuse .power 0x0301 Off.PW_BAY_CMD
  else if x.power = .latchedHard then s.refuse .power 0x0501 Off.PW_BAY_CMD
  else
    let s := s.modBay b fun x => { x with power := .shaded, latchCause := 0, relitAt := some s.now, untested := true }
    ((bayClusters b).foldl (fun s cl => s.modRouter cl fun r => { r with up := bit s.bringup.done 6 && !(s.cl cl).hole }) s).lightBays

/-! ### Coolant and input (R537) -/

/-- INLET_SAMPLE: `n` in 0.01 °C. In Dark only the wake comparators see it (R540). -/
def execInletSample (n : Nat) (s : State) : Out := s.run fun s =>
  .next
    (if !s.module.standby then s
     else if s.module.dark then { s with module := { s.module with inlet := some n } }
     else
       let was := s.module.inlet.getD 0
       let s := { s with module := { s.module with inlet := some n, inletHi := decide (n > 3000) } }
       let s := if n > 3000 then s.raise .power 1 else s
       let s := if n > 4000 then s.raise .power 2 else s
       if n > 4000 ∨ was > 4000 then s.lightBays else s)

/-- The input lies outside 700 to 860 V. -/
def inputOut (n : Nat) : Bool := n < 7000 || n > 8600

end Sys2Proof.Machine
end

