-- ==== Sys2Proof/Machine/Gable.lean ====
section
/-! DEFINITION. Gables (R499 to R508): the check of R501, enabling, disabling, adding and removing bays,
allotments, corridors, the configuration measurement of R587. -/

namespace Sys2Proof.Machine

open Sys2Proof

/-! ### The check of R501 -/

/-- Stack windows of two gables overlap. -/
def Chip.windowsOverlap (s : Chip) (t u : Nat) : Bool :=
  let a := s.reg (.gable t) Off.GB_CFG
  let b := s.reg (.gable u) Off.GB_CFG
  decide (fld a 8 6 < fld b 8 6 + fld b 16 7) && decide (fld b 8 6 < fld a 8 6 + fld a 16 7)

/-- Bay `b` is held by a gable other than `t` that forbids it: ACTIVE, or DORMANT with an overlapping
stack window. -/
def Chip.bayTaken (s : Chip) (t b : Nat) : Bool :=
  s.gables.any fun p => p.1 ≠ t && p.2.page.enable && s.maskBit (.gable p.1) (Off.GB_BAYS 0) b &&
    (p.2.active || s.windowsOverlap t p.1)

/-- An enabled fixed-mode gable other than `t`, DORMANT or not. -/
def Chip.fixedOther (s : Chip) (t : Nat) (p : Nat × Gable) : Bool :=
  p.1 ≠ t && p.2.page.enable && !s.gableOpp p.1

/-- Corridor bay `b` of a fixed gable `t` breaks R506. -/
def Chip.corridorBad (s : Chip) (t b : Nat) : Bool :=
  let f := s.gableFreq t
  let u := (s.bay b).tint
  !s.gableOpp t &&
    (if u ≠ 0 ∧ u ≠ t then !((s.gable u).active && !s.gableOpp u && s.gableFreq u = f)
     else s.gables.any fun p => s.fixedOther t p && s.maskBit (.gable p.1) (Off.GB_CORR 0) b && s.gableFreq p.1 ≠ f)

/-- Bay `b` of gable `t` lies in a fixed gable's corridor at another frequency. -/
def Chip.bayBreaks (s : Chip) (t b : Nat) : Bool :=
  s.gables.any fun p => s.fixedOther t p && s.maskBit (.gable p.1) (Off.GB_CORR 0) b &&
    (s.gableOpp t || s.gableFreq p.1 ≠ s.gableFreq t)

/-- A bay under thermal throttling. -/
def Chip.bayHot (s : Chip) (b : Nat) : Bool := (s.bay b).level > 0 || (bayClusters b).any fun cl => (s.cl cl).stretch > 0

/-- Failures a bay brings to gable `t`. -/
def Chip.bayFails (s : Chip) (t b : Nat) : List (Nat × Nat × Nat) :=
  let off := Off.GB_BAYS (b / 64)
  failsOf [
    (s.bayBreaks t b, (0x0104, off, 0)),
    (s.bayTaken t b, (0x0201, off, 0)),
    (!s.bayOk b, (0x0301, off, 0)),
    (s.bayHot b, (0x0603, off, 0))]

/-- Failures of allotment `w` over `bays`; one that does not `count` yet breaks no sum (R508). -/
def Chip.allotFails (s : Chip) (t w : Nat) (bays : List Nat) (count : Bool) : List (Nat × Nat × Nat) :=
  failsOf [
    (decide (w < 1 ∨ w > 34000), (0x0101, Off.GB_ALLOT, 0)),
    (count && s.capOver t w, (0x0601, Off.GB_ALLOT, 0)),
    (s.needFails t w bays, (0x0602, Off.GB_ALLOT, 0))]

/-- A SKYLIGHT page of one of the clusters is enabled. -/
def Chip.skylightOn (s : Chip) (bays : List Nat) : Bool :=
  (bays.flatMap bayClusters).any fun cl => (s.cl cl).skylight.page.enable

/-- The verdict on ENABLE and RESTORE of gable `t` (R501). -/
def Chip.gableVerdict (s : Chip) (t : Nat) : Verdict :=
  let pg := PageRef.gable t
  let c := s.reg pg Off.GB_CFG
  let bays := s.gableBays t
  let corr := s.gableCorr t
  let log (off lo hi : Nat) : Bool := decide (fld (s.reg pg off) 0 4 < lo) || decide (fld (s.reg pg off) 0 4 > hi)
  leastFail (
    failsOf [
      (fld (s.reg pg (Off.GB_BAYS 5)) 16 48 ≠ 0, (0x0101, Off.GB_BAYS 5, 0)),
      (fld (s.reg pg (Off.GB_CORR 5)) 16 48 ≠ 0, (0x0101, Off.GB_CORR 5, 0)),
      (fld c 2 3 > 4 || fld c 16 7 = 0 || fld c 8 6 + fld c 16 7 > 64, (0x0101, Off.GB_CFG, 0)),
      (bit c 0 && s.skylightOn bays, (0x0205, Off.GB_CFG, 0)),
      (log Off.GB_FQ_CFG 4 12, (0x0101, Off.GB_FQ_CFG, 0)),
      (log Off.GB_MR_CFG 2 10, (0x0101, Off.GB_MR_CFG, 0)),
      (s.module.inletHi, (0x0603, Off.GB_BAYS 0, 0)),
      (!bit s.bringup.done 6, (0x0702, 0x010, 0))] ++
    bays.flatMap (s.bayFails t) ++
    (corr.flatMap fun b => if b ∈ bays || s.corridorBad t b then [(0x0104, Off.GB_CORR (b / 64), 0)] else []) ++
    s.allotFails t (s.allot t) bays true ++ failsOf [(s.freqFails t bays, (0x0602, Off.GB_ALLOT, 0))])

/-! ### Bindings of a bay and of a corridor (R500, R502, R503) -/

/-- Bit t − 1 of CL_RT_CORRIDOR of the bay's routers. -/
def Chip.corridorBit (s : Chip) (t b : Nat) (on : Bool) : Chip :=
  (bayClusters b).foldl (fun s cl => s.modRouter cl fun r => { r with
    corridor := if on then setBit r.corridor (t - 1) else clrBit r.corridor (t - 1) }) s

def Chip.bindBay (s : Chip) (t b : Nat) : Chip := s.modBay b fun x => { x with tint := t }

/-- Key slots bound to `t` erased in a controller. -/
def Bay.eraseTint (x : Bay) (t : Nat) : Bay :=
  { x with keys := x.keys.filter fun p => match p.2 with | some k => k.tint ≠ t | none => false }

/-- The frequency a tint 0 corridor bay runs at: that of the fixed gable whose corridor holds it (R506). -/
def Chip.corridorClocks (s : Chip) (t : Nat) : Chip :=
  if s.gableOpp t then s
  else (s.gableCorr t).foldl (fun s b =>
    if (s.bay b).tint ≠ 0 then s
    else (bayClusters b).foldl (fun s cl => s.modCl cl fun x => { x with freq := s.gableFreq t }) s) s

/-- The frequency a tint 0 bay runs at: that of an enabled fixed gable whose corridor holds it, else 2.0 GHz (R287,
R506). -/
def Chip.restFreq (s : Chip) (b : Nat) : Nat :=
  match s.gables.find? fun p => p.2.page.enable && !s.gableOpp p.1 && s.maskBit (.gable p.1) (Off.GB_CORR 0) b with
  | some p => s.gableFreq p.1
  | none => 2000

/-- Bays of `bs` that belong to no gable run at the frequency of tint 0. -/
def Chip.restClocks (s : Chip) (bs : List Nat) : Chip :=
  bs.foldl (fun s b =>
    if (s.bay b).tint ≠ 0 then s
    else (bayClusters b).foldl (fun s cl => s.modCl cl fun x => { x with freq := s.restFreq b }) s) s

/-! ### The configuration measurement (R587) -/

def Chip.configBytes (s : Chip) (t : Nat) : List Byte :=
  let pg := PageRef.gable t
  let w (off : Nat) : List Byte := leBytes 8 (s.reg pg off).toNat
  leBytes 8 s.bringup.record.serial.toNat ++ leBytes 8 (s.gable t).enableId.toNat ++ leBytes 1 t ++ leBytes 7 0 ++
    (List.range 6).flatMap (fun i => w (Off.GB_BAYS i)) ++ (List.range 6).flatMap (fun i => w (Off.GB_CORR i)) ++
    w Off.GB_CFG ++ w Off.GB_ALLOT ++ leBytes 8 (s.gable t).ceil

def Chip.measureConfig (s : Chip) (t : Nat) : Chip :=
  let d := sha512 (s.configBytes t)
  s.modGable t fun g => { g with config := BitVec.ofNat 512 (leNat d) }

/-! ### Enabling (R500) -/

/-- A meter with its counts at zero; the last record stays readable, and what is not yet written stays. -/
def Meter.fresh (m : Meter) : Meter := { last := m.last, unwritten := m.unwritten, lastSeq := m.lastSeq, ringFreed := m.ringFreed }

/-- What an admitted ENABLE does. Under an engine halt the gable's FAULT window is open from the start (R351). -/
def Chip.enableGable (s : Chip) (t : Nat) : Chip :=
  let s := s.stretchWith (s.gableClusters t) fun s => (s.gableBays t).foldl (fun s b => s.bindBay t b) s
  let s := (s.gableCorr t).foldl (fun s b => s.corridorBit t b true) s
  let s := (s.gableClusters t).foldl (fun s cl => s.modCl cl fun x => { x with ctu := { x.ctu with phase := .none } }) s
  let (id, s) := s.draw
  let s := s.modGable t fun g => { g with
    page := { g.page with enable := true }
    enableId := id, dormant := false, saving := false, restoring := false, keylog := 0#512, keyIds := []
    windows := [], later := []
    target := 2000, calm := 0, overWin := 0, overdraw := false, odLevel := 0, learn := [], ests := []
    meter := { g.meter.fresh with
      isOpen := true, enableId := id, tStart := s.now, interval := fld (s.reg .meter Off.MT_INTERVAL) 0 17 } }
  let s := if s.halting then s.openWindow t .fault else s
  ((s.lightBays.setClocks t).corridorClocks t).measureConfig t

/-! ### Disabling (R503) -/

/-- Every core STOPPED, every unit ring empty and not parked, no packet outstanding. -/
def Chip.gableQuiet (s : Chip) (t : Nat) : Bool :=
  ((s.gableClusters t).all fun cl =>
    ((s.cl cl).cores.all fun p => p.2.run = .stopped) && s.ringsIdle cl) && s.nothingOut t

/-- A session disabled (R426): its configuration words stay, its state returns to IDLE and its key is
erased. -/
def Session.disable (x : Session) : Session := { words := x.words }

def Chip.disableSessions (s : Chip) (t : Nat) : Chip :=
  { s with eaves := SMap.mapVals {} s.eaves fun _ e =>
      { e with
        sends := e.sends.filter fun d => d.tint ≠ t
        waiting := e.waiting.filter fun w => w.tint ≠ t
        sessions := SMap.mapVals {} e.sessions fun _ x => if x.tintOf = t && x.state ≠ 0 then x.disable else x } }

/-- A table that is not armed: every entry reads IDLE (R391). -/
def Gable.redIdle (g : Gable) : Gable :=
  { g with redArm := false, red := SMap.mapVals {} g.red fun _ r => { r with state := 0 } }

/-- What an accepted disable does, but for the meter record. Overdraw stretching ends with it, and so does every window of
its causes (R351). -/
def Chip.disableGable (s : Chip) (t : Nat) : Chip :=
  let mine := s.gableBays t
  let s := { s with bays := SMap.mapVals {} s.bays fun _ x => x.eraseTint t }
  let s := s.stretchWith (s.gableClusters t) fun s =>
    mine.foldl (fun s b => if (s.bay b).tint = t then s.bindBay 0 b else s) s
  let s := (s.gableCorr t).foldl (fun s b => s.corridorBit t b false) s
  let s := s.modLinkH fun l => l.abortQueue (fun c => c.fn = t) false
  let s := s.disableSessions t
  let s := s.modGable t fun g => { g.redIdle with
    page := { g.page with enable := false }
    dormant := false, saving := false, restoring := false, keyIds := []
    overdraw := false, odLevel := 0
    windows := g.windows.map fun w => if w.closed = none then { w with closed := some s.now } else w }
  (s.restClocks (mine ++ s.gableCorr t)).lightBays

/-! ### Bays added and removed (R502) -/

def Chip.setMask (s : Chip) (t b : Nat) (on : Bool) : Chip :=
  s.modReg (.gable t) (Off.GB_BAYS (b / 64)) fun v => if on then setBit v (b % 64) else clrBit v (b % 64)

/-- GB_BAYCMD.ADD. -/
def Chip.addBay (s : Chip) (t b : Nat) : Chip :=
  let pg := PageRef.gable t
  let bays := s.gableBays t ++ [b]
  if b ≥ 336 then s.refuse pg 0x0101 Off.GB_BAYCMD
  else if b ∈ s.gableCorr t then s.refuse pg 0x0104 Off.GB_BAYCMD
  else
    let fails := s.bayFails t b ++ failsOf [
      (bit (s.reg pg Off.GB_CFG) 0 && s.skylightOn [b], (0x0205, 0, 0)),
      (s.module.inletHi, (0x0603, 0, 0)),
      (s.needFails t (s.allot t) bays || s.freqFails t bays, (0x0602, 0, 0))]
    match leastFail (fails.map fun f => (f.1, Off.GB_BAYCMD, 0)) with
    | some f => s.refuse pg f.1 Off.GB_BAYCMD
    | none =>
      if b ∈ s.gableBays t then s
      else
        let s := s.stretchWith (bayClusters b) fun s => (s.setMask t b true).bindBay t b
        ((s.lightBays.setClocks t).measureConfig t)

/-- A cluster of the bay has a running core, a ring that is not empty, or a committed cluster whose map is
enabled. -/
def Chip.bayBusy (s : Chip) (b : Nat) : Bool :=
  (bayClusters b).any fun cl =>
    let x := s.cl cl
    (x.cores.any fun p => p.2.run = .running) || !((List.range 5).all fun u => (ringsOf u).all fun q => s.ringHeld cl u q = 0) ||
      (x.lc.isSome && x.mapEn)

/-- GB_BAYCMD.REMOVE: a latched-off bay may always be removed. -/
def Chip.removeBay (s : Chip) (t b : Nat) : Chip :=
  if !(b ∈ s.gableBays t) then s
  else if s.bayOk b && s.bayBusy b then s.refuse (.gable t) 0x0201 Off.GB_BAYCMD
  else
    let s := s.stretchWith (bayClusters b) fun s => (s.setMask t b false).modBay b fun x =>
      let x := x.eraseTint t
      if x.tint = t then { x with tint := 0 } else x
    (s.restClocks [b]).lightBays.measureConfig t

/-- A write of GB_BAYCMD (R502, R512, R650); while ENABLE is 0 it does nothing. -/
def Chip.bayCmdWrite (s : Chip) (t : Nat) (v : W) : Chip :=
  let g := s.gable t
  let b := fld v 0 9
  if bit v 9 && bit v 10 then s
  else if !(bit v 9 || bit v 10) || !g.page.enable then s
  else if g.saving || g.restoring then s.refuse (.gable t) 0x0201 Off.GB_BAYCMD
  else if bit v 9 then s.addBay t b
  else s.removeBay t b

/-! ### Allotments (R508, R528) -/

/-- A write of GB_ALLOT: checked while the gable is enabled; a refused write leaves the old one, and that of a
DORMANT gable counts in no sum until it is restored. -/
def Chip.allotWrite (s : Chip) (t : Nat) (v : W) : Chip :=
  let w := fld v 0 16
  let set (s : Chip) : Chip := s.setReg (.gable t) Off.GB_ALLOT (BitVec.ofNat 64 w)
  if !(s.gable t).page.enable then set s
  else match leastFail (s.allotFails t w (s.gableBays t) (s.gable t).active) with
    | some f => s.refuse (.gable t) f.1 Off.GB_ALLOT
    | none => (set s).measureConfig t

/-- A write of PW_G_CEIL (R542): discarded while that gable is enabled. -/
def Chip.ceilWrite (s : Chip) (v : W) : Chip :=
  let t := fld (s.reg .power Off.PW_GSEL) 0 7
  if t = 0 || t > 64 || (s.gable t).page.enable then s
  else s.modGable t fun g => { g with ceil := fld v 0 10 }

end Sys2Proof.Machine
end

