-- ==== Sys2Proof/Machine/Rsa.lean ====
section
/-! DEFINITION. The encodings of RFC 8017 that surround the engine's RSA operations (R578, R579, R592),
and HMAC-SHA-256 of RFC 2104 (R552, R555, R581). The operations with the device key and with the vendor
root key, and the assembly key itself, are constants of Config. -/

namespace Sys2Proof

open Machine (leBytes)

/-- MGF1 with SHA-512: `n` bytes of mask. -/
def mgf1 (seed : List Byte) (n : Nat) : List Byte :=
  ((List.range ((n + 63) / 64)).flatMap fun i => sha512 (seed ++ Sha.beBytes 4 i)).take n

def xorList (a b : List Byte) : List Byte := List.zipWith (· ^^^ ·) a b

/-- The hash that a PSS encoding carries, of a message hash and a salt. -/
def pssHash (mHash salt : List Byte) : List Byte := sha512 (List.replicate 8 0#8 ++ mHash ++ salt)

/-- The top bit of the 4,096 is outside an encoding of 4,095 bits. -/
def clearTop (l : List Byte) : List Byte :=
  match l with
  | b :: r => (b &&& 0x7F#8) :: r
  | [] => []

/-- EMSA-PSS encoding of a message with a salt of 64 bytes: 512 bytes. -/
def pssEncode (m salt : List Byte) : List Byte :=
  let h := pssHash (sha512 m) salt
  let db := List.replicate 382 0#8 ++ [1#8] ++ salt
  clearTop (xorList db (mgf1 h 447)) ++ h ++ [0xBC#8]

/-- EMSA-PSS verification of an encoding of 512 bytes. -/
def pssVerify (m em : List Byte) : Bool :=
  let masked := em.take 447
  let h := (em.drop 447).take 64
  let db := clearTop (xorList masked (mgf1 h 447))
  decide (em.length = 512) && decide (em.drop 511 = [0xBC#8]) && !(masked.getD 0 0#8).getLsbD 7 &&
    decide (db.take 383 = List.replicate 382 0#8 ++ [1#8]) && decide (pssHash (sha512 m) (db.drop 383) = h)

/-- RSASSA-PSS of a message under the device key with a salt of 64 bytes (R578): 512 bytes. -/
def rsaSign (m salt : List Byte) : List Byte :=
  Sha.beBytes 512 (Config.devicePrivate (BitVec.ofNat 4096 (Sha.beNat (pssEncode m salt)))).toNat

/-- A vendor signature of a message (R579, step 2). -/
def vendorVerify (m sig : List Byte) : Bool :=
  pssVerify m (Sha.beBytes 512 (Config.vendorPublic (BitVec.ofNat 4096 (Sha.beNat sig))).toNat)

/-- The label of R592. -/
def oaepLabel : List Byte := [0x44#8, 0x5A#8, 0x57#8, 0x31#8, 0x2D#8, 0x4B#8, 0x45#8, 0x59#8]

/-- The message after the first byte that is not 0, which must be 1. -/
def oaepMessage : List Byte → Option (List Byte)
  | [] => none
  | b :: r => if b = 0#8 then oaepMessage r else if b = 1#8 then some r else none

/-- OAEP decoding of 512 bytes (R592). -/
def oaepDecode (em : List Byte) : Option (List Byte) :=
  let masked := em.drop 65
  let seed := xorList ((em.drop 1).take 64) (mgf1 masked 64)
  let db := xorList masked (mgf1 seed 447)
  if em.take 1 = [0#8] ∧ db.take 64 = sha512 oaepLabel then oaepMessage (db.drop 64) else none

/-- A key blob opened: its plaintext of 88 bytes, first byte least significant, or none where decoding fails.
A plaintext of another length counts as failed (log entry 4). -/
def oaepOpen (blob : BitVec 4096) : Option (BitVec 704) :=
  let c := Sha.beNat (leBytes 512 blob.toNat)
  if c < Config.deviceModulus.toNat then
    match oaepDecode (Sha.beBytes 512 (Config.devicePrivate (BitVec.ofNat 4096 c)).toNat) with
    | some m => if m.length = 88 then some (BitVec.ofNat 704 (Machine.leNat m)) else none
    | none => none
  else none

/-- HMAC-SHA-256 under the key bound at module assembly, given as HMAC's block of 64 bytes. -/
def assemblyMac (m : List Byte) : List Byte :=
  let k := leBytes 64 Config.assemblyKey.toNat
  sha256 (k.map (· ^^^ 0x5C#8) ++ sha256 (k.map (· ^^^ 0x36#8) ++ m))

end Sys2Proof
end

