-- ==== Sys2Proof/Machine/Meter.lean ====
section
/-! DEFINITION. Meter periods, records and their ring (R514 to R518); the signing engine (R578, R591). -/

namespace Sys2Proof.Machine

open Sys2Proof

/-! ### The timekeeper as records show it (R517) -/

/-- TK_PPS_STATUS.LOCKED. -/
def Chip.tkLocked (s : Chip) : Bool := bit (s.reg .timekeeper Off.TK_PPS_CFG) 1 && decide (s.tk.locked ≥ 4)

/-- TK_OFFSET: 0 before the first accepted pulse. -/
def Chip.tkOffset (s : Chip) : Int := match s.tk.ppsLast with | some t => ppsOffset t.toNat | none => 0

/-! ### Records (R516, R517) -/

/-- Bytes 0 to 319 of the record, PREV zero until the record is signed. -/
def Chip.meterBody (s : Chip) (t reason : Nat) (tEnd : W) : List Byte :=
  let m := (s.gable t).meter
  let pg := PageRef.gable t
  let c := s.reg pg Off.GB_CFG
  let q (n : Nat) : List Byte := leBytes 8 n
  leBytes 2 1 ++ leBytes 2 320 ++ leBytes 1 t ++ leBytes 1 reason ++
    leBytes 1 (b2n s.tkLocked + 2 * b2n m.ppsLost + 4 * b2n (bit c 1) + 8 * b2n (bit c 0)) ++ leBytes 1 0 ++
    q s.bringup.record.serial.toNat ++ leBytes 2 (fld (s.reg .dev Off.DEV_ENGINE_ID) 0 11) ++
    leBytes 2 (s.gableBays t).length ++ leBytes 2 (s.gableFreq t) ++ leBytes 2 0 ++ leBytes 4 (s.allot t) ++
    leBytes 4 (codeOf 32 s.tkOffset) ++ q m.enableId.toNat ++ q m.seq ++ q m.tStart.toNat ++ q tEnd.toNat ++
    q m.steps ++ q m.work ++ q m.elapsed ++ q m.report ++ (List.range 6).flatMap (fun i => q (m.stalls.getD i 0)) ++
    q (m.energyMeas / 16) ++ q (m.energyEst / 65536) ++ q m.stackRead ++ q m.stackWrite ++ q m.fabricTx ++
    q m.fabricRx ++ leBytes 4 m.peak ++ leBytes 4 0 ++ q m.skyDoubt ++ q m.skyLost ++ q m.skyMadeup ++
    leBytes 32 0 ++ leBytes 64 (s.gable t).config.toNat

/-- Meter records are signed first, in order of T_END and then tint; the rest in order of arrival (R591). -/
def SignJob.before : SignJob → SignJob → Bool
  | .meter a t _, .meter b u _ => decide (a.toNat < b.toNat) || (a = b && decide (t < u))
  | .meter _ _ _, _ => true
  | _, _ => false

def insertJob (j : SignJob) : List SignJob → List SignJob
  | [] => [j]
  | x :: xs => if j.before x then j :: x :: xs else x :: insertJob j xs

def Chip.addJob (s : Chip) (j : SignJob) : Chip := { s with sec := { s.sec with jobs := insertJob j s.sec.jobs } }

/-- The open period ends at `tEnd`: its record goes to the signing engine; the next one, if any, starts there, with the
counts of the events stamped since (R515). -/
def Chip.closePeriod (s : Chip) (t reason : Nat) (tEnd : W) : Chip :=
  let s := s.addJob (.meter tEnd t (s.meterBody t reason tEnd))
  s.modGable t fun g =>
    let m := g.meter
    let next : Meter := if reason = 1 then SMap.get {} g.later 1 else {}
    { g with
      later := if reason = 1 then (g.later.filter fun p => 1 < p.1).map fun p => (p.1 - 1, p.2) else []
      meter := { next with
        isOpen := decide (reason ≠ 3), enableId := m.enableId, seq := m.seq + 1, tStart := tEnd
        interval := fld (s.reg .meter Off.MT_INTERVAL) 0 17
        last := m.last, unwritten := m.unwritten, lastSeq := m.lastSeq, ringFreed := m.ringFreed } }

/-- The interval ends the open period when its end has come, unless the ring is full (R515). -/
def Chip.intervalEnd (s : Chip) (t : Nat) : Chip :=
  let m := (s.gable t).meter
  if !m.isOpen || m.interval = 0 || s.now.toNat < m.due || s.meterFull t then s
  else s.closePeriod t 1 (BitVec.ofNat 64 m.due)

/-- Every period that the interval has ended is closed. -/
def Chip.intervalEnds (s : Chip) (t : Nat) : Chip :=
  (List.range ((s.gable t).meter.periodsOver s.now.toNat (s.meterFull t))).foldl (fun s _ => s.intervalEnd t) s

/-- The open period ends now, at MT_CLOSE or a disable, once the interval has ended those before. -/
def Chip.endPeriod (s : Chip) (t reason : Nat) (tEnd : W) : Chip := (s.intervalEnds t).closePeriod t reason tEnd

/-- METER_PERIOD_END (R515): the first multiple of the interval after the period's start, and after the ring last got
room back, ends the period, unless the ring is full. -/
def execMeterPeriodEnd (t : Nat) (s : State) : Out := s.run fun s =>
  onUnit (1 ≤ t && t ≤ 64) (s.intervalEnd t)

/-- A write of MT_CLOSE. -/
def Chip.meterClose (s : Chip) (v : W) : Chip :=
  let t := fld v 0 7
  if bit v 7 && 1 ≤ t && t ≤ 64 && (s.gable t).meter.isOpen then s.endPeriod t 2 s.now else s

/-- METER_RECORD_WRITE (R516): a signed record goes to the gable's meter ring, and VF t vector 1 is
signalled. -/
def execMeterRecordWrite (t : Nat) (s : State) : Out := s.run fun s =>
  onUnit (1 ≤ t && t ≤ 64)
    (match (s.gable t).meter.unwritten with
     | [] => s
     | r :: rs =>
       if s.meterFull t then s
       else
         let s := s.intervalEnds t
         let pg := PageRef.gable t
         let size := 2 ^ fld (s.reg pg Off.GB_MR_CFG) 0 4
         let s := s.hostWrite t ((s.reg pg Off.GB_MR_BASE).toNat + 1024 * (fld (s.reg pg Off.GB_MR_TAIL) 0 16 % size)) r
         let s := s.modReg pg Off.GB_MR_TAIL (wrapField 16 1)
         (s.modGable t fun g => { g with meter := { g.meter with unwritten := rs } }).signal t 1)

/-- A write of MT_INTERVAL (R518): outside 60 to 86,400 it is discarded. -/
def Chip.intervalWrite (s : Chip) (v : W) : Chip :=
  let n := fld v 0 17
  if 60 ≤ n ∧ n ≤ 86400 then s.setReg .meter Off.MT_INTERVAL (BitVec.ofNat 64 n) else s

/-- A host write of GB_MR_HEAD: it may free an entry of a full ring. -/
def Chip.meterHeadWrite (s : Chip) (t : Nat) (v : W) : Chip :=
  let full := s.meterFull t
  let s := s.setReg (.gable t) Off.GB_MR_HEAD (BitVec.ofNat 64 (fld v 0 16))
  if full && !s.meterFull t then s.modGable t fun g => { g with meter := { g.meter with ringFreed := s.now } } else s

/-- An access to MT_REC_DATA: the word, and WORD advances. -/
def Chip.meterRecWord (s : Chip) : W × Chip :=
  let t := fld (s.reg .meter Off.MT_SEL) 0 7
  let w := fld (s.reg .meter Off.MT_REC_ADDR) 0 7
  (BitVec.ofNat 64 (leNat (slice (s.gable t).meter.last (8 * w) 8)),
    s.setReg .meter Off.MT_REC_ADDR (BitVec.ofNat 64 ((w + 1) % 128)))

/-! ### The signing engine (R578, R591) -/

/-- A signature of 512 bytes with a salt of 64 bytes from the noise source (R578, R580). -/
def Chip.signBytes (s : Chip) (m : List Byte) : List Byte × Chip :=
  let (salt, s) := s.drawNat 8
  (rsaSign m (leBytes 64 salt), s)

/-- A meter record signed: PREV is the hash of the gable's previous record of the chain (R517). -/
def Chip.signMeter (s : Chip) (t : Nat) (body : List Byte) : Chip :=
  let seq := leNat (slice body 40 8)
  let prev := if seq = 0 then leBytes 32 0 else (sha512 (s.gable t).meter.last).take 32
  let body := body.take 224 ++ prev ++ body.drop 256
  let (sig, s) := s.signBytes body
  let rec_ := body ++ sig ++ leBytes 192 0
  (s.count .meter Off.MT_RECORDS 1).modGable t fun g => { g with meter := { g.meter with
    last := rec_, lastSeq := seq, unwritten := g.meter.unwritten ++ [rec_] } }

end Sys2Proof.Machine
end

