-- ==== Sys2Proof/Machine/Reduction.lean ====
section
/-! DEFINITION. The receive table of a gable (R377 to R392): arming, matching and writing copies,
decisions, selection words, digests. Each entry's configuration lies in `Gable.redMem` at 128 × entry. -/

namespace Sys2Proof.Machine

open Sys2Proof

/-! ### Entries (R391) -/

def Gable.redCfg (g : Gable) (e off n : Nat) : Nat := Memory.readNat g.redMem (128 * e + off) n
def Gable.redKind (g : Gable) (e : Nat) : Nat := g.redCfg e 0 1
def Gable.redHasBackup (g : Gable) (e : Nat) : Bool := (g.redCfg e 1 1).testBit 0
def Gable.redContrib (g : Gable) (e : Nat) : Nat := g.redCfg e 2 2
def Gable.redLayer (g : Gable) (e : Nat) : Nat := g.redCfg e 4 2
def Gable.redPrimary (g : Gable) (e : Nat) : Nat := g.redCfg e 6 2 % 2048
def Gable.redBackup (g : Gable) (e : Nat) : Nat := g.redCfg e 8 2 % 2048
def Gable.redLc (g : Gable) (e : Nat) : Nat := g.redCfg e 10 2 % 4096
def Gable.redFlag (g : Gable) (e : Nat) : Nat := g.redCfg e 12 2
def Gable.redDue (g : Gable) (e : Nat) : Nat := g.redCfg e 16 8
def Gable.redDeadline (g : Gable) (e : Nat) : Nat := g.redCfg e 24 8
def Gable.redMaxlen (g : Gable) (e : Nat) : Nat := g.redCfg e 32 4
/-- STAGE_P, or STAGE_B of the backup's copy. -/
def Gable.redStage (g : Gable) (e : Nat) (backup : Bool) : Nat := g.redCfg e (if backup then 40 else 36) 4
def Gable.redSel (g : Gable) (e : Nat) : Nat := g.redCfg e 44 4

/-- Entries with a configuration byte that is not 0, in ascending order. -/
def Gable.redUsed (g : Gable) : List Nat := (g.redMem.map fun c => c.1 / 128).dedup

def Gable.redEntry (g : Gable) (e : Nat) : RedEntry := SMap.get {} g.red e
def Chip.modRed (s : Chip) (t e : Nat) (f : RedEntry → RedEntry) : Chip :=
  s.modGable t fun g => { g with red := SMap.upd {} g.red e f }

def RedEntry.copy (r : RedEntry) (backup : Bool) : CopyState := if backup then r.backup else r.primary
def RedEntry.modCopy (r : RedEntry) (backup : Bool) (f : CopyState → CopyState) : RedEntry :=
  if backup then { r with backup := f r.backup } else { r with primary := f r.primary }

/-- The status half of an entry, bytes 64 to 127. -/
def RedEntry.status (r : RedEntry) : List Byte :=
  let stamp (c : CopyState) : List Byte := leBytes 8 (c.stamp.getD 0#64).toNat
  leBytes 1 r.state ++ leBytes 1 r.chosen ++
    leBytes 1 (b2n r.primary.complete + 2 * b2n r.backup.complete + 4 * b2n r.mismatch + 8 * b2n r.compared) ++
    leBytes 1 0 ++ leBytes 4 r.len ++ stamp r.primary ++ stamp r.backup ++
    leBytes 16 r.primary.digest.toNat ++ leBytes 16 r.backup.digest.toNat ++ leBytes 8 0

/-! ### Access (R390) -/

/-- An access to GB_RED_DATA: a read's value, the word written, and the address advanced. -/
def Chip.redAccess (s : Chip) (t : Nat) (wr : Option W) : W × Chip :=
  let pg := PageRef.gable t
  let g := s.gable t
  let a := s.reg pg Off.GB_RED_ADDR
  let w := fld a 0 4
  let e := fld a 4 10
  let v : W :=
    if w < 8 then BitVec.ofNat 64 (g.redCfg e (8 * w) 8)
    else BitVec.ofNat 64 (leNat (slice (g.redEntry e).status (8 * (w - 8)) 8))
  let s := match wr with
    | none => s
    | some x =>
      if w ≥ 8 || g.redArm then s.modReg pg Off.GB_RED_STATUS fun v => setBit v 0
      else s.modGable t fun g => { g with redMem := Memory.writeNat g.redMem (128 * e + 8 * w) 8 x.toNat }
  (v, s.setReg pg Off.GB_RED_ADDR (BitVec.ofNat 64 ((fld a 0 14 + 1) % 16384)))

/-! ### Arming (R391, R392) -/

/-- Cluster and bytes of the staging regions of entry `e`, with the word that names each. -/
def Gable.redRegions (g : Gable) (e : Nat) : List (Nat × Nat × Nat × Nat) :=
  let r (b : Bool) (w : Nat) := (g.redLc e, g.redStage e b, g.redStage e b + g.redMaxlen e, 16 * e + w)
  if g.redKind e ≠ 1 then []
  else r false 4 :: if g.redHasBackup e then [r true 5] else []

/-- The failures of entry `e` by itself. -/
def Chip.redFails (s : Chip) (t e : Nat) : List (Nat × Nat × Nat) :=
  let g := s.gable t
  let at_ (c w : Nat) : Nat × Nat × Nat := (c, Off.GB_RED_CTRL, 16 * e + w)
  let k := g.redKind e
  let m := g.redMaxlen e
  let recv := k = 1
  let both := recv && g.redHasBackup e
  let stageBad (b : Bool) : Bool := g.redStage e b % 64 ≠ 0 || g.redStage e b + m > storeSize
  let mine := match s.physOf (g.redLc e) with
    | some cl => decide (clBay cl ∈ s.gableBays t)
    | none => false
  failsOf [
    (decide (k > 2), at_ 0x0101 0),
    (decide (g.redCfg e 1 1 / 2 ≠ 0) || decide (g.redCfg e 6 2 / 2048 ≠ 0), at_ 0x0103 0),
    (decide (g.redCfg e 8 2 / 2048 ≠ 0) || decide (g.redCfg e 10 2 / 4096 ≠ 0) || decide (g.redCfg e 14 2 ≠ 0), at_ 0x0103 1),
    (decide (g.redCfg e 48 8 ≠ 0), at_ 0x0103 6),
    (decide (g.redCfg e 56 8 ≠ 0), at_ 0x0103 7),
    (decide (k = 1 ∨ k = 2) && decide (g.redDeadline e < g.redDue e), at_ 0x0101 3),
    (decide (k = 1 ∨ k = 2) && decide (m % 64 ≠ 0 ∨ m < 64 ∨ m > 2 ^ 23), at_ 0x0101 4),
    (recv && stageBad false, at_ 0x0101 4),
    (both && stageBad true, at_ 0x0101 5),
    (recv && (g.redSel e % 8 ≠ 0 || g.redSel e + 8 > storeSize), at_ 0x0101 5),
    (recv && decide (g.redLc e ≥ s.bringup.record.grade), at_ 0x0105 1),
    (both && decide (g.redBackup e = g.redPrimary e), at_ 0x0201 1),
    (recv && !mine, at_ 0x0401 1)]

/-- The failures of entry `e` against the entries below it. -/
def Gable.redClashes (g : Gable) (l : List Nat) (e : Nat) : List (Nat × Nat × Nat) :=
  let below := l.filter (· < e)
  let k := g.redKind e
  let twin (d : Nat) : Bool := g.redKind d = k && g.redContrib d = g.redContrib e &&
    (k = 2 || (k = 1 && g.redPrimary d = g.redPrimary e))
  let meets (a b : Nat × Nat × Nat × Nat) : Bool := a.1 = b.1 && decide (a.2.1 < b.2.2.1) && decide (b.2.1 < a.2.2.1)
  let rs := g.redRegions e
  let old := below.flatMap g.redRegions
  let inner := match rs with | [a, b] => meets a b | _ => false
  failsOf [((k = 1 || k = 2) && below.any twin, (0x0201, Off.GB_RED_CTRL, 16 * e)),
    (inner, (0x0201, Off.GB_RED_CTRL, 16 * e + 5))] ++
    (rs.filter fun r => old.any (meets r)).map fun r => (0x0201, Off.GB_RED_CTRL, r.2.2.2)

/-- The check of ARM (R392, R478, R479). -/
def Chip.redVerdict (s : Chip) (t : Nat) : Verdict :=
  let g := s.gable t
  let l := g.redUsed
  leastIdx (l.flatMap fun e => s.redFails t e ++ g.redClashes l e)

/-- Payload still to be written for gable `t` counts for no entry any more. -/
def Eave.detach (e : Eave) (t : Nat) : Eave :=
  { e with waiting := e.waiting.map fun w => if w.tint = t then { w with entry := none } else w }

/-- The table armed: every status cleared, WAITING for every entry in use; the digests cleared (R389). -/
def Chip.redArmed (s : Chip) (t : Nat) : Chip :=
  let pg := PageRef.gable t
  let s := { s with eaves := SMap.mapVals {} s.eaves fun _ e => e.detach t }
  let s := s.modGable t fun g => { g with
    redArm := true
    red := (g.redUsed.filter fun e => g.redKind e ≠ 0).map fun e => (e, { state := 1 }) }
  (((s.setReg pg Off.GB_RED_DSENT_LO 0#64).setReg pg Off.GB_RED_DSENT_HI 0#64).setReg
    pg Off.GB_RED_DRECV_LO 0#64).setReg pg Off.GB_RED_DRECV_HI 0#64

/-- The first open FABRIC window that opened at `due` closes at `at_`. -/
def closeFabric (due at_ : W) : List StallWindow → List StallWindow
  | [] => []
  | w :: ws =>
    if w.cause = .fabric ∧ w.closed = none ∧ w.opened = due then { w with closed := some at_ } :: ws
    else w :: closeFabric due at_ ws

/-- The FABRIC window of an entry closes, when it is open. -/
def Chip.fabricEnd (s : Chip) (t e : Nat) (at_ : W) : Chip :=
  let g := s.gable t
  if (g.redEntry e).late then
    (s.modGable t fun g => { g with
      windows := closeFabric (BitVec.ofNat 64 (g.redDue e)) at_ g.windows }).modRed t e fun r => { r with late := false }
  else s

/-- ARM = 0: the table disarmed. Windows of entries still undecided close with it (log entry 20). -/
def Chip.redDisarm (s : Chip) (t : Nat) : Chip :=
  let s := (s.gable t).red.foldl (fun s p => s.fabricEnd t p.1 s.now) s
  s.modGable t Gable.redIdle

/-- A write of GB_RED_CTRL: ATTEMPT is writable while ARM reads 0, and another one written while it reads 1 is
discarded, as WRITE_DROP says; ARM from 0 to 1 starts the check. -/
def Chip.redCtrlWrite (s : Chip) (t : Nat) (v : W) : Chip :=
  let g := s.gable t
  if g.redArm then
    let s := if fld v 8 8 = g.redAttempt then s else s.modReg (.gable t) Off.GB_RED_STATUS fun v => setBit v 0
    if bit v 0 then s else s.redDisarm t
  else
    let s := s.modGable t fun g => { g with redAttempt := fld v 8 8 }
    if bit v 0 then s.modPage (.gable t) fun p => { p with check := some .redArm } else s

/-! ### Decisions (R382 to R386) -/

/-- An error of an entry: the GB_RED_STATUS bit, the first entry, and FAULT_CAUSE. -/
def Chip.redError (s : Chip) (t e b : Nat) : Chip :=
  let pg := PageRef.gable t
  let s := s.modReg pg Off.GB_RED_STATUS fun v =>
    setBit (if bit v 1 || bit v 2 then v else putFld v 16 10 e) b
  s.raise pg (if b = 1 then 8 else 9)

/-- The selection word of a CHOSEN entry goes as a STORE packet from the port the chosen copy came to (R383, log
entry 57). -/
def Chip.redSelect (s : Chip) (t e : Nat) : Chip :=
  let g := s.gable t
  let r := g.redEntry e
  let backup := decide (r.chosen = 2)
  let word := g.redStage e backup + r.chosen <<< 32
  let put (s : Chip) (x : SelState) : Chip := s.modRed t e fun r => { r with sel := x }
  match s.portWrite (r.copy backup).port t (g.redLc e) (g.redSel e) (leBytes 8 word) with
  | .ok s _ => put s .written
  | .refused s => put s .refused
  | .uncorr s => put s .refused
  | .lost s => put s .refused
  | .busy h => s.waiting h

/-- A copy is chosen: STATE, CHOSEN and LEN, then the selection word (R382, R383). -/
def Chip.redChoose (s : Chip) (t e : Nat) (backup : Bool) : Chip :=
  let c := ((s.gable t).redEntry e).copy backup
  let s := s.fabricEnd t e (c.stamp.getD 0#64)
  let s := if backup then s.count (.gable t) Off.GB_RED_BACKUP_TAKEN 1 else s
  (s.modRed t e fun r => { r with
    state := 3, chosen := if backup then 2 else 1, len := c.len.getD 0, sel := .due }).redSelect t e

/-- The comparison of the unchosen copy once it is complete (R384). -/
def Chip.redCompare (s : Chip) (t e : Nat) : Chip :=
  let r := (s.gable t).redEntry e
  if r.state = 3 && !r.compared && !r.mismatch && r.primary.complete && r.backup.complete then
    let s := s.count (.gable t) Off.GB_RED_COMPARED 1
    if r.primary.digest = r.backup.digest then s.modRed t e fun r => { r with compared := true }
    else (s.modRed t e fun r => { r with mismatch := true }).redError t e 2
  else s

/-- The decision of an armed RECV entry (R382), then the comparison. -/
def Chip.redDecide (s : Chip) (t e : Nat) : Chip :=
  let g := s.gable t
  let r := g.redEntry e
  let now := s.now.toNat
  let intime (c : CopyState) : Bool := !c.cut && match c.stamp with
    | some x => decide (x.toNat ≤ g.redDeadline e)
    | none => false
  let cand (c : CopyState) : Bool := c.complete && intime c
  let p := cand r.primary
  let b := cand r.backup
  if !g.redArm || g.redKind e ≠ 1 || s.preempted t || !(r.state = 1 || r.state = 2) then s.redCompare t e
  else if !p && !b then
    if now > g.redDeadline e && !intime r.primary && !intime r.backup then
      let s := s.fabricEnd t e s.now
      (s.modRed t e fun r => { r with state := 4 }).redError t e 1
    else s
  else if now < g.redDue e then s.modRed t e fun r => { r with state := 2 }
  else
    let stamp (c : CopyState) : Nat := (c.stamp.getD 0#64).toNat
    let backup := b && (!p || decide (stamp r.backup < stamp r.primary))
    (s.redChoose t e backup).redCompare t e

/-! ### Payload written to its staging region (R380, R402, R422) -/

/-- A STORE write refused or lost: its copy cannot be complete. -/
def Chip.writeFailed (s : Chip) (w : PortWrite) : Chip :=
  match w.entry with
  | none => s
  | some (e, backup) => s.modRed w.tint e fun r => r.modCopy backup fun c => { c with broken := true }

/-- A port writes what waits in its receive buffer, in order, until one write must wait. -/
def Chip.drainGo (p : Nat) : List PortWrite → Chip → Chip
  | [], s => s.modEave p fun e => { e with waiting := [] }
  | w :: ws, s => match s.portWrite p w.tint w.lc w.off w.bytes with
    | .busy h => (s.waiting h).modEave p fun e => { e with waiting := w :: ws }
    | .ok s _ => Chip.drainGo p ws s
    | .refused s => Chip.drainGo p ws (s.writeFailed w)
    | .uncorr s => Chip.drainGo p ws (s.writeFailed w)
    | .lost s => Chip.drainGo p ws (s.writeFailed w)

def Chip.drainPort (s : Chip) (p : Nat) : Chip := (Chip.drainGo p (s.eave p).waiting s).pfcCheck p

/-- Every port that holds payload goes on writing it. -/
def Chip.drainPorts (s : Chip) : Chip :=
  ((s.eaves.filter fun q => !q.2.waiting.isEmpty).map (·.1)).foldl Chip.drainPort s

/-- Some payload of a copy is still to be written. -/
def Chip.copyWaits (s : Chip) (t e : Nat) (backup : Bool) : Bool :=
  s.eaves.any fun q => q.2.waiting.any fun w => w.tint = t && w.entry = some (e, backup)

/-- COPY_COMPLETE (R380): every STORE write of a copy that has all its bytes is acknowledged. -/
def execCopyComplete (t red : Nat) (flag : Bool) (s : State) : Out := s.run fun s =>
  onUnit (1 ≤ t && t ≤ 64 && red < 1024)
    (let s := s.drainPorts
     let g := s.gable t
     let c := (g.redEntry red).copy flag
     if !g.redArm || g.redKind red ≠ 1 || c.stamp.isNone || c.broken || c.complete || s.preempted t ||
         s.copyWaits t red flag then s
     else (s.modRed t red fun r => r.modCopy flag fun c => { c with complete := true }).redDecide t red)

/-- DUE_REACHED (R382, R385): a held entry chooses; a FABRIC window opens for one neither HELD nor CHOSEN. -/
def execDueReached (t red : Nat) (s : State) : Out := s.run fun s =>
  onUnit (1 ≤ t && t ≤ 64 && red < 1024)
    (let g := s.gable t
     let r := g.redEntry red
     if !g.redArm || g.redKind red ≠ 1 || decide (s.now.toNat < g.redDue red) || s.preempted t then s
     else
       let s :=
         if r.state = 1 && !r.late then
           (s.modGable t fun g => { g with
             windows := g.windows ++ [⟨.fabric, BitVec.ofNat 64 (g.redDue red), none⟩] }).modRed t red fun r =>
               { r with late := true }
         else s
       s.redDecide t red)

/-- DEADLINE_PASSED (R382, R385). -/
def execDeadlinePassed (t red : Nat) (s : State) : Out := s.run fun s =>
  onUnit (1 ≤ t && t ≤ 64 && red < 1024)
    (if decide (s.now.toNat ≤ (s.gable t).redDeadline red) then s else s.redDecide t red)

/-- DONE_FLAG of a CHOSEN entry goes as a FLAG packet, from the port that wrote the selection word. -/
def Chip.redFlagged (s : Chip) (t e : Nat) : Chip :=
  let g := s.gable t
  let r := g.redEntry e
  let sent (s : Chip) : Chip := s.modRed t e fun r => { r with sel := .flagged }
  match s.portFlag (r.copy (decide (r.chosen = 2))).port t (g.redLc e) (g.redFlag e) with
  | .busy h => s.waiting h
  | .ok s _ => sent s
  | .refused s => sent s
  | .uncorr s => sent s
  | .lost s => sent s

/-- SELECTION_ACK (R383): the selection word is acknowledged, one that had to wait being sent first, and a FLAG
packet sets DONE_FLAG. -/
def execSelectionAck (t red : Nat) (s : State) : Out := s.run fun s =>
  onUnit (1 ≤ t && t ≤ 64 && red < 1024)
    (if s.preempted t then s
     else
       let s := if ((s.gable t).redEntry red).sel = .due then s.redSelect t red else s
       if ((s.gable t).redEntry red).sel = .written then s.redFlagged t red else s)

/-! ### Frames and copies (R379, R380, R386 to R388) -/

/-- The frame's step, attempt and contribution match entry `e` of an armed table that matches. -/
def Chip.redMatches (s : Chip) (t e : Nat) (f : Frame) : Bool :=
  let g := s.gable t
  g.redArm && !s.preempted t && decide (f.step = fld (s.reg (.gable t) Off.GB_STEP_NUM) 0 16) &&
    f.attempt = g.redAttempt && f.contrib = g.redContrib e

/-- The first 16 bytes of a SHA-256, as a number. -/
def half256 (bs : List Byte) : BitVec 128 := BitVec.ofNat 128 (leNat ((sha256 bs).take 16))

/-- The digest term of line `n` of a contribution (R388). -/
def lineDigest (contrib n : Nat) (line : List Byte) : BitVec 128 :=
  half256 (leBytes 2 contrib ++ leBytes 4 n ++ line)

/-- A copy with the lines of a frame taken in: their digest on first acceptance. -/
def CopyState.take (c : CopyState) (f : Frame) : CopyState :=
  let n0 := f.offset / 64
  let fresh := (List.range (f.payload.length / 64)).filter fun i => !(n0 + i ∈ c.lines)
  { c with
    lines := c.lines ++ fresh.map (n0 + ·)
    digest := fresh.foldl (fun d i => d + lineDigest f.contrib (n0 + i) (slice f.payload (64 * i) 64)) c.digest
    len := if f.last then some (f.offset + f.payload.length) else c.len }

/-- Every byte before the last-marked frame's end has arrived. -/
def CopyState.whole (c : CopyState) : Bool := match c.len with
  | some n => (List.range (n / 64)).all fun i => i ∈ c.lines
  | none => false

/-- A frame of a RECV entry's copy that came to port `p` with priority `prio`: to be written to its staging region,
stamped when it gives the copy its last missing bytes. -/
def Chip.redFrame (s : Chip) (p prio t e : Nat) (backup : Bool) (f : Frame) (stamp : W) : Chip :=
  let g := s.gable t
  if (g.redEntry e).state = 4 then s.count (.gable t) Off.GB_RED_LATE 1
  else if f.offset + f.payload.length > g.redMaxlen e then
    (s.count (.gable t) Off.GB_RED_NOMATCH 1).modRed t e fun r => r.modCopy backup fun c => { c with broken := true, cut := true }
  else
    let s := s.modRed t e fun r => r.modCopy backup fun c =>
      let was := c.whole
      let c := c.take f
      if !was && c.whole then { c with stamp := some stamp, port := p } else c
    let piece (i : Nat) : PortWrite := ⟨t, some (e, backup), g.redLc e, g.redStage e backup + f.offset + storePiece * i,
      slice f.payload (storePiece * i) (min storePiece (f.payload.length - storePiece * i)), prio⟩
    let ws := (List.range ((f.payload.length + storePiece - 1) / storePiece)).map piece
    (s.modEave p fun x => { x with waiting := x.waiting ++ ws }).drainPort p

/-- RECV entries a frame matches, each with whether it is the backup's copy. -/
def Chip.redTargets (s : Chip) (t : Nat) (f : Frame) : List (Nat × Bool) :=
  let g := s.gable t
  g.redUsed.filterMap fun e =>
    if g.redKind e ≠ 1 || !s.redMatches t e f then none
    else if f.srcEngine = g.redPrimary e then some (e, false)
    else if g.redHasBackup e && f.srcEngine = g.redBackup e then some (e, true)
    else none

/-- An accepted DATA frame at the receive table of its gable (R422). -/
def Chip.redReceive (s : Chip) (p prio t : Nat) (f : Frame) (stamp : W) : Chip :=
  match s.redTargets t f with
  | [] => s.count (.gable t) Off.GB_RED_NOMATCH 1
  | l => l.foldl (fun s q => s.redFrame p prio t q.1 q.2 f stamp) s

/-- A DATA frame sent for the first time, at the SEND entry it matches (R379, R391, R418). -/
def Chip.redSent (s : Chip) (t : Nat) (f : Frame) : Chip :=
  let g := s.gable t
  match g.redUsed.find? fun e => g.redKind e = 2 && s.redMatches t e f with
  | none => s
  | some e => s.modRed t e fun r => { r with
      primary := { r.primary.take f with stamp := some s.now }
      len := r.len + f.payload.length
      state := if f.last then 5 else r.state }

/-! ### Digests (R389) -/

/-- A write of GB_RED_DIGEST_CMD: LAYER is kept; GO starts the computation. -/
def Chip.digestWrite (s : Chip) (t : Nat) (v : W) : Chip :=
  let s := s.setReg (.gable t) Off.GB_RED_DIGEST_CMD (BitVec.ofNat 64 (fld v 0 16))
  if bit v 16 && (s.gable t).redDigest.isNone then s.modGable t fun g => { g with redDigest := some (fld v 0 16) } else s

/-- The layer digest over entries of `kind` (1 RECV, 2 SEND). -/
def Gable.layerDigest (g : Gable) (kind layer : Nat) : List Byte :=
  (g.redUsed.filter fun e => g.redKind e = kind && g.redLayer e = layer).foldl (fun d e =>
    let r := g.redEntry e
    let c : BitVec 128 :=
      if kind = 2 || r.chosen = 1 then r.primary.digest
      else if r.chosen = 2 then r.backup.digest else 0#128
    (sha256 (d ++ leBytes 16 c.toNat ++ leBytes 2 (g.redPrimary e) ++ leBytes 2 (g.redContrib e))).take 16)
    (leBytes 16 0)

/-- DIGEST_COMPLETE (R389, R390). -/
def execDigestComplete (t : Nat) (s : State) : Out := s.run fun s =>
  onUnit (1 ≤ t && t ≤ 64)
    (let g := s.gable t
     let pg := PageRef.gable t
     match g.redDigest with
     | none => s
     | some layer =>
       let w (d : List Byte) (i : Nat) : W := BitVec.ofNat 64 (leNat (slice d (8 * i) 8))
       let ds := g.layerDigest 2 layer
       let dr := g.layerDigest 1 layer
       let s := s.modGable t fun g => { g with redDigest := none }
       (((s.setReg pg Off.GB_RED_DSENT_LO (w ds 0)).setReg pg Off.GB_RED_DSENT_HI (w ds 1)).setReg
         pg Off.GB_RED_DRECV_LO (w dr 0)).setReg pg Off.GB_RED_DRECV_HI (w dr 1))

/-! ### Pre-emption (R387) -/

/-- The pre-emption command stops the table's matching: a copy that is not complete then never is, and does not hold
its entry from MISSING. -/
def RedEntry.halt (r : RedEntry) : RedEntry :=
  let f (c : CopyState) : CopyState := if c.complete then c else { c with broken := true, cut := true }
  { r with primary := f r.primary, backup := f r.backup }

end Sys2Proof.Machine
end

