-- ==== Sys2Proof/Machine/Eave.lean ====
section
/-! DEFINITION. The eave ports (R393 to R430): links, sessions, sending, receiving, acknowledging,
retransmission, rates, pause. -/

namespace Sys2Proof.Machine

open Sys2Proof

/-- Bytes of a whole frame, from destination MAC to FCS, with `len` payload bytes. -/
def wireBytes (ip : Bool) (len : Nat) : Nat := (if ip then 118 else 70) + len

end Sys2Proof.Machine

namespace Sys2Proof

open Sys2Proof.Machine

/-! ### A received frame (R403, R421) -/

/-- A field of a received header. -/
def RxFrame.hf (rx : RxFrame) (off len : Nat) : Nat := recFld rx.header off len
def RxFrame.type (rx : RxFrame) : Nat := rx.hf 0 1 % 16

/-- The Form check of R421. -/
def RxFrame.formBad (rx : RxFrame) (ip : Bool) : Bool :=
  let len := rx.hf 14 2
  let size := rx.len ≠ wireBytes ip len - (if rx.tags = 0 then 4 else 0) || rx.body.length ≠ len
  rx.hf 0 1 / 16 ≠ 1 || rx.hf 4 2 ≥ 2048 || rx.hf 6 2 ≥ 2048 || size ||
    (match rx.type with
     | 1 => rx.hf 1 1 ≥ 2 || rx.hf 19 1 ≠ 0 || rx.hf 22 2 ≠ 0 || rx.hf 28 4 ≠ 0 || len % 64 ≠ 0 || len < 64 || len > 8192 ||
         rx.hf 24 4 % 64 ≠ 0 || rx.hf 24 4 ≥ 2 ^ 23
     | 2 => rx.hf 1 1 ≠ 0 || len ≠ 0 || rx.hf 22 1 ≥ 2 || rx.hf 23 1 ≠ 0
     | _ => true)

/-- The ACK covers a PSN. -/
def RxFrame.covers (rx : RxFrame) (psn : Nat) : Bool :=
  let cum := rx.hf 16 6
  decide (psn < cum) || (decide (cum < psn) && decide (psn ≤ cum + 64) && (rx.hf 24 8).testBit (psn - cum - 1))

end Sys2Proof

namespace Sys2Proof.Machine

open Sys2Proof

/-! ### Links (R395 to R399) -/

/-- Lane groups a link may train to, widest first, lowest lane first. -/
def laneGroups (mode link : Nat) : List (List Nat) :=
  let base := 4 * link
  let grp (w n : Nat) : List (List Nat) := (List.range n).map fun i => (List.range w).map fun k => base + w * i + k
  if mode = 0 then grp 8 1 ++ grp 4 2 ++ grp 2 4 ++ grp 1 8 else grp 4 1 ++ grp 2 2 ++ grp 1 4

/-- The lanes a link takes when `ns` work; empty when none does. -/
def trainedLanes (mode link : Nat) (ns : List Nat) : List Nat :=
  ((laneGroups mode link).find? fun g => g.all fun l => l ∈ ns).getD []

/-- TRAIN = 1: every link of the port that is not UP retrains, one that retrains on its own going on; without an attach
cluster both go OUT (R394, R398). -/
def Chip.portTrain (s : Chip) (p : Nat) : Chip :=
  if s.attachOk p && !s.module.ebTakes then
    (s.evLinks p).foldl (fun s l => match (s.evLink p l).state with
      | .up | .training => s
      | .down | .out => s.modEvLink p l fun x => { x with state := .training, own := false }) s
  else [0, 1].foldl (fun s l => match (s.evLink p l).state with
    | .up | .out => s
    | .down | .training => s.evLinkOut p l) s

/-- A write of EV_TRAIN_CMD (R399, R650). -/
def Chip.trainWrite (s : Chip) (p : Nat) (v : W) : Chip :=
  if bit v 0 && bit v 1 then s
  else if bit v 0 then s.portTrain p
  else if bit v 1 then (s.evLinks p).foldl (fun s l => if (s.evLink p l).state = .out then s else s.evLinkOut p l) s
  else s

/-- Ten milliseconds: the time of three retrains (R398). -/
def retrainNs : Nat := 10000000

/-- A link without lock retrains on its own, up to three times in 10 ms; after that it is OUT (R398). -/
def Chip.selfTrain (s : Chip) (p l : Nat) : Chip :=
  let x := s.evLink p l
  let recent := x.retrains.filter fun t => decide ((s.now - t).toNat ≤ retrainNs)
  if recent.length ≥ 3 || decide ((s.now - x.lostAt).toNat > retrainNs) then s.evLinkOut p l
  else (s.modEvLink p l fun x => { x with state := .training, own := true, retrains := recent ++ [s.now] }).syncHolds

/-- LINK_LOCK_LOSS (R398): an UP link retrains on its own. -/
def execLinkLockLoss (p link : Nat) (s : State) : Out := s.run fun s =>
  onUnit (p < 32 && link < 2)
    (if (s.evLink p link).state ≠ .up || !s.powered then s
     else (s.modEvLink p link fun x => { x with lostAt := s.now }).selfTrain p link)

/-! ### Protection and layers (R401, R403, R404) -/

/-- The Eave header of a DATA frame. -/
def dataHeader (f : Frame) (len : Nat) : List Byte :=
  leBytes 1 0x11 ++ leBytes 1 (b2n f.last) ++ leBytes 2 f.session ++ leBytes 2 f.srcEngine ++ leBytes 2 f.dstEngine ++
    leBytes 6 f.psn ++ leBytes 2 len ++ leBytes 2 f.step ++ leBytes 1 f.attempt ++ leBytes 1 0 ++ leBytes 2 f.contrib ++
    leBytes 2 0 ++ leBytes 4 f.offset ++ leBytes 4 0

/-- The Eave header of an ACK. -/
def ackHeader (x : Session) (src cum sack : Nat) : List Byte :=
  leBytes 1 0x12 ++ leBytes 1 0 ++ leBytes 2 x.id ++ leBytes 2 src ++ leBytes 2 x.peer ++ leBytes 6 x.ackPsn ++
    leBytes 2 0 ++ leBytes 6 cum ++ leBytes 1 (b2n x.echo) ++ leBytes 1 0 ++ leBytes 8 sack

/-- The nonce of R404, its first byte least significant. -/
def nonceOf (salt : BitVec 32) (src type psn : Nat) : BitVec 96 :=
  BitVec.ofNat 96 (salt.toNat + (src % 4096 + type * 4096) <<< 32 + psn <<< 48)

/-- Ones'-complement sum of 16-bit network-order words. -/
def inetSum : List Byte → Nat → Nat
  | a :: b :: l, n => inetSum l (n + a.toNat * 256 + b.toNat)
  | [a], n => n + a.toNat * 256
  | [], n => n

def inetFold (n : Nat) : Nat :=
  let n := n % 65536 + n / 65536
  let n := n % 65536 + n / 65536
  n % 65536 + n / 65536

/-- CRC-32 of IEEE 802.3 over a frame, the FCS of its last 4 bytes (R400, R401, log entry 57). -/
def crc32 (bs : List Byte) : BitVec 32 :=
  let step (c : BitVec 32) (_ : Nat) : BitVec 32 := (c >>> 1) ^^^ (if c.getLsbD 0 then 0xEDB88320#32 else 0#32)
  ~~~(bs.foldl (fun c b => (List.range 8).foldl step (c ^^^ b.setWidth 32)) 0xFFFFFFFF#32)

/-- What lies before the Eave header of a frame whose Eave header, body and tag are `eave` (R401). -/
def Chip.outerBytes (s : Chip) (p : Nat) (x : Session) (eave : List Byte) : List Byte :=
  let cfg := s.evReg p Off.EV_CFG
  let ic := s.evReg p Off.EV_IP_CFG
  let be := Sha.beBytes
  let eth := x.mac ++ be 6 (fld (s.evReg p Off.EV_MAC) 0 48) ++ be 2 0x8100 ++ be 2 (x.prio * 8192) ++
    be 2 (if s.evIp p then 0x86DD else fld cfg 16 16)
  if !s.evIp p then eth
  else
    let n := eave.length + 8
    let src := be 8 (s.evReg p Off.EV_IP6_HI).toNat ++ be 8 (s.evReg p Off.EV_IP6_LO).toNat
    let port := be 2 (fld ic 16 16)
    let head := be 4 (6 <<< 28 + (fld ic 0 6 * 4 + 2) <<< 20 + x.id) ++ be 2 n ++ be 1 17 ++ be 1 (fld ic 8 8)
    let pseudo := src ++ x.ip6 ++ be 4 n ++ be 4 17
    let sum := 65535 - inetFold (inetSum (pseudo ++ port ++ port ++ be 2 n ++ eave) 0)
    eth ++ head ++ src ++ x.ip6 ++ port ++ port ++ be 2 n ++ be 2 (if sum = 0 then 65535 else sum)

/-- The Eave header, the encrypted payload and the tag of a frame (R404). -/
def sealFrame (x : Session) (src type psn : Nat) (header plain : List Byte) : List Byte :=
  let (key, salt) := x.key.getD (0#256, 0#32)
  let (ct, tag) := gcmSeal key (nonceOf salt src type psn) (BitVec.ofNat 256 (leNat header)) plain
  header ++ ct ++ leBytes 16 tag.toNat

/-- A frame leaves by the session's link, from its destination MAC to its FCS. -/
def Chip.sendFrame (s : Chip) (p : Nat) (x : Session) (outer eave : List Byte) : Chip :=
  let bs := outer ++ eave
  (s.emit (.frame p x.link (bs ++ leBytes 4 (crc32 bs).toNat))).count (.eave p) Off.EV_TX_FRAMES 1

/-! ### Acknowledgements sent (R408, R412) -/

/-- A frame of the session may start: it holds its key, its link is UP, and its priority is not paused. -/
def Chip.mayStart (s : Chip) (p : Nat) (x : Session) : Bool :=
  s.powered && x.key.isSome && decide ((s.evLink p x.link).state = .up) && SMap.get 0 (s.eave p).paused x.prio = 0

/-- Bytes a session's allowance holds at most, in 1/80 byte (R411). -/
def allowMax : Nat := 8310 * 80

/-- The allowance brought up to `now`. -/
def Session.fill (x : Session) (now : W) : Session :=
  { x with allow := min allowMax (x.allow + x.rate * (now - x.allowAt).toNat), allowAt := now }

/-- The session's allowance holds a frame with `len` payload bytes. -/
def Chip.allows (s : Chip) (p : Nat) (x : Session) (len : Nat) : Bool :=
  decide ((x.fill s.now).allow ≥ 80 * wireBytes (s.evIp p) len)

/-- A frame with `len` payload bytes taken from the allowance. -/
def Chip.spend (s : Chip) (p i len : Nat) : Chip :=
  s.modSession p i fun x =>
    let x := x.fill s.now
    { x with allow := x.allow - 80 * wireBytes (s.evIp p) len }

/-- An ACK of session `i` is owed; it goes at once when a frame may start and the allowance holds it. -/
def Chip.sendAck (s : Chip) (p i : Nat) : Chip :=
  let x := s.session p i
  if x.state ≠ 1 then s
  else if !s.mayStart p x || !s.allows p x 0 then s.modSession p i fun x => { x with ackDue := true }
  else
    let sack := (List.range 64).foldl (fun n j => if x.rxCum + 1 + j ∈ x.rxSeen then n + 2 ^ j else n) 0
    let bs := sealFrame x s.fabricId 2 x.ackPsn (ackHeader x s.fabricId x.rxCum sack) []
    let s := (s.sendFrame p x (s.outerBytes p x bs) bs).spend p i 0
    s.modSession p i fun x => { x with
      ackPsn := x.ackPsn + 1, sinceAck := 0, ackDue := false, echo := false
      state := if x.ackPsn + 1 ≥ 2 ^ 48 then 3 else x.state }

/-- ACKs owed go out when the port lets their sessions start frames again. -/
def Chip.flushAcks (s : Chip) (p : Nat) : Chip :=
  ((s.eave p).sessions.filter fun q => q.2.ackDue).foldl (fun s q => s.sendAck p q.1) s

/-- The end of a training: lanes `ns` work (R396, R398). -/
def Chip.retrainEnd (s : Chip) (p link : Nat) (ns : List Nat) : Chip :=
  let x := s.evLink p link
  if x.state ≠ .training then s
  else
    let lanes := trainedLanes (s.evMode p) link ns
    let enough := lanes.length ≥ 1 && lanes.length ≥ fld (s.evReg p Off.EV_CFG) 4 4
    if enough then
      let s := s.modEvLink p link fun x => { x with state := .up, lanes, own := false }
      let s := if x.own && x.lanes.length ≠ lanes.length then s.raise (.eave p) 5 else s
      (s.syncHolds.flushAcks p).pfcCheck p
    else if x.own then s.selfTrain p link
    else s.evLinkOut p link

/-- EAVE_RETRAIN_END (R396, R398). -/
def execEaveRetrainEnd (p link : Nat) (ns : List Nat) (s : State) : Out := s.run fun s =>
  onUnit (p < 32 && link < 2) (s.retrainEnd p link ns)

/-! ### Sessions (R426, R428, R429) -/

/-- The check of ENABLE on entry `i`. -/
def Chip.sessionVerdict (s : Chip) (p i : Nat) : Verdict :=
  let e := s.eave p
  let x := e.session i
  let w0 := x.word 0
  let at_ (c : Nat) : Nat × Nat × Nat := (c, Off.EV_SESS_CMD, i)
  let t := x.tintOf
  leastIdx (failsOf [
    (decide (t < 1 ∨ t > 64) || decide (x.window < 1 ∨ x.window > 1024) || (x.link = 1 && s.evMode p = 0) ||
      x.peer = s.fabricId, at_ 0x0101),
    (bit w0 23 || fld w0 28 4 ≠ 0 || fld w0 43 5 ≠ 0 || fld (x.word 1) 48 16 ≠ 0 || x.word 4 ≠ 0#64, at_ 0x0103),
    (e.sessions.any fun q => q.1 ≠ i && (q.2.state ≠ 0 || !q.2.words.isEmpty) && q.2.id = x.id, at_ 0x0201),
    (x.key.isNone || (e.linkOf x.link).state ≠ .up, at_ 0x0301),
    (!(s.gable t).page.enable, at_ 0x0401)])

/-- ENABLE admitted: OPEN, both PSN streams and the replay window at 0. -/
def Chip.sessionOpen (s : Chip) (p i : Nat) : Chip :=
  s.modSession p i fun x => { words := x.words, key := x.key, state := 1,
                              rate := fld (s.evReg p Off.EV_RC_CFG) 0 16, allow := allowMax, allowAt := s.now }

/-- The OPEN session of a port with an ID. -/
def Eave.openWith (e : Eave) (id : Nat) : Option (Nat × Session) :=
  e.sessions.find? fun q => q.2.state = 1 && q.2.id = id

/-- DISABLE: the key erased, the sends on it stopped without DONE_FLAG. An EXHAUSTED entry may hold an ID that another
session is OPEN with by now, whose sends go on. -/
def Chip.sessionClose (s : Chip) (p i : Nat) : Chip :=
  let x := s.session p i
  s.modEave p fun e => { e with
    sends := if x.state ≠ 1 && (x.state ≠ 3 || (e.openWith x.id).isSome) then e.sends
      else e.sends.filter fun d => recFld d.desc 4 2 ≠ x.id
    sessions := SMap.set {} e.sessions i x.disable }

/-- A write of EV_SESS_CMD (R426, R650). ENABLE of an entry that is not IDLE does nothing (log entry 21). -/
def Chip.sessCmdWrite (s : Chip) (p : Nat) (v : W) : Chip :=
  let i := fld v 0 9
  if bit v 9 && bit v 10 then s
  else if bit v 9 then
    if (s.session p i).state = 0 then s.modPage (.eave p) fun g => { g with check := some (.session i) } else s
  else if bit v 10 then s.sessionClose p i
  else s

/-- An access to EV_SESS_DATA: the word, its write, the address advanced. -/
def Chip.sessAccess (s : Chip) (p : Nat) (wr : Option W) : W × Chip :=
  let pg := PageRef.eave p
  let a := s.reg pg Off.EV_SESS_ADDR
  let w := fld a 0 3
  let i := fld a 3 9
  let x := s.session p i
  let v : W :=
    if w < 5 then x.word w
    else if w = 5 then BitVec.ofNat 64 (x.txPsn % 2 ^ 48)
    else if w = 6 then BitVec.ofNat 64 (x.rxH + x.state <<< 48 + b2n x.key.isSome <<< 56)
    else 0#64
  let s := match wr with
    | some n => if w < 5 && x.state ≠ 1 then s.modSession p i fun x => { x with words := SMap.set 0#64 x.words w n } else s
    | none => s
  (v, s.setReg pg Off.EV_SESS_ADDR (BitVec.ofNat 64 ((fld a 0 12 + 1) % 4096)))

/-! ### Posts and descriptors (R413 to R416) -/

/-- POST_RECEIVE (R414): the oldest packet that reached the port. -/
def execPostReceive (p : Nat) (s : State) : Out := s.run fun s =>
  onUnit (p < 32)
    (match (s.eave p).arrived with
     | [] => s
     | k :: rest =>
       let cl := eaveCluster p
       let s0 := s
       let s := s.modEave p fun e => { e with arrived := rest }
       if !s.powered || k.ptype ≥ 6 then s
       else if k.ptype = 3 || k.ptype = 4 || k.ptype = 5 then s.count (.cluster cl) Off.CL_RT_LATE 1
       else if !s.answerRoom cl k then s0
       else if k.ptype ≠ 1 || k.destUnit ≠ 0x12 then s.ackErr cl k
       else if (s.eave p).posts.length ≥ 1024 then
         let s := s.modReg (.eave p) Off.EV_POSTQ fun v => setBit v 16
         (s.raiseWith (.eave p) 2 (some .gableFatal) 0 k.tint false).ackErr cl k
       else (s.modEave p fun e => { e with posts := e.posts ++ [⟨k.srcLC, k.tint, k.addr % 2 ^ 24⟩] }).ack cl k)

/-- A descriptor that R416 does not let the port perform. -/
def Chip.sendBad (s : Chip) (p tint : Nat) (d : BitVec 512) : Bool :=
  let src := recFld d 8 4
  let len := recFld d 12 4
  let off := recFld d 16 4
  let frame := recFld d 20 2
  let open_ := match (s.eave p).openWith (recFld d 4 2) with
    | some (_, x) => decide (x.tintOf = tint)
    | none => false
  recFld d 0 1 ≠ 1 || recFld d 1 1 ≥ 4 || recFld d 22 2 ≠ 0 || recFld d 28 36 ≠ 0 || src % 64 ≠ 0 || len % 64 ≠ 0 ||
    len < 64 || len > 2 ^ 23 || off % 64 ≠ 0 || frame % 64 ≠ 0 || frame < 64 || frame > 8192 ||
    src + len > storeSize || off + len > 2 ^ 23 || !open_

/-- SEND_DESCRIPTOR_READ (R415, R416): the oldest post's descriptor, checked and started. A post whose descriptor is
not read, its READ_REQ refused or lost, starts nothing (log entry 57). -/
def execSendDescriptorRead (p : Nat) (s : State) : Out := s.run fun s =>
  onUnit (p < 32)
    (let e := s.eave p
     match e.posts with
     | [] => s
     | q :: rest =>
       if e.sends.length ≥ 16 || s.preempted q.tint then s
       else
         let took (s : Chip) : Chip := s.modEave p fun e => { e with posts := rest }
         match s.portRead p q.tint q.lc q.desc 64 with
         | .busy h => s.waiting h
         | .refused s => took s
         | .uncorr s => took s
         | .lost s => took s
         | .ok s bs =>
           let s := took s
           let d : BitVec 512 := BitVec.ofNat 512 (leNat bs)
           if s.sendBad p q.tint d then
             let s := if bit (s.page (.eave p)).fault 3 then s
               else s.setReg (.eave p) Off.EV_SEND_BAD (BitVec.ofNat 64 (recFld d 24 4 + q.tint <<< 32))
             s.raiseWith (.eave p) 3 (some .gableFatal) 0 q.tint false
           else s.modEave p fun e => { e with
             sends := e.sends ++ [⟨e.nextSend, d, q.lc, q.tint, 0⟩], nextSend := e.nextSend + 1 })

/-! ### Sending (R409, R411, R417, R418) -/

/-- A DATA frame of the session with `len` payload bytes may start. -/
def Chip.mayData (s : Chip) (p : Nat) (x : Session) (len : Nat) : Bool :=
  x.state = 1 && s.mayStart p x && !s.halting && !s.preempted x.tintOf &&
    s.allows p x len

/-- What every DATA frame sent counts, retransmissions included (R423). -/
def Chip.countTx (s : Chip) (p t len : Nat) : Chip :=
  let s := s.modEave p fun e => { e with counters := SMap.upd 0 e.counters (2 * t) (· + len) }
  s.metered t fun m => { m with fabricTx := m.fabricTx + len }

/-- A frame's payload read and the frame sent, with the bytes before its Eave header that its first sending had (R405);
`none` when its payload does not come, else the payload and those bytes. -/
def Chip.startFrame (s : Chip) (p i : Nat) (f : TxFrame) : Option (List Byte × List Byte) × Chip :=
  match s.portRead p (s.session p i).tintOf f.lc f.src f.len with
  | .busy h => (none, s.waiting h)
  | .refused s => (none, s)
  | .uncorr s => (none, s)
  | .lost s => (none, s)
  | .ok s bs =>
    let x := s.session p i
    let eave := sealFrame x f.frame.srcEngine 1 f.frame.psn (dataHeader f.frame f.len) bs
    let outer := if f.outer = [] then s.outerBytes p x eave else f.outer
    let s := (s.sendFrame p x outer eave).spend p i f.len
    (some (bs, outer), s.countTx p x.tintOf f.len)

/-- A frame sent again (R405, R409). -/
def Chip.resend (s : Chip) (p i : Nat) (f : TxFrame) : Chip :=
  match s.startFrame p i f with
  | (none, s) => s
  | (some _, s) =>
    let s := s.count (.eave p) Off.EV_RETX 1
    s.modSession p i fun x => { x with inflight := x.inflight.map fun g =>
      if g.frame.psn = f.frame.psn then { g with sendings := g.sendings + 1, sentAt := s.now, due := false } else g }

/-- Payload bytes of the next frame of a send. -/
def Send.frameLen (d : Send) : Nat := min (recFld d.desc 20 2) (recFld d.desc 12 4 - d.next)

/-- The next frame of a send may start on its session `x`. -/
def Chip.sendReady (s : Chip) (p : Nat) (d : Send) : Bool :=
  match (s.eave p).openWith (recFld d.desc 4 2) with
  | none => false
  | some (_, x) =>
    decide (d.next < recFld d.desc 12 4) && (x.inflight.all fun f => !f.due) && decide (x.inflight.length < x.window) &&
      s.mayData p x d.frameLen

/-- The next frame of a send, built now (R403, R417). -/
def Chip.nextFrame (s : Chip) (d : Send) (x : Session) : TxFrame :=
  let len := d.frameLen
  { frame := {
      session := x.id, srcEngine := s.fabricId, dstEngine := x.peer, psn := x.txPsn
      last := (recFld d.desc 1 1).testBit 1 && decide (d.next + len = recFld d.desc 12 4)
      step := fld (s.reg (.gable x.tintOf) Off.GB_STEP_NUM) 0 16, attempt := (s.gable x.tintOf).redAttempt
      contrib := recFld d.desc 6 2, offset := recFld d.desc 16 4 + d.next }
    len, lc := d.lc, src := recFld d.desc 8 4 + d.next, send := d.id, sentAt := s.now }

/-- The FLAG packet of a send that is complete: whether it went. -/
def Chip.sendDone (s : Chip) (p : Nat) (d : Send) : Chip × Bool :=
  if !(recFld d.desc 1 1).testBit 0 then (s, true)
  else match s.portFlag p d.tint d.lc (recFld d.desc 2 2) with
    | .busy h => (s.waiting h, false)
    | .ok s _ => (s, true)
    | .refused s => (s, true)
    | .uncorr s => (s, true)
    | .lost s => (s, true)

/-- A send with every frame built and covered is complete: its DONE_FLAG is set (R418). -/
def Chip.finishSends (s : Chip) (p : Nat) : Chip :=
  let e := s.eave p
  let busy (d : Send) : Bool := e.sessions.any fun q => q.2.inflight.any fun f => f.send = d.id
  let ended (d : Send) : Bool := decide (d.next ≥ recFld d.desc 12 4) && !busy d && !s.preempted d.tint
  (e.sends.filter ended).foldl (fun s d =>
    match s.sendDone p d with
    | (s, false) => s
    | (s, true) => s.modEave p fun e => { e with sends := e.sends.filter fun x => x.id ≠ d.id }) s

/-- FRAME_SEND (R409, R417): a complete send whose FLAG packet had to wait ends, and the port starts one frame of session entry `n`: a frame due again first, else
the next frame of the send whose turn it is. -/
def execFrameSend (p n : Nat) (s : State) : Out := s.run fun s =>
  onUnit (p < 32)
    (let s := (s.flushAcks p).finishSends p
     let x := s.session p n
     match x.inflight.find? (·.due) with
     | some f => if s.mayData p x f.len then s.resend p n f else s
     | none =>
       match (s.eave p).sends.find? (s.sendReady p) with
       | none => s
       | some d =>
         if recFld d.desc 4 2 ≠ x.id || x.state ≠ 1 then s
         else
           let f := s.nextFrame d x
           match s.startFrame p n f with
           | (none, s) => s
           | (some (bs, outer), s) =>
             let s := s.modSession p n fun x => { x with
               txPsn := x.txPsn + 1, inflight := x.inflight ++ [{ f with outer }]
               state := if x.txPsn + 1 ≥ 2 ^ 48 then 3 else x.state }
             let s := s.modEave p fun e => { e with sends := e.sends.erase d ++ [{ d with next := d.next + f.len }] }
             s.redSent x.tintOf { f.frame with payload := bs })

/-! ### Rates (R411) -/

/-- No decrease in the last INTERVAL_US. -/
def Chip.steady (s : Chip) (p : Nat) (x : Session) : Bool :=
  match x.decreasedAt with
  | none => true
  | some t => decide ((s.now - t).toNat ≥ 1000 * fld (s.evReg p Off.EV_RC_CFG) 48 16)

/-- A decrease, unless one lies in the last interval. -/
def Chip.slowDown (s : Chip) (p i : Nat) : Chip :=
  let c := s.evReg p Off.EV_RC_CFG
  if !s.steady p (s.session p i) then s
  else
    let s := s.modSession p i fun x =>
      let x := x.fill s.now
      { x with rate := max (fld c 16 16) (x.rate * fld c 32 8 / 256), decreasedAt := some s.now }
    s.count (.eave p) Off.EV_RC_DECREASE 1

/-- RATE_INTERVAL (R411): an interval without a decrease raises RATE by AI, up to the link rate. -/
def execRateInterval (p entry : Nat) (s : State) : Out := s.run fun s =>
  onUnit (p < 32 && entry < 512)
    (let x := s.session p entry
     let c := s.evReg p Off.EV_RC_CFG
     let s := s.flushAcks p
     if x.state ≠ 1 || !s.steady p x then s
     else s.modSession p entry fun x =>
       let x := x.fill s.now
       { x with rate := min (2000 * (s.evLink p x.link).lanes.length) (x.rate + fld c 40 8) })

/-! ### Retransmission by timer (R409, R410) -/

/-- SESSION_FAIL (R410). -/
def Chip.sessionFail (s : Chip) (p i : Nat) : Chip :=
  let t := (s.session p i).tintOf
  (s.failSession p i).raiseWith (.eave p) 0 (some .contained) 0 t false

/-- A frame is to be sent again, unless it has been sent MAX_RETX times. -/
def Chip.markDue (s : Chip) (p i psn : Nat) (timer : Bool) : Chip :=
  match (s.session p i).inflight.find? fun f => f.frame.psn = psn with
  | none => s
  | some f =>
    if f.sendings ≥ fld (s.evReg p Off.EV_RTO) 32 8 then s.sessionFail p i
    else s.modSession p i fun x => { x with inflight := x.inflight.map fun g =>
      if g.frame.psn = psn then { g with due := true, fastResent := !timer } else g }

/-- RTO_EXPIRE (R409): no accepted ACK covers the frame of PSN `n` EV_RTO.NS after its last sending. -/
def execRtoExpire (p entry n : Nat) (s : State) : Out := s.run fun s =>
  onUnit (p < 32 && entry < 512)
    (let e := s.eave p
     let x := e.session entry
     match x.inflight.find? fun f => f.frame.psn = n with
     | none => s
     | some f =>
       if x.state ≠ 1 || f.due || s.timersHold e x ||
           decide ((s.now - f.sentAt).toNat ≤ fld (s.evReg p Off.EV_RTO) 0 32) then s
       else
         let s := s.markDue p entry n true
         if (s.session p entry).state ≠ 1 then s
         else (s.count (.eave p) Off.EV_RTO_FIRES 1).slowDown p entry)

/-! ### Receiving (R403, R407, R420 to R423) -/

/-- A stranger at a port: counted, and the first recorded. -/
def Chip.evStranger (s : Chip) (p off check sess : Nat) : Chip :=
  let pg := PageRef.eave p
  let s := s.count pg off 1
  let s := if bit (s.reg pg Off.EV_STRANGER) 0 then s
    else (s.setReg pg Off.EV_STRANGER (BitVec.ofNat 64 (1 + check <<< 4 + sess <<< 16))).setReg pg Off.EV_STRANGER_TIME s.now
  s.raise pg 4

/-- The checks of R421 up to the Tag: the session and the plaintext of a frame that passes, or the state
after the frame is discarded. -/
def Chip.rxCheck (s : Chip) (p link : Nat) (rx : RxFrame) : Except Chip (Nat × List Byte) :=
  let pg := PageRef.eave p
  let ip := s.evIp p
  let etype := if ip then 0x86DD else fld (s.evReg p Off.EV_CFG) 16 16
  let addr : BitVec 128 := (s.evReg p Off.EV_IP6_HI) ++ (s.evReg p Off.EV_IP6_LO)
  let sess := rx.hf 2 2
  if !rx.fecOk then .error (s.count pg Off.EV_FEC_UNCORR 1)
  else if !rx.fcsOk then .error (s.count pg Off.EV_FCS_ERR 1)
  else if rx.len < 64 || rx.len > 9216 || rx.destMac.toNat ≠ fld (s.evReg p Off.EV_MAC) 0 48 || rx.tags > 1 then
    .error (s.evStranger p Off.EV_STR_L2 1 0)
  else if rx.pause then .error (s.count pg Off.EV_PAUSE_DROP 1)
  else if rx.etherType ≠ etype then .error (s.evStranger p Off.EV_STR_L2 2 0)
  else if ip && (rx.ipDst ≠ addr || rx.ipExt || !rx.udp || rx.udpPort ≠ fld (s.evReg p Off.EV_IP_CFG) 16 16 || !rx.csumOk) then
    .error (s.evStranger p Off.EV_STR_IP 3 0)
  else if rx.formBad ip then .error (s.evStranger p Off.EV_STR_FORM 4 sess)
  else match (s.eave p).openWith sess with
    | none => .error (s.evStranger p Off.EV_STR_SESSION 5 sess)
    | some (i, x) =>
      if x.link ≠ link || rx.hf 4 2 ≠ x.peer then .error (s.evStranger p Off.EV_STR_SESSION 5 sess)
      else if rx.hf 6 2 ≠ s.fabricId then .error (s.evStranger p Off.EV_STR_ENGINE 6 sess)
      else
        match x.key.bind fun k => gcmOpen k.1 (nonceOf k.2 (rx.hf 4 2) rx.type (rx.hf 8 6)) rx.header rx.body rx.tag with
        | none => .error (s.evStranger p Off.EV_STR_AUTH 7 sess)
        | some plain => .ok (i, plain)

/-- The lowest PSN not accepted, from `c` on. -/
def advanceCum (seen : List Nat) : Nat → Nat → Nat
  | 0, c => c
  | n + 1, c => if c ∈ seen then advanceCum seen n (c + 1) else c

/-- A PSN accepted into the record of R407. -/
def Session.accept (x : Session) (psn : Nat) (now : W) : Session :=
  let h := max x.rxH psn
  let seen := psn :: x.rxSeen
  { x with
    rxH := h, rxCum := advanceCum seen 1025 x.rxCum
    rxSeen := seen.filter fun q => q + 1023 ≥ h
    sinceAck := x.sinceAck + 1, firstAt := if x.sinceAck = 0 then now else x.firstAt }

/-- An authenticated DATA frame (R407, R408, R412, R422, R423). One the receive buffer has no room for is lost (log
entry 57). -/
def Chip.rxData (s : Chip) (p i : Nat) (rx : RxFrame) (plain : List Byte) : Chip :=
  let x := s.session p i
  let psn := rx.hf 8 6
  if psn + 1023 < x.rxH then s.evStranger p Off.EV_STR_REPLAY 8 (rx.hf 2 2)
  else
    let s := if s.evIp p && rx.ce then
        (s.modSession p i fun x => { x with echo := true }).count (.eave p) Off.EV_ECN_CE 1
      else s
    if psn ∈ x.rxSeen then (s.count (.eave p) Off.EV_DUP 1).sendAck p i
    else if (s.eave p).held + plain.length > rxBuffer then s
    else
      let t := x.tintOf
      let s := s.modSession p i fun x => x.accept psn s.now
      let s := s.modEave p fun e => { e with counters := SMap.upd 0 e.counters (2 * t + 1) (· + plain.length) }
      let s := s.metered t fun m => { m with fabricRx := m.fabricRx + plain.length }
      let f : Frame := {
        session := rx.hf 2 2, srcEngine := rx.hf 4 2, dstEngine := rx.hf 6 2, psn, last := (rx.hf 1 1).testBit 0
        step := rx.hf 16 2, attempt := rx.hf 18 1, contrib := rx.hf 20 2, offset := rx.hf 24 4, payload := plain }
      let s := s.redReceive p x.prio t f s.now
      let y := s.session p i
      if psn > y.rxCum || f.last || y.sinceAck ≥ fld (s.evReg p Off.EV_ACK_CFG) 0 8 then s.sendAck p i else s

/-- An authenticated ACK (R407, R409, R411, R418). -/
def Chip.rxAck (s : Chip) (p i : Nat) (rx : RxFrame) : Chip :=
  let x := s.session p i
  let psn := rx.hf 8 6
  let old := match x.lastAckPsn with | some q => decide (psn ≤ q) | none => false
  if old then s.evStranger p Off.EV_STR_REPLAY 8 (rx.hf 2 2)
  else
    let s := s.modSession p i fun x => { x with
      lastAckPsn := some psn, inflight := x.inflight.filter fun f => !rx.covers f.frame.psn }
    let top := (List.range 64).foldl (fun m j => if (rx.hf 24 8).testBit j then rx.hf 16 6 + 1 + j else m) 0
    let gaps := (s.session p i).inflight.filter fun f => decide (f.frame.psn < top) && !f.fastResent && !f.due
    let s := gaps.foldl (fun s f => s.markDue p i f.frame.psn false) s
    let s := if rx.hf 22 1 = 1 && (s.session p i).state = 1 then s.slowDown p i else s
    s.finishSends p

/-- A received frame at an UP link: counted and checked, then taken by its type. -/
def Chip.frameIn (s : Chip) (p link : Nat) (rx : RxFrame) : Chip :=
  if (s.evLink p link).state ≠ .up || !s.powered then s
  else
    let s := ((s.drainPort p).count (.eave p) Off.EV_RX_FRAMES 1).count (.eave p) Off.EV_FEC_CORR rx.fecCorr
    match s.rxCheck p link rx with
    | .error s => s
    | .ok (i, plain) => if rx.type = 1 then s.rxData p i rx plain else s.rxAck p i rx

/-- DATA_FRAME_RECEIVE (R407, R421, R422). -/
def execDataFrameReceive (p link : Nat) (rx : RxFrame) (s : State) : Out := s.run fun s =>
  onUnit (p < 32 && link < 2) (s.frameIn p link rx)

/-- ACK_FRAME_RECEIVE (R407, R409, R421). -/
def execAckFrameReceive (p link : Nat) (rx : RxFrame) (s : State) : Out := s.run fun s =>
  onUnit (p < 32 && link < 2) (s.frameIn p link rx)

/-- ACK_DELAY_EXPIRE (R408): ACK_DELAY_NS since the first frame accepted after the last ACK. -/
def execAckDelayExpire (p entry : Nat) (s : State) : Out := s.run fun s =>
  onUnit (p < 32 && entry < 512)
    (let x := s.session p entry
     if x.state ≠ 1 || x.sinceAck = 0 || decide ((s.now - x.firstAt).toNat < fld (s.evReg p Off.EV_ACK_CFG) 16 16) then s
     else s.sendAck p entry)

/-! ### Pause (R402) -/

/-- PFC_FRAME_RECEIVE: `n` quanta for a priority of PRIO_EN; 0 releases it. -/
def execPfcFrameReceive (p prio n : Nat) (s : State) : Out := s.run fun s =>
  onUnit (p < 32 && prio < 8)
    (if !s.powered then s
     else
       let s := (s.count (.eave p) Off.EV_RX_FRAMES 1).count (.eave p) Off.EV_PFC_RX 1
       if !bit (s.evReg p Off.EV_PFC_CFG) (32 + prio) then s
       else (s.modEave p fun e => { e with paused := SMap.set 0 e.paused prio n }).flushAcks p)

/-- PFC_QUANTA_EXPIRE: the priority resumes. -/
def execPfcQuantaExpire (p prio : Nat) (s : State) : Out := s.run fun s =>
  onUnit (p < 32 && prio < 8) ((s.modEave p fun e => { e with paused := SMap.set 0 e.paused prio 0 }).flushAcks p)

/-! ### Post registers (R430) -/

/-- A write of CL_EV_POSTi: refused, or written with its count at zero. -/
def Chip.evPostWrite (s : Chip) (cl i : Nat) (v : W) : Chip :=
  let pg := PageRef.cluster cl
  let v := v &&& 0x80003FFFFF1FFFFF#64
  if bit v 63 && (decide (fld v 0 6 > 47) || decide (fld v 42 4 > 8) || decide ((fld v 24 18 + 2 ^ fld v 42 4) * 64 > storeSize)) then
    s.refuse pg 0x0101 (Off.CL_EV_POST i)
  else (s.setReg pg (Off.CL_EV_POST i) v).modCl cl fun x => { x with postCount := SMap.set 0 x.postCount i 0 }

end Sys2Proof.Machine
end

