-- ==== Sys2Proof/Machine/Preempt.lean ====
section
/-! DEFINITION. Pre-emption and restore of a gable (R277 to R284, R505, R510 to R512). The image of a
cluster is laid in its save area: the parts whose bytes R279 gives as they are, the others as bytes that
belong to the image and that nothing constrains (log entry 22). -/

namespace Sys2Proof.Machine

open Sys2Proof

/-! ### Images (R279 to R282) -/

/-- Physical cores a valid context resolves its core numbers to (R133, R159). -/
def Cluster.resolveCtx (x : Cluster) (ctx : Nat) : Cluster :=
  { x with weave := { x.weave with resolved := (List.range 128).foldl (fun m c =>
      SMap.set 0 m (128 * ctx + c) (x.pcore c + 1)) x.weave.resolved } }

/-- The part of a cluster that the image holds, cores under their logical numbers. -/
def Cluster.image (x : Cluster) : Cluster :=
  { cores := (List.range 128).foldl (fun m c => SMap.set {} m c { x.core (x.pcore c) with lmErr := [], accErr := [] }) []
    weave := { x.weave with resolved := [] }
    dma0 := x.dma0, dma1 := x.dma1, gutter := x.gutter, thatcher := x.thatcher, skylight := x.skylight
    valleys := x.valleys, store := x.store, vft := x.vft, sets := x.sets, deferred := x.deferred, postCount := x.postCount
    page := { regs := x.page.regs.filter fun p => 0x500 ≤ p.1 && p.1 < 0x540 } }

/-- A unit's state from its image: it goes on from PROGRESS, with no answer of an access it waited for; a dispatched
fault is raised again, its record dispatched with REPLAY = 1; a translation held is gone. The page's own fault and
interrupt bits stay, but for XLATE_PARK, which follows the sets and shows in IRQ_STATUS again (R276, R282, R467), and its
telemetry counters, which are no part of the image, stay as well (R279, R468). -/
def Engine.fromImage (now img : Engine) (u : Nat) : Engine :=
  let parked := img.park.any fun p => match p.2 with | some k => k.parked | none => false
  let fault := clrBit now.page.fault (parkBit u)
  { img with
    page := { img.page with
      regs := now.page.regs.foldl (fun m p => if 0xF00 ≤ p.1 then SMap.set 0#64 m p.1 p.2 else m)
        (img.page.regs.filter fun p => p.1 < 0xF00)
      fault := if parked then setBit fault (parkBit u) else fault
      irqStat := if parked then setBit now.page.irqStat (parkBit u) else now.page.irqStat
      irqMask := now.page.irqMask, reports := now.page.reports
      check := now.page.check, refused := now.page.refused, refusal := now.page.refusal, scratch := now.page.scratch }
    trans := none, lost := [], held := [], hand := [], hostReads := []
    park := img.park.map fun p => (p.1, p.2.map fun k =>
      if k.dispatched then { k with dispatched := false, replay := true } else k) }

/-- A core from its image: a rise held is looked at again. -/
def Core.fromImage (img : Core) : Core := if img.wait = .rise then { img with wait := .none } else img

/-- The image written back through the core map of now (R281). -/
def Cluster.restored (x img : Cluster) : Cluster :=
  let regs := img.page.regs.foldl (fun m p => SMap.set 0#64 m p.1 p.2) (x.page.regs.filter fun p => !(0x500 ≤ p.1 && p.1 < 0x540))
  let y : Cluster := { x with
    cores := (List.range 128).foldl (fun m c => SMap.set {} m (x.pcore c) (img.core c).fromImage) x.cores
    weave := { img.weave with waitCount := [], balFaulted := [] }
    dma0 := x.dma0.fromImage img.dma0 0, dma1 := x.dma1.fromImage img.dma1 1, thatcher := x.thatcher.fromImage img.thatcher 2
    gutter := x.gutter.fromImage img.gutter 3, skylight := x.skylight.fromImage img.skylight 4
    valleys := img.valleys, store := img.store, storeErr := [], storeStop := false
    vft := img.vft, sets := img.sets, deferred := img.deferred, postCount := img.postCount
    page := { x.page with regs := regs }
    ctu := { x.ctu with tlb := [], ats := [], pri := [] } }
  (List.range 4).foldl (fun y i => if y.weave.valid.getD i false then y.resolveCtx i else y) y

/-- The cluster once the save has read its store and memories: single-bit errors are corrected and counted (R114,
R171), and whether a word is uncorrectable, which the save does not survive (R278). -/
def Cluster.scanned (x : Cluster) : Cluster × Bool :=
  let (x, bad) := x.storeScan 0 (storeSize / 8)
  let (x, bad) := (List.range 128).foldl (fun (x, bad) c =>
    let (k, b1) := (x.core (x.pcore c)).lmScan 0 6144
    let (k, b2) := k.accScan 0 2048
    (x.modCore (x.pcore c) fun _ => k, bad || b1 || b2)) (x, bad)
  let item (m : SMap (List Item)) : Bool := m.any fun q => q.2.any (·.bad)
  (x, bad || x.weave.imgErr.any (fun p => p.2 = some true) || item x.weave.inq || item x.weave.outq)

/-! ### Bytes of an image (R279) -/

/-- Where the local memories, the accumulator files and the context images begin. -/
def lmPart : Nat := 12582912
def accPart : Nat := 18874368
def ctxPart : Nat := 19988480

def shiftUp (n : Nat) (m : List Host.Cell) : List Host.Cell := m.map fun p => (n + p.1, p.2)

/-- The cells of `[lo, lo + n)`, counted from `lo`. -/
def cutCells (m : List Host.Cell) (lo n : Nat) : List Host.Cell :=
  (m.filter fun p => lo ≤ p.1 && p.1 < lo + n).map fun p => (p.1 - lo, p.2)

/-- The bytes of an accumulator file, and the file of its bytes. -/
def accCells (m : SMap W32) : List Host.Cell :=
  m.flatMap fun p => ((leBytes 4 p.2.toNat).zipIdx.filter (·.1 ≠ 0#8)).map fun b => (4 * p.1 + b.2, b.1)
def accOfCells (m : List Host.Cell) : SMap W32 :=
  ((m.map fun p => p.1 / 4).dedup).foldl (fun f e => SMap.set 0#32 f e (BitVec.ofNat 32 (Memory.readNat m (4 * e) 4))) []

/-- The parts of an image whose bytes R279 gives, from offset `base`, in rising order. -/
def Cluster.imageCells (img : Cluster) (base : Nat) : List Host.Cell :=
  shiftUp base img.store ++
    (List.range 128).flatMap (fun c => shiftUp (base + lmPart + 49152 * c) (img.core c).lm) ++
    (List.range 128).flatMap (fun c => shiftUp (base + accPart + 8192 * c) (accCells (img.core c).acc)) ++
    shiftUp (base + ctxPart) img.weave.images

/-- The image with those parts as the bytes `m` of an area hold them. -/
def Cluster.withCells (img : Cluster) (m : List Host.Cell) : Cluster :=
  { img with
    store := cutCells m 0 storeSize
    cores := (List.range 128).foldl (fun f c => SMap.set {} f c { img.core c with
      lm := cutCells m (lmPart + 49152 * c) 49152
      acc := accOfCells (cutCells m (accPart + 8192 * c) 8192) }) []
    weave := { img.weave with images := cutCells m ctxPart 16384 } }

/-! ### The save area (R278, R279, R504) -/

/-- CTU_SAVE: BASE, STACK, KEY. -/
def Chip.saveArea (s : Chip) (cl : Nat) : Nat × Nat × Nat :=
  let v := s.reg (.ctu cl) Off.CTU_SAVE
  (fld v 21 15 * 2 ^ 21, fld v 36 9, fld v 45 6)

/-- The key of the save area, when the controller and the stack window allow it. -/
def Chip.saveKey (s : Chip) (cl : Nat) : Option (BitVec 512) :=
  let (base, stack, slot) := s.saveArea cl
  if stack = clBay cl && s.bayOk stack && s.windowOk (s.clTint cl) base imageSize then (s.bay stack).keyFor slot (s.clTint cl)
  else none

def inArea (base off : Nat) : Bool := base ≤ off && off < base + imageSize

/-- Image number `n` written from `base` under a key: the area is the image's, whatever was there. -/
def Bay.putImage (x : Bay) (base n : Nat) (img : Cluster) (key : BitVec 512) : Bay :=
  { x with
    stack := (x.stack.filter fun p => p.1 < base) ++ img.imageCells base ++ x.stack.filter fun p => base + imageSize ≤ p.1
    images := SMap.set none x.images base (some (n, key))
    lineKey := x.lineKey.filter fun p => !inArea base (64 * p.1)
    lineErr := x.lineErr.filter fun p => !inArea base (64 * p.1) }

/-- The image that area `base` was given last, if nothing has taken its place and no line of it was written under
another key than `key`. -/
def Bay.intact (x : Bay) (base : Nat) (key : BitVec 512) : Option Nat :=
  match SMap.get none x.images base with
  | some (n, k) =>
    let newer := x.images.any fun p => match p.2 with
      | some (m, _) => n < m && decide (p.1 < base + imageSize) && decide (base < p.1 + imageSize)
      | none => false
    if k = key && !newer && (x.lineKey.filter fun p => inArea base (64 * p.1)).all (fun p => p.2 = some key) then some n else none
  | none => none

/-- The bytes of area `base` as key `key` reads them. -/
def Chip.areaCells (s : Chip) (b base : Nat) (key : BitVec 512) : List Host.Cell :=
  if ((s.bay b).intact base key).isSome then cutCells (s.bay b).stack base imageSize
  else Memory.write [] 0 ((List.range (imageSize / 64)).flatMap fun i => s.stackLine b key (base / 64 + i))

/-- The image whose other parts area `base` holds: its own, or the one it was copied from (R281). -/
def Chip.areaImage (s : Chip) (b base : Nat) (key : BitVec 512) : Option Nat :=
  let x := s.bay b
  let tailKept := (x.lineKey.filter fun p => inArea base (64 * p.1)).all fun p => imageLaid (64 * p.1 - base)
  match x.intact base key, tailKept with
  | some n, true => some n
  | _, _ => (List.range s.saved.length).reverse.find? fun n => (List.range (imageSize / 64)).all fun i =>
      imageLaid (64 * i) ||
        s.stackLine b key (base / 64 + i) = (List.range 64).map fun j => Config.imageByte n (64 * i + j)

/-- What a restore reads from area `base`. -/
def Chip.imageAt (s : Chip) (b base : Nat) (key : BitVec 512) : Option Cluster :=
  ((s.areaImage b base key).bind (s.saved[·]?)).map fun img => img.withCells (s.areaCells b base key)

/-! ### Phases -/

def Chip.setPhase (s : Chip) (cl : Nat) (p : SavePhase) : Chip :=
  s.modCl cl fun x => { x with ctu := { x.ctu with phase := p } }

/-- A cluster of the gable is saving or restoring. -/
def Chip.phaseBusy (s : Chip) (t : Nat) : Bool :=
  (s.gableLive t).any fun cl => match (s.cl cl).ctu.phase with
    | .stopping | .draining | .saving | .restoring => true
    | _ => false

/-- The save ended in every cluster: DORMANT when all are SAVED (R511); with one FAILED the gable stays
ACTIVE with its cores stopped (R512), and the clusters already SAVED read FAILED, from now on (R286). -/
def Chip.saveOver (s : Chip) (t : Nat) : Chip :=
  if s.phaseBusy t || !(s.gable t).saving then s
  else if (s.gableLive t).all fun cl => (s.cl cl).ctu.phase = .saved then
    ((s.modGable t fun g => { g with saving := false, dormant := true }).setReg (.gable t) Off.GB_PREEMPT_TIME s.now).lightBays
  else
    let s := (s.gableLive t).foldl (fun s cl =>
      let s := if (s.cl cl).ctu.phase = .saved then
          (s.setPhase cl .failed).setReg (.ctu cl) Off.CTU_SAVE_TIME (s.clTime cl)
        else s
      (s.cl cl).mappedCores.foldl (fun s p =>
        if (s.core cl p).run = .running then
          (s.endWait cl p).modCore cl p fun c => { c with run := .stopped, cause := .host }
        else s) s) s
    ((s.modGable t fun g => { g with saving := false }).closeWindow t .preempt).syncHolds

/-- The stage tile of bay `b` latches off; a save of its gable that only waited for the bay's clusters ends FAILED
(R541). -/
def Chip.latched (s : Chip) (b cause : Nat) : Chip := Chip.gradeChange s.gradeShort ((s.latchOff b cause).saveOver (s.bay b).tint)

/-- BAY_LATCH: the output limited, or stayed below 0.70 V, for 2 us. -/
def execBayLatch (b : Nat) (s : State) : Out := s.run fun s => onUnit (b < 336) (s.latched b 1)

/-- THERMAL_LATCH: a sensor reading `n` (1/8 °C) of 115 °C or more; the field controller latches the bay off. -/
def execThermalLatch (cl n : Nat) (s : State) : Out := s.run fun s =>
  onUnit (cl < 4032) (if n < 920 || !s.guarded (clField cl) then s else s.latched (clBay cl) 2)

/-- The save of a cluster fails (R278): a CONTAINED report of its CTU page (log entry 23). -/
def Chip.saveFailed (s : Chip) (cl : Nat) : Chip :=
  let t := s.clTint cl
  let s := (s.setPhase cl .failed).setReg (.ctu cl) Off.CTU_SAVE_TIME (s.clTime cl)
  let s := s.modPage (.ctu cl) fun p => { p with reports := p.reports ++ [{ bit := 0, cls := .contained, time := s.now, tint := t }] }
  s.saveOver t

/-- The gable's save is in progress in cluster `cl`, in phase `p`, and no halt stops it. -/
def Chip.savingIn (s : Chip) (cl : Nat) (p : SavePhase) : Bool :=
  (s.gable (s.clTint cl)).saving && decide ((s.cl cl).ctu.phase = p) && !s.halting

/-- STOPPING_END (R277, R280, R283): captures are done; lookups, walks and translation requests of the
cluster are given up, page requests with them. A walker read that failed meanwhile ends the save (R278). -/
def execStoppingEnd (cl : Nat) (s : State) : Out := s.run fun s =>
  onUnit (cl < 4032)
    (let x := s.cl cl
     let capturing := (List.range 5).any fun u => (x.engine u).park.any fun p => match p.2 with
       | some k => k.capturing
       | none => false
     if !s.savingIn cl .stopping || capturing then s
     else if x.ctu.saveErr then s.saveFailed cl
     else
       let s := s.modCl cl fun x => { x with ctu := { x.ctu with phase := .draining, ats := [], pri := [], drainAt := s.now } }
       s.modBay (clBay cl) fun b => { b with walks := b.walks.filter fun p => match p.2 with
         | some w => w.cl ≠ cl
         | none => false })

/-- No credit of the cluster's sources is out, and no packet for the cluster is on its way, in an input buffer or in the
replay buffer of a link. -/
def Chip.drained (s : Chip) (cl : Nat) : Bool :=
  let r := s.router cl
  let mine (k : Packet) : Bool := decide (k.destUnit ≤ 0x0D) && (k.mcast || some k.destLC = (s.cl cl).lc) && k.tint = s.clTint cl
  r.outstanding.isEmpty && r.arrived.isEmpty && !(s.clusters.any fun p => p.2.router.inbuf.any (fun i => mine i.pkt) || p.2.router.links.any fun l =>
    match l.2.replaying with
    | some (k, _) => mine k
    | none => false)

/-- DRAINING_END (R277). -/
def execDrainingEnd (cl : Nat) (s : State) : Out := s.run fun s =>
  onUnit (cl < 4032) (if s.savingIn cl .draining && s.drained cl then s.setPhase cl .saving else s)

/-- DRAINING_TIMEOUT (R278): DRAINING lasts more than 100 us. -/
def execDrainingTimeout (cl : Nat) (s : State) : Out := s.run fun s =>
  onUnit (cl < 4032)
    (if s.savingIn cl .draining && decide ((s.now - (s.cl cl).ctu.drainAt).toNat > 100000) then s.saveFailed cl else s)

/-- SAVING_END (R278, R279): the image is written, or a refused key or an uncorrectable word ends the save. A frame
of the area that is being copied makes it wait (R243). -/
def execSavingEnd (cl : Nat) (s : State) : Out := s.run fun s =>
  onUnit (cl < 4032)
    (let b := clBay cl
     let base := (s.saveArea cl).1
     if !s.savingIn cl .saving then s
     else match s.saveKey cl with
     | none => (s.count (.baymem b) Off.BM_KEY_REFUSE 1).saveFailed cl
     | some key =>
       if (s.bay b).copying base imageSize then s
       else
         let (x, bad) := (s.cl cl).scanned
         let s := s.setCl cl x
         if bad then s.saveFailed cl
         else
           let n := s.saved.length
           let s := { s with saved := s.saved ++ [x.image] }
           let s := s.modBay b fun y => y.putImage base n x.image key
           let s := (s.setPhase cl .saved).setReg (.ctu cl) Off.CTU_SAVE_TIME (s.clTime cl)
           s.saveOver (s.clTint cl))

/-! ### Commands (R510, R650) -/

/-- PREEMPT accepted: every cluster's save starts; the HIB, the eave ports and the receive table stop for
the gable. -/
def Chip.startSave (s : Chip) (t : Nat) : Chip :=
  let again := (s.gable t).windows.any fun w => w.cause = .preempt && w.closed = none
  let s := (s.gableLive t).foldl (fun s cl =>
    (s.setPhase cl .stopping).modCl cl fun x => { x with ctu := { x.ctu with saveErr := false } }) s
  let s := s.modGable t fun g => { g with saving := true, red := SMap.mapVals {} g.red fun _ r => r.halt }
  ((if again then s else s.openWindow t .preempt).syncHolds).saveOver t

/-- A CTU page of the gable's clusters is not enabled. -/
def Chip.ctuOff (s : Chip) (t : Nat) : Bool := (s.gableLive t).any fun cl => !(s.cl cl).ctu.page.enable

/-- RESTORE accepted: the gable is ACTIVE on its bays, and every cluster reads its image back. -/
def Chip.startRestore (s : Chip) (t : Nat) : Chip :=
  let s := s.stretchWith (s.gableClusters t) fun s => (s.gableBays t).foldl (fun s b => s.bindBay t b) s
  let s := s.modGable t fun g => { g with dormant := false, restoring := true, target := 2000 }
  let s := (s.gableLive t).foldl (fun s cl => s.setPhase cl .restoring) s
  ((s.lightBays.setClocks t).corridorClocks t).measureConfig t

/-- The last restore ended (R351, R511); a step whose start instant has passed meanwhile starts now (R512). -/
def Chip.restoreOver (s : Chip) (t : Nat) : Chip :=
  if s.phaseBusy t || !(s.gable t).restoring then s
  else
    let s := (s.modGable t fun g => { g with restoring := false }).setReg (.gable t) Off.GB_PREEMPT_TIME s.now
    let s := s.modGable t fun g => { g with windows := g.windows.map fun w =>
      if w.cause = .preempt ∧ w.closed = none then { w with closed := some s.now } else w }
    let s := (List.range 32).foldl (fun s p => s.finishSends p) (s.applyRaises (s.gableClusters t)).syncHolds
    if s.stepDue t then s.startStep t else s

/-- A write of GB_PREEMPT: during a save, a restore or a gable reset a command is discarded and sets
CMD_DROP (R510, R568). RESTORE of a gable that is not DORMANT does nothing (log entry 24). -/
def Chip.preemptWrite (s : Chip) (t : Nat) (v : W) : Chip :=
  let g := s.gable t
  if bit v 0 == bit v 1 then s
  else if g.saving || g.restoring || g.resetting then s.modGable t fun g => { g with cmdDrop := true }
  else if bit v 0 then
    if !g.active then s.refuse (.gable t) 0x0201 Off.GB_PREEMPT
    else if s.ctuOff t then s.refuse (.gable t) 0x0301 Off.GB_PREEMPT
    else s.startSave t
  else if !g.dormant then s
  else match s.gableVerdict t with
    | some f => s.refuse (.gable t) f.1 f.2.1 f.2.2
    | none => (s.startRestore t).restoreOver t

/-! ### Restore (R280 to R282) -/

/-- Units in HOST_PENDING send their Translation Requests again. -/
def Chip.askAgain (s : Chip) (cl : Nat) : Chip :=
  (List.range 5).foldl (fun s u => (List.range 4).foldl (fun s q =>
    match ((s.cl cl).engine u).parked q with
    | some p =>
      if p.kind = .hostPending then (s.unpark cl u q).askHost cl ⟨u, q, p.va, p.side, p.write, p.place⟩ else s
    | none => s) s) s

/-- RESTORE_COMPLETE: the image in the cluster's save area goes into the cluster. Correctable lines of it are corrected
and counted (R240); a refused key (R247), an uncorrectable line (R241) or bytes of no image leave the cluster FAILED
(log entry 24). A frame of the area that is being copied makes it wait (R243). -/
def execRestoreComplete (cl : Nat) (s : State) : Out := s.run fun s =>
  onUnit (cl < 4032)
    (let t := s.clTint cl
     let b := clBay cl
     let base := (s.saveArea cl).1
     if !(s.gable t).restoring || (s.cl cl).ctu.phase ≠ .restoring || (s.bay b).copying base imageSize then s
     else
       let s := match s.saveKey cl with
         | none => (s.count (.baymem b) Off.BM_KEY_REFUSE 1).setPhase cl .failed
         | some key =>
           let (s, bad) := s.stackScan b (base / 64) ((base + imageSize) / 64)
           match if bad then none else s.imageAt b base key with
           | none => s.setPhase cl .failed
           | some y => (((s.releaseRises cl).modCl cl fun x => x.restored y).setPhase cl .none).askAgain cl
       (s.setReg (.ctu cl) Off.CTU_SAVE_TIME (s.clTime cl)).restoreOver t)

end Sys2Proof.Machine
end

