-- ==== Sys2Proof/Machine/KeyLoad.lean ====
section
/-! DEFINITION. Key delivery (R592 to R597): the blob, the check of a load, the swap of a stack key, a
session key, the gable's KEYLOG, and erasing keys. -/

namespace Sys2Proof.Machine

open Sys2Proof

/-! ### Commands and blobs (R592, R598) -/

def keyTarget (v : W) : Nat := fld v 0 2
def keySlot (v : W) : Nat := fld v 2 6
def keyPort (v : W) : Nat := fld v 8 5
def keyEntry (v : W) : Nat := fld v 13 9

/-- The 512 bytes of SEC_BLOB_DATA, first byte least significant. -/
def Sec.blobWord (x : Sec) : BitVec 4096 :=
  BitVec.ofNat 4096 ((List.range 64).foldl (fun n i => n + (SMap.get 0#64 x.blob i).toNat <<< (64 * i)) 0)

/-- The bays of SEC_KEY_BAYSw. -/
def Chip.keyBays (s : Chip) : List Nat := (List.range 336).filter fun b => s.maskBit .sec (Off.SEC_KEY_BAYS 0) b

def blobKind (p : BitVec 704) : Nat := recFld p 0 1
def blobTint (p : BitVec 704) : Nat := recFld p 1 1
def blobEnable (p : BitVec 704) : Nat := recFld p 8 8
def blobKeyId (p : BitVec 704) : W := BitVec.ofNat 64 (recFld p 16 8)

/-- A byte of the plaintext that must be 0 is not. -/
def blobReserved (p : BitVec 704) : Bool := recFld p 2 6 ≠ 0 || (blobKind p = 2 && recFld p 60 28 ≠ 0)

/-! ### The check of a load (R593) -/

/-- KEY_IDs a gable's record holds (R596). -/
def keyIdLimit : Nat := 16384

/-- The failures that the command alone shows. -/
def Chip.keyCmdFails (s : Chip) (v : W) (bays : List Nat) : List Nat :=
  let tgt := keyTarget v
  (if tgt = 0 || tgt = 3 || (tgt = 1 && (keySlot v = 0 || bays.isEmpty)) then [0x0101] else []) ++
    (if fld v 22 2 ≠ 0 || fld v 27 37 ≠ 0 then [0x0103] else []) ++
    (if tgt = 2 && (s.session (keyPort v) (keyEntry v)).state = 1 then [0x0201] else []) ++
    (if !s.sec.keyReady then [0x0301] else []) ++
    (if (tgt = 1 && !bit s.bringup.done 8) || (tgt = 2 && !bit s.bringup.done 10) then [0x0702] else [])

/-- The failures of an opened blob. -/
def Chip.keyBlobFails (s : Chip) (v : W) (bays : List Nat) (p : BitVec 704) : List Nat :=
  let tgt := keyTarget v
  let t := blobTint p
  let g := s.gable t
  let on := decide (1 ≤ t ∧ t ≤ 64) && g.page.enable
  let otherTint (b : Nat) : Bool := match SMap.get none (s.bay b).keys (keySlot v) with
    | some k => decide (k.tint ≠ t)
    | none => false
  (if (tgt = 1 && blobKind p ≠ 1) || (tgt = 2 && blobKind p ≠ 2) then [0x0101] else []) ++
    (if blobReserved p then [0x0103] else []) ++
    (if (tgt = 1 && bays.any otherTint) || g.dormant || g.saving || g.restoring ||
        (tgt = 2 && decide (blobKeyId p ∈ g.keyIds)) then [0x0201] else []) ++
    (if !on then [0x0301] else []) ++
    (if (tgt = 1 && bays.any fun b => !(b ∈ s.gableBays t)) ||
        (tgt = 2 && (s.session (keyPort v) (keyEntry v)).tintOf ≠ t) then [0x0401] else []) ++
    (if blobEnable p ≠ g.enableId.toNat then [0x0402] else []) ++
    (if tgt = 2 && g.keyIds.length ≥ keyIdLimit then [0x0501] else [])

/-- The code of the refusal, the lowest that applies (R478). -/
def Chip.keyVerdict (s : Chip) (v : W) (bays : List Nat) (opened : Option (BitVec 704)) : Option Nat :=
  let l := s.keyCmdFails v bays ++ match opened with
    | some p => s.keyBlobFails v bays p
    | none => [0x0402]
  l.foldl (fun a c => match a with | none => some c | some x => some (min x c)) none

/-! ### A load (R594, R595) -/

/-- KEYLOG after a load: the widths of its parts are the model's (log entry 28). -/
def keylogNext (old : BitVec 512) (v : W) (p : BitVec 704) : BitVec 512 :=
  let place := if keyTarget v = 1 then leBytes 1 (keySlot v) else leBytes 1 (keyPort v) ++ leBytes 2 (keyEntry v)
  BitVec.ofNat 512 (leNat (sha512 (leBytes 64 old.toNat ++ leBytes 1 (blobKind p) ++ place ++ leBytes 8 (blobKeyId p).toNat)))

def Chip.modSec (s : Chip) (f : Sec → Sec) : Chip := { s with sec := f s.sec }

/-- A refused load. -/
def Chip.keyRefuse (s : Chip) (code : Nat) : Chip :=
  ((s.refuse .sec code Off.SEC_KEY_CMD).count .sec Off.SEC_KEY_REFUSALS 1).modSec fun x => { x with keyBusy := false }

/-- An accepted load: a session key is installed at once, a stack key waits for the controllers. -/
def Chip.keyAccept (s : Chip) (v : W) (bays : List Nat) (p : BitVec 704) : Chip :=
  let t := blobTint p
  let s := s.modGable t fun g => { g with
    keylog := keylogNext g.keylog v p
    keyIds := if keyTarget v = 2 then g.keyIds ++ [blobKeyId p] else g.keyIds }
  let s := ((s.setReg .sec Off.SEC_KEY_LAST (blobKeyId p)).count .sec Off.SEC_KEY_LOADS 1).modPage .sec fun q => { q with refused := false }
  if keyTarget v = 2 then
    (s.modSession (keyPort v) (keyEntry v) fun x => { x with
      key := some (BitVec.ofNat 256 (recFld p 24 32), BitVec.ofNat 32 (recFld p 56 4)) }).modSec
        fun x => { x with keyBusy := false }
  else s.modSec fun x => { x with swap := some (keySlot v, t, BitVec.ofNat 512 (recFld p 24 64), bays) }

/-- The blob opened and judged: the private-key operation of a load. -/
def Chip.keyOperate (s : Chip) (v : W) (bays : List Nat) (blob : BitVec 4096) : Chip :=
  let opened := oaepOpen blob
  match s.keyVerdict v bays opened, opened with
  | some c, _ => s.keyRefuse c
  | none, some p => s.keyAccept v bays p
  | none, none => s.keyRefuse 0x0402

/-- Every controller has swapped the key of the load in progress (R594). -/
def Chip.keySwapped (s : Chip) : Chip :=
  match s.sec.swap with
  | none => s
  | some (slot, t, key, bays) =>
    (bays.foldl (fun s b =>
      if s.bayOk b then s.modBay b fun x => { x with keys := SMap.set none x.keys slot (some { key, tint := t }) }
      else s) s).modSec fun x => { x with swap := none, keyBusy := false }

/-- A load in progress for gable `t` completes before the gable is disabled (R597). -/
def Chip.settleLoad (s : Chip) (t : Nat) : Chip :=
  let mine (j : SignJob) : Bool := match j with
    | .keyLoad _ _ blob => match oaepOpen blob with
      | some p => decide (blobTint p = t)
      | none => false
    | _ => false
  let s := match s.sec.jobs.find? mine with
    | some (.keyLoad v bays blob) =>
      ((s.modSec fun x => { x with jobs := x.jobs.filter fun j => !mine j }).keyOperate v bays blob).count .sec Off.SEC_SIGNATURES 1
    | _ => s
  match s.sec.swap with
  | some (_, u, _, _) => if u = t then s.keySwapped else s
  | none => s

/-! ### SEC_KEY_CMD (R593, R597) -/

/-- ERASE: slot 0 and the targets without a key are refused (log entry 29). -/
def Chip.keyErase (s : Chip) (v : W) : Chip :=
  match keyTarget v with
  | 1 =>
    if keySlot v = 0 then s.refuse .sec 0x0101 Off.SEC_KEY_CMD
    else s.keyBays.foldl (fun s b => s.modBay b fun x => { x with keys := SMap.set none x.keys (keySlot v) none }) s
  | 2 => s.modSession (keyPort v) (keyEntry v) fun x => { x with key := none }
  | _ => s.refuse .sec 0x0101 Off.SEC_KEY_CMD

/-- A write of SEC_KEY_CMD: LOAD and ERASE together discard it (R650); a command while BUSY is discarded
(log entry 29). Without the device key a load is refused at once. -/
def Chip.keyCmdWrite (s : Chip) (v : W) : Chip :=
  if bit v 24 && bit v 25 then s
  else if s.sec.keyBusy then s
  else
    let s := s.setReg .sec Off.SEC_KEY_CMD (BitVec.ofNat 64 (fld v 0 22))
    if bit v 24 then
      let bays := s.keyBays
      if s.sec.keyReady then
        (s.addJob (.keyLoad v bays s.sec.blobWord)).modSec fun x => { x with keyBusy := true }
      else match s.keyVerdict v bays none with
        | some c => s.keyRefuse c
        | none => s
    else if bit v 25 then s.keyErase v
    else s

end Sys2Proof.Machine
end

