-- ==== Sys2Proof/Machine/Checks.lean ====
section
/-! DEFINITION. Consistency checks and soft reset (R471, R477 to R481, R549): the verdict of ENABLE of
every page, of COMMIT and MAP_EN, what an admitted check does, and what a soft reset leaves. -/

namespace Sys2Proof.Machine

open Sys2Proof

/-! ### Stages (R549) -/

/-- Bring-up step `n` reads DONE. -/
def Chip.stepDone (s : Chip) (n : Nat) : Bool := bit s.bringup.done n

/-- Failure 0x0702 of a page's ENABLE, reported at CTRL. -/
def Chip.before (s : Chip) (n : Nat) : List (Nat × Nat × Nat) := failsOf [(!s.stepDone n, (0x0702, 0x010, 0))]

/-! ### ENABLE (R202, R203, R230, R232, R286, R562) -/

/-- LOG2SIZE of a ring outside 3 to 12. -/
def logBad (v : W) : Bool := decide (fld v 0 4 < 3) || decide (fld v 0 4 > 12)

/-- Failures of the rings of unit `u`, and of the stage and the microcode it needs. -/
def Chip.unitFails (s : Chip) (cl u : Nat) : List (Nat × Nat × Nat) :=
  let pg := unitPage cl u
  failsOf [(s.stepDone 7 && !(s.cl cl).microcodeOk, (0x0301, 0x010, 0))] ++ s.before 7 ++
    (ringsOf u).flatMap fun q => failsOf [(logBad (s.reg pg (ringOff q 1)), (0x0101, ringOff q 1, 0))]

/-- Failures of the slots that are enabled (R203). -/
def Chip.slotFails (s : Chip) (cl : Nat) : List (Nat × Nat × Nat) :=
  let pg := PageRef.gutter cl
  (List.range 16).flatMap fun n =>
    let c := s.reg pg (Off.GT_SLOT_CFG n)
    let base := fld (s.reg pg (Off.GT_SLOT_BASE n)) 0 24
    failsOf [
      (bit c 0 && decide (base + 8 * fld c 16 20 > storeSize), (0x0101, Off.GT_SLOT_BASE n, 0)),
      (bit c 0 && decide (fld c 16 20 = 0), (0x0101, Off.GT_SLOT_CFG n, 0))]

/-- The save area of R279. -/
def saveAreaSize : Nat := 20 * 2 ^ 20

/-- Failures of ENABLE on a CTU page (R286). -/
def Chip.ctuFails (s : Chip) (cl : Nat) : List (Nat × Nat × Nat) :=
  let pg := PageRef.ctu cl
  let t := s.clTint cl
  let root := s.reg pg Off.CTU_ROOT
  let cfg := s.reg pg Off.CTU_CFG
  let save := s.reg pg Off.CTU_SAVE
  let bad (b k : Nat) : Bool := ((s.bay b).keyFor k t).isNone
  s.before 8 ++ failsOf [
    (!s.sameGable cl (fld root 36 9), (0x0401, Off.CTU_ROOT, 0)),
    (bad (fld root 36 9) (fld root 45 6), (0x0402, Off.CTU_ROOT, 0)),
    ((bit cfg 0 && !(decide (t ∈ s.link.atsEnabled) && t ≠ 0)) || (bit cfg 1 && !bit cfg 0), (0x0301, Off.CTU_CFG, 0)),
    (decide (fld save 21 15 * 2 ^ 21 + saveAreaSize > stackSize), (0x0101, Off.CTU_SAVE, 0)),
    (bad (fld save 36 9) (fld save 45 6), (0x0402, Off.CTU_SAVE, 0)),
    (decide (fld save 36 9 ≠ clBay cl), (0x0403, Off.CTU_SAVE, 0))]

/-- The verdict of ENABLE of a page; the pages without a rule of their own allow every configuration. -/
def Chip.enableVerdict (s : Chip) (pg : PageRef) : Verdict :=
  match pg with
  | .gable t => s.gableVerdict t
  | .cluster _ | .weave _ => leastFail (s.before 6)
  | .dma c n => leastFail (s.unitFails c (if n = 0 then 0 else 1))
  | .thatcher c => leastFail (s.unitFails c 2)
  | .gutter c => leastFail (s.unitFails c 3 ++ s.slotFails c)
  | .skylight c => leastFail (s.unitFails c 4 ++
      failsOf [(bit (s.reg (.gable (s.clTint c)) Off.GB_CFG) 0 && (s.gable (s.clTint c)).page.enable, (0x0205, 0x010, 0))])
  | .ctu c => leastFail (s.ctuFails c)
  | .eave p =>
    let r (off : Nat) : W := s.reg (.eave p) off
    leastFail (failsOf [
      (fld (r Off.EV_CFG) 0 2 = 3 || !(fld (r Off.EV_CFG) 4 4 ∈ [1, 2, 4, 8]), (0x0101, Off.EV_CFG, 0)),
      (fld (r Off.EV_RC_CFG) 48 16 = 0, (0x0101, Off.EV_RC_CFG, 0)),
      (fld (r Off.EV_RTO) 0 32 = 0 || fld (r Off.EV_RTO) 32 8 = 0, (0x0101, Off.EV_RTO, 0)),
      (fld (r Off.EV_ACK_CFG) 0 8 = 0 || fld (r Off.EV_ACK_CFG) 16 16 = 0, (0x0101, Off.EV_ACK_CFG, 0)),
      (fld (r Off.EV_PFC_CFG) 16 16 ≥ fld (r Off.EV_PFC_CFG) 0 16, (0x0101, Off.EV_PFC_CFG, 0))])
  | _ => none

/-! ### The Wafer Map Table (R489 to R492) -/

def wmtV (w : W) : Bool := bit w 0
def wmtX (w : W) : Nat := fld w 1 7
def wmtY (w : W) : Nat := fld w 8 6
def wmtCore (w : W) : Nat := fld w 14 8

/-- Entry of logical core `c` of logical cluster `l`. -/
def Chip.wmtAt (s : Chip) (l c : Nat) : W := SMap.get 0#64 s.wmt (128 * l + c)

/-- The words of an entry name a place of the wafer. -/
def wmtOk (w : W) : Bool :=
  wmtV w && decide (wmtX w ≤ 95) && decide (wmtY w ≤ 41) && decide (wmtCore w ≤ 135) && decide (fld w 22 42 = 0)

/-- Failures of entry `c` of logical cluster `l` (R491). -/
def Chip.commitFails (s : Chip) (l c : Nat) : List (Nat × Nat × Nat) :=
  let at_ (code : Nat) : Nat × Nat × Nat := (code, Off.WMT_CMD, c)
  let w := s.wmtAt l c
  let p := clAt (wmtX w) (wmtY w)
  let w0 := s.wmtAt l 0
  if !wmtOk w then [at_ 0x0101]
  else failsOf [
    (decide (wmtX w ≠ wmtX w0 ∨ wmtY w ≠ wmtY w0), at_ 0x0104),
    (s.clUnusable p || (s.cl p).coreDead (wmtCore w), at_ 0x0106),
    ((List.range c).any fun d => wmtCore (s.wmtAt l d) = wmtCore w, at_ 0x0201),
    ((s.cl p).lc.isSome && (s.cl p).lc ≠ some l, at_ 0x0207),
    ((s.cl p).mapEn && (s.cl p).pcore c ≠ wmtCore w, at_ 0x0208)]

/-- The verdict of COMMIT of logical cluster `l`. -/
def Chip.commitVerdict (s : Chip) (l : Nat) : Verdict :=
  leastIdx (failsOf [
      (decide (l ≥ s.bringup.record.grade), (0x0105, Off.WMT_CMD, 0)),
      (!s.bringup.mapStarted, (0x0702, Off.WMT_CMD, 0))] ++
    (List.range 128).flatMap (s.commitFails l))

/-- COMMIT admitted: the cluster its entries name takes the logical number. -/
def Chip.commitDone (s : Chip) (l : Nat) : Chip :=
  let w := s.wmtAt l 0
  let p := clAt (wmtX w) (wmtY w)
  { s with committed := SMap.set none s.committed l (some p) }.modCl p fun x => { x with lc := some l }

/-- RELEASE of logical cluster `l`. -/
def Chip.releaseLc (s : Chip) (l : Nat) : Chip :=
  match s.physOf l with
  | none => s
  | some p =>
    if (s.cl p).mapEn then s.refuse .hib 0x0208 Off.WMT_CMD
    else Chip.gradeChange s.gradeShort
      ({ s with committed := SMap.set none s.committed l none }.modCl p fun x => { x with lc := none })

/-! ### The core map (R493, R494) -/

/-- Failures of the core map at logical core `c`. -/
def Chip.mapFails (s : Chip) (cl c : Nat) : List (Nat × Nat × Nat) :=
  let at_ (code : Nat) : Nat × Nat × Nat := (code, Off.CL_MAP_CTRL, c)
  let x := s.cl cl
  let p := x.pcore c
  failsOf [
    (decide (p > 135), at_ 0x0101),
    (decide (p ≤ 135) && x.coreDead p, at_ 0x0106),
    ((List.range c).any fun d => x.pcore d = p, at_ 0x0201),
    (match x.lc with | some l => wmtCore (s.wmtAt l c) ≠ p | none => false, at_ 0x0208)]

/-- The verdict of MAP_EN. -/
def Chip.mapVerdict (s : Chip) (cl : Nat) : Verdict :=
  leastIdx (failsOf [
      ((s.cl cl).lc.isNone, (0x0306, Off.CL_MAP_CTRL, 0)),
      (!s.bringup.mapStarted, (0x0702, Off.CL_MAP_CTRL, 0))] ++
    (List.range 128).flatMap (s.mapFails cl))

/-- A core of the cluster has been started; it reads RUNNING, or HALTED where the cluster is held. -/
def Cluster.anyRunning (x : Cluster) : Bool := x.cores.any fun p => p.2.run = .running

/-- A write of CL_MAP_CTRL. -/
def Chip.mapWrite (s : Chip) (cl : Nat) (v : W) : Chip :=
  let x := s.cl cl
  let s := if bit v 1 then s.modCl cl fun x => { x with mapDrop := false } else s
  if bit v 0 then
    if x.mapEn then s else s.modPage (.cluster cl) fun p => { p with check := some .mapEn }
  else if !x.mapEn then s
  else if x.anyRunning && !s.coreHeld cl then s.modCl cl fun x => { x with mapDrop := true }
  else s.modCl cl fun x => { x with mapEn := false }

/-- A write of CL_CORE_MAPw: only while MAP_EN is 0. -/
def Chip.coreMapWrite (s : Chip) (cl off : Nat) (v : W) : Chip :=
  if (s.cl cl).mapEn then s.modCl cl fun x => { x with mapDrop := true } else s.setReg (.cluster cl) off v

/-! ### Weave contexts (R154 to R156, R158) -/

def Chip.ctxVerdict (s : Chip) (cl ctx : Nat) : Verdict :=
  weaveCheck (s.cl cl).weave ctx (s.cl cl).mapEn (s.stepDone 6) fun l => match s.physOf l with
    | some p => s.clTint p = s.clTint cl
    | none => false

/-- A write of WV_CTX_CMD (R650). SWITCH to a context that is not valid does nothing (log entry 25). -/
def Chip.ctxCmdWrite (s : Chip) (cl : Nat) (v : W) : Chip :=
  let x := s.cl cl
  let i := fld v 0 2
  let frozen := x.weavePage.freeze
  let pg := PageRef.weave cl
  match bit v 8, bit v 9, bit v 10 with
  | true, false, false =>
    if x.weave.active = some i && !frozen then s.refuse pg 0x0204 Off.WV_CTX_CMD
    else s.modPage pg fun p => { p with check := some (.ctxArm i) }
  | false, true, false =>
    if x.weave.active = some i && !frozen then s.refuse pg 0x0204 Off.WV_CTX_CMD
    else s.modCl cl fun x => { x with weave := { x.weave with valid := x.weave.valid.set i false } }
  | false, false, true =>
    if x.weave.active.isSome && !frozen then s.refuse pg 0x0204 Off.WV_CTX_CMD
    else if !x.weave.valid.getD i false then s
    else s.modCl cl fun x => (if frozen then x.dropSlack else x).activate i
  | _, _, _ => s

/-! ### Soft reset (R471) -/

/-- A page with its common registers and the registers `keep` does not name at reset; telemetry, IRQ_MASK,
SCRATCH and the reports already due stay. -/
def Page.soft (p : Page) (keep : Nat → Bool) : Page :=
  { irqMask := p.irqMask, scratch := p.scratch, reports := p.reports
    regs := p.regs.filter fun r => 0xF00 ≤ r.1 || keep r.1 }

/-- A core under reset: local memory and accumulators at 0 and every register at its reset value, but for
the counts of R92. The values are taken when the reset starts, so that what the host writes while the core reads
RESETTING stays (DESIGN CHOICE, log entry 52). -/
def Core.reset (c : Core) : Core := { run := .resetting, ecc := c.ecc, work := c.work, waitCycles := c.waitCycles }

/-- The registers of the CLUSTER page that a cluster reset keeps: router, core map, CL_CORE_DEAD. -/
def clusterKeeps (off : Nat) : Bool := (0x400 ≤ off && off < 0x500) || (0x600 ≤ off && off < 0x6A0)

/-- The cluster reset of R566. -/
def Cluster.softReset (x : Cluster) : Cluster :=
  { x with
    page := x.page.soft clusterKeeps
    cores := (List.range 136).foldl (fun m p => SMap.set {} m p (x.core p).reset) []
    vft := [], sets := [], deferred := [], hints := [], postCount := [], storeStop := false }

/-- Nothing waits any more for unit `u` of the cluster: its walks, Translation Requests and Page Requests
are given up. -/
def Chip.dropWaits (s : Chip) (cl u : Nat) : Chip :=
  let keep (w : Waiter) : Bool := w.unit ≠ u
  let s := s.modCl cl fun x => { x with ctu := { x.ctu with
    ats := x.ctu.ats.filter keep, pri := x.ctu.pri.filter fun p => keep p.w } }
  s.modBay (clBay cl) fun b => { b with walks := b.walks.map fun p => (p.1, p.2.map fun k =>
    if k.cl = cl then { k with waiters := k.waiters.filter keep } else k) }

/-- Soft reset of a unit's page: its work is abandoned and its parked faults are discarded. -/
def Chip.unitReset (s : Chip) (cl u : Nat) : Chip :=
  let s := (ringsOf u).foldl (fun s q => s.unpark cl u q) (s.dropWaits cl u)
  let s := s.modEngine cl u fun e => { page := e.page.soft fun _ => false }
  if u = 3 then s.modCl cl fun x => { x with valleys := [] } else s

/-- Soft reset of a CTU page: the TLB is empty; units that waited for the host ask again. -/
def Chip.ctuReset (s : Chip) (cl : Nat) : Chip :=
  let s := (List.range 5).foldl (fun s u =>
    let s := (ringsOf u).foldl (fun s q => match ((s.cl cl).engine u).parked q with
      | some p => if p.kind = .hostPending then s.unpark cl u q else s
      | none => s) s
    (s.dropWaits cl u).modEngine cl u fun e => { e with trans := none }) s
  s.modCl cl fun x => { x with ctu := { page := x.ctu.page.soft fun _ => false, phase := x.ctu.phase, drainAt := x.ctu.drainAt } }

/-- An enabled gable ends as R503 ends it, without its conditions. -/
def Chip.endGable (s : Chip) (t : Nat) : Chip :=
  let s := s.settleLoad t
  if !(s.gable t).page.enable then s
  else (if (s.gable t).meter.isOpen then s.endPeriod t 3 s.now else s).disableGable t

/-- What a soft reset leaves of each page. -/
def Chip.softResetPage (s : Chip) (pg : PageRef) : Chip :=
  let plain (s : Chip) : Chip := s.modPage pg fun p => p.soft fun _ => false
  match pg with
  | .cluster c => (s.releaseRises c).modCl c Cluster.softReset
  | .weave c => s.modCl c fun x => { x with weave := {}, weavePage := x.weavePage.soft fun _ => false }
  | .dma c n => s.unitReset c (if n = 0 then 0 else 1)
  | .thatcher c => s.unitReset c 2
  | .gutter c => s.unitReset c 3
  | .skylight c => s.unitReset c 4
  | .ctu c => s.ctuReset c
  | .gable t =>
    let s := plain (s.endGable t)
    s.modGable t fun g => { page := g.page, ceil := g.ceil, meter := g.meter }
  | .baymem b => (plain s).modBay b fun x => { x with
      keys := x.keys.filter fun k => k.1 = 0, retiring := none, patrolChunk := 0, patrolPasses := 0 }
  | .field f => (plain s).modField f fun x => { x with
      cover := false, covering := false, nbrLost := false, marking := none
      interim := x.interim && !(x.cover && (s.field (partner f)).running) }
  | .power =>
    let s := plain s
    { s with
      gables := SMap.mapVals {} s.gables fun _ g => { g with ceil := 256 }
      bays := SMap.mapVals {} s.bays fun _ x => { x with gain := 4096, offset := 0, nextFit := none } }
  | .dev => Chip.haltChange s.halting { plain s with module := { s.module with haltReg := false, fatalHalt := false } }
  | .bringup =>
    let s := (plain s).gradeCfg
    { s with bringup := { s.bringup with
        step := 0, state := .idle, fail := 0, detail := 0, found := none, done := 0#64
        fastOk := false, testSkipped := false, lastReset := 0, imgDrop := false, testBay := none, testResult := 0 } }
  | .sec => let s := plain s; { s with sec := { s.sec with
      jobs := s.sec.jobs.filter fun j => match j with | .meter .. => true | _ => false
      report := [], reportBusy := false, reportDrop := false, blob := [], keyBusy := false, swap := none } }
  | .eave p =>
    let e := s.eave p
    (plain s).modEave p fun x => { page := x.page
                                   sessions := SMap.mapVals {} e.sessions fun _ y => y.disable
                                   cur := e.cur, flipping := e.flipping, seqs := e.seqs, outstanding := e.outstanding
                                   arrived := e.arrived }
  | _ => plain s

/-! ### The end of a check (R475, R477, R479) -/

/-- The page records the verdict; `ok` is what an admitted check does. -/
def Chip.judge (s : Chip) (pg : PageRef) (v : Verdict) (ok : Chip → Chip) : Chip :=
  match v with
  | some f => s.refuse pg f.1 f.2.1 f.2.2
  | none => (ok s).modPage pg fun p => { p with refused := false }

/-- An admitted ENABLE. -/
def Chip.enablePage (s : Chip) (pg : PageRef) : Chip :=
  match pg with
  | .gable t => s.enableGable t
  | _ => s.modPage pg fun p => { p with enable := true }

/-- The session check with its stage (R429, R549). -/
def Chip.sessVerdict (s : Chip) (p i : Nat) : Verdict :=
  leastIdx (failsOf [(!s.stepDone 10, (0x0702, Off.EV_SESS_CMD, 0))] ++ (s.sessionVerdict p i).toList)

/-- The route check with its stage (R321, R335, R549). -/
def Chip.armVerdict (s : Chip) (cl e : Nat) : Verdict :=
  leastIdx (failsOf [(!s.bringup.mapStarted, (0x0702, Off.CL_RT_CMD, 0))] ++ (s.routeVerdict cl e).toList)

/-- An admitted ENABLE of a gable needs a random ENABLE_ID; without a noise source it waits (R580). -/
def Chip.enableWaits (s : Chip) (pg : PageRef) : Bool :=
  match pg with
  | .gable t => s.sec.rngFailed && (s.gableVerdict t).isNone
  | _ => false

/-- The check or soft reset in progress on a page finishes. An image with an uncorrectable word is CTX_ECC (R165)
and its context stays invalid (log entry 53). -/
def Chip.finishCheck (s : Chip) (pg : PageRef) : Chip :=
  let c := (s.page pg).check
  if c = none then s else
  if c = some .enable && s.enableWaits pg then s else
  let s := s.modPage pg fun p => { p with check := none }
  match c, pg with
  | none, _ => s
  | some .enable, _ => s.judge pg (s.enableVerdict pg) fun s => s.enablePage pg
  | some .softReset, _ => s.softResetPage pg
  | some (.ctxArm i), .weave cl => if (s.cl cl).weave.imgBad i then s.weaveEcc cl 1 else s.judge pg (s.ctxVerdict cl i) fun s => s.modCl cl fun x =>
      { x with weave := { x.weave with valid := x.weave.valid.set i true } }.resolveCtx i
  | some (.routeArm e), .cluster cl => s.judge pg (s.armVerdict cl e) fun s => s.setValid cl e true
  | some .mapEn, .cluster cl => s.judge pg (s.mapVerdict cl) fun s => s.modCl cl fun x => { x with mapEn := true }
  | some .redArm, .gable t => s.judge pg (s.redVerdict t) fun s => s.redArmed t
  | some (.session i), .eave p => s.judge pg (s.sessVerdict p i) fun s => s.sessionOpen p i
  | some (.commit l), .hib => s.judge pg (s.commitVerdict l) fun s => s.commitDone l
  | _, _ => s

/-! ### CTRL (R471, R477, R481) -/

/-- ENABLE of a page goes to 0: a gable under R503, any other page at once. -/
def Chip.disable (s : Chip) (pg : PageRef) : Chip :=
  match pg with
  | .gable t =>
    let s := s.settleLoad t
    let g := s.gable t
    if !g.page.enable then s
    else if g.dormant || s.gableQuiet t then (if g.meter.isOpen then s.endPeriod t 3 s.now else s).disableGable t
    else s.modGable t fun g => { g with disableDrop := true }
  | _ => s.modPage pg fun p => { p with enable := false }

/-- A write of CTRL. -/
def Chip.ctrlWrite (s : Chip) (pg : PageRef) (v : W) : Chip :=
  if bit v 1 then s.modPage pg fun p => { p with check := some .softReset }
  else
    let s := if pg.block = .weave then s.modPage pg fun p => { p with freeze := bit v 2 } else s
    if bit v 0 then
      if (s.page pg).enable then s else s.modPage pg fun p => { p with check := some .enable }
    else s.disable pg

end Sys2Proof.Machine
end

