-- ==== Sys2Proof/Machine/Views.lean ====
section
/-! DEFINITION. What a read of a register returns: the common page (R467) and the block registers that
show state held elsewhere. A register with no view here reads its stored value. -/

namespace Sys2Proof.Machine

open Sys2Proof

/-- A number placed at bit `lo`. -/
def at_ (n lo : Nat) : Nat := n <<< lo
def flagAt (b : Bool) (lo : Nat) : Nat := b2n b <<< lo

/-! ### Cores through the window (R128, R494) -/

/-- The physical core that CL_CORE_SEL selects: a value beyond the range selects core 0. Logical cores
are reached only through an enabled core map. -/
def Cluster.selected (x : Cluster) : Option Nat :=
  let v := x.page.reg .cluster Off.CL_CORE_SEL
  let n := fld v 0 8
  if bit v 8 then some (if n < 136 then n else 0)
  else if x.mapEn then some (x.pcore (if n < 128 then n else 0))
  else none

/-- CL_CORE_STATE.STATE. -/
def Chip.coreState (s : Chip) (cl : Nat) (c : Core) : Nat :=
  match c.run with
  | .resetting => 0
  | .stopped => 1
  | .running => if s.coreHeld cl then 3 else 2

/-- Counts of sixteen flags from `f`. -/
def Core.fcounts (c : Core) (f : Nat) : Nat :=
  (List.range 16).foldl (fun n i => n + (c.flag (f + i)).count <<< (4 * i)) 0

/-- The registers of the selected core. -/
def Chip.coreView (s : Chip) (cl off : Nat) : W :=
  let x := s.cl cl
  match x.selected with
  | none => 0#64
  | some p =>
    let c := x.core p
    let n (v : Nat) : W := BitVec.ofNat 64 v
    if off = Off.CL_CORE_CTRL then n (flagAt c.o2 2)
    else if off = Off.CL_CORE_STATE then n (s.coreState cl c + c.cause.code <<< 4)
    else if off = Off.CL_CORE_PC then n c.pc.toNat
    else if off = Off.CL_CORE_ARITH then n (b2n c.satFp8)
    else if off = Off.CL_CORE_ASTAT then c.astat
    else if off = Off.CL_CORE_SR_SEED then c.srSeed
    else if off = Off.CL_CORE_SR_CTR then c.srCtr
    else if off = Off.CL_CORE_FSTAT then c.fstat
    else if off = Off.CL_CORE_FLAG_STATE then n ((List.range 48).foldl (fun a f => a + flagAt (c.flag f).isSet f) 0)
    else if off = Off.CL_CORE_FCOUNT0 then n (c.fcounts 0)
    else if off = Off.CL_CORE_FCOUNT1 then n (c.fcounts 16)
    else if off = Off.CL_CORE_FCOUNT2 then n (c.fcounts 32)
    else if off = Off.CL_CORE_ECC then c.ecc
    else if off = Off.CL_CORE_WORK then c.work
    else if off = Off.CL_CORE_WAIT then c.waitCycles
    else if off = Off.CL_CORE_LM_ADDR then c.lmAddr
    else if off = Off.CL_CORE_ACC_ADDR then c.accAddr
    else if 0x200 ≤ off ∧ off < 0x300 then n (c.sreg ((off - 0x200) / 8)).toNat
    else if 0x300 ≤ off ∧ off < 0x340 then n (c.areg ((off - 0x300) / 8)).toNat
    else 0#64

/-- Offsets that CL_CORE_SEL directs at one core. -/
def coreWindow (off : Nat) : Bool :=
  (0x108 ≤ off && off < 0x188) || off = Off.CL_CORE_LM_ADDR || off = Off.CL_CORE_ACC_ADDR || (0x200 ≤ off && off < 0x340)

/-! ### The CLUSTER page (R201, R338, R494) -/

/-- Bits of logical cores `lo` to `lo + 63` for which `f` holds; without an enabled map all read `d`. -/
def Cluster.coreBits (x : Cluster) (lo : Nat) (d : Bool) (f : Core → Bool) : W :=
  BitVec.ofNat 64 ((List.range 64).foldl (fun n i =>
    n + flagAt (if x.mapEn then f (x.core (x.pcore (lo + i))) else d) i) 0)

/-- Stopped with a cause other than NONE, DONE or HOST. -/
def Core.errStopped (c : Core) : Bool := c.run = .stopped && decide (c.cause.code ≥ 3)

/-- LinkState as CL_RT_LINKp.STATE. -/
def LinkState.code : LinkState → Nat
  | .down => 0 | .up => 1 | .failing => 2 | .out => 3

/-- Physical cores neither named by the core map nor dead (R494). -/
def Cluster.spares (x : Cluster) : Nat :=
  let map := (List.range 128).map x.pcore
  ((List.range 136).filter fun p => !(p ∈ map) && !x.coreDead p).length

def Chip.clusterView (s : Chip) (cl off : Nat) : Option W :=
  let x := s.cl cl
  let r := x.router
  let n (v : Nat) : Option W := some (BitVec.ofNat 64 v)
  if coreWindow off then some (s.coreView cl off)
  else if off = Off.CL_NOTRUN0 then some (x.coreBits 0 true fun c => s.coreState cl c ≠ 2)
  else if off = Off.CL_NOTRUN1 then some (x.coreBits 64 true fun c => s.coreState cl c ≠ 2)
  else if off = Off.CL_ERRSTOP0 then some (x.coreBits 0 false Core.errStopped)
  else if off = Off.CL_ERRSTOP1 then some (x.coreBits 64 false Core.errStopped)
  else if off = Off.CL_RT_STATE then
    n (b2n r.up + flagAt r.resetting 1 + flagAt r.valid0 2 + flagAt r.valid1 3 + r.cur <<< 4 +
      flagAt (!r.flipping.isEmpty) 5 + flagAt r.writeDrop 6 + (x.lc.getD 0) <<< 16)
  else if off = Off.CL_RT_TINT then n (s.clTint cl)
  else if off = Off.CL_RT_CORRIDOR then some r.corridor
  else if off = Off.CL_RT_OCCUPANCY then n (min 65535 (s.flitsHeld cl))
  else if 0x480 ≤ off ∧ off < 0x4C0 then
    let p := (off - 0x480) / 8
    let l := r.link p
    n (l.state.code + flagAt (neighbour cl p).isSome 2 + (l.spares.filter (·.2.isSome)).length <<< 16)
  else if off = Off.CL_MAP_CTRL then n (b2n x.mapEn + flagAt x.mapDrop 1 + x.spares <<< 8)
  else none

/-! ### The WEAVE page (R166) -/

def Weave.stateView (w : Weave) : W :=
  let valid := (List.range 4).foldl (fun n i => n + flagAt (w.valid.getD i false) (4 + i)) 0
  BitVec.ofNat 64 (w.active.getD 0 + flagAt w.active.isNone 2 + flagAt w.endPending 3 + valid + flagAt w.writeDrop 8 +
    (match w.active with | some i => w.img i 0 4 | none => 0) <<< 32)

/-! ### Units (R202, R203, R275) -/

def FaultKind.view (k : FaultKind) : Nat := k.code

/-- PARKq_INFO, PARKq_VA and PARKq_PROGRESS; they read 0 with nothing captured. -/
def Engine.parkView (e : Engine) (q k : Nat) : W :=
  match e.parked q, k with
  | some p, 0 => BitVec.ofNat 64 (b2n p.parked + flagAt p.capturing 1 + flagAt p.dispatched 2 +
      flagAt (e.resumeDrop.getD q false) 3 + p.kind.code <<< 4 + flagAt p.side 8 + flagAt p.write 9 + flagAt p.phase 10 +
      p.seq <<< 32)
  | some p, 1 => BitVec.ofNat 64 (p.va % 2 ^ 56)
  | some p, _ => BitVec.ofNat 64 p.progress
  | none, 0 => BitVec.ofNat 64 (flagAt (e.resumeDrop.getD q false) 3)
  | none, _ => 0#64

/-- DMA_STATE.RING_q: PARKED before PAUSED, which it reads once no descriptor is in progress (R178), ACTIVE while a descriptor waits or works. -/
def Chip.ringState (s : Chip) (cl u q : Nat) : Nat :=
  let e := (s.cl cl).engine u
  if (e.parked q).isSome then 2
  else if bit (s.reg (unitPage cl u) (ringOff q 1)) 5 && (e.list q).isEmpty then 3
  else if s.ringHeld cl u q > 0 then 1
  else 0

/-- Stack reads of DMA engine `u` that wait for their answer, wherever it is (a copied frame, a full controller, the host,
a loss), with those of the thatcher that count with DMA 1's (R177, R218) and of the skylight that count with DMA 0's
(R229). -/
def Chip.readsHeld (s : Chip) (cl u : Nat) : Nat :=
  let n (e : Engine) : Nat := e.held.foldl (fun n h => match h.2 with | some k => n + k.n | none => n) 0
  n ((s.cl cl).engine u) + n (if u = 1 then (s.cl cl).thatcher else (s.cl cl).skylight)

def Chip.unitView (s : Chip) (cl u off : Nat) : Option W :=
  let e := (s.cl cl).engine u
  let sets := if u < 2 then 4 else 1
  if 0x180 ≤ off ∧ off < 0x180 + 0x18 * sets then
    let i := (off - 0x180) / 8
    some (e.parkView (i / 3) (i % 3))
  else if u < 2 ∧ off = Off.DMA_OUTSTANDING then some (BitVec.ofNat 64 (min 16 (s.readsHeld cl u)))
  else if u < 2 ∧ off = Off.DMA_STATE then
    some (BitVec.ofNat 64 ((List.range 4).foldl (fun n q => n + s.ringState cl u q <<< (8 * q)) 0))
  else if u = 3 ∧ off = Off.GT_VALLEY_BUSY then
    some (BitVec.ofNat 64 ((List.range 16).foldl (fun n v => n + flagAt (decide (v ∈ e.valleysBusy)) v) 0))
  else none

/-! ### The CTU page (R286) -/

def SavePhase.code : SavePhase → Nat
  | .none => 0 | .stopping => 1 | .draining => 2 | .saving => 3 | .saved => 4 | .restoring => 5 | .failed => 6

def Chip.ctuView (s : Chip) (cl off : Nat) : Option W :=
  let c := (s.cl cl).ctu
  if off = Off.CTU_INVAL_STATUS then some (BitVec.ofNat 64 (b2n c.inval.isSome))
  else if off = Off.CTU_SAVE_STATE then some (BitVec.ofNat 64 c.phase.code)
  else if off = Off.CTU_PRI_OUT then some (BitVec.ofNat 64 (min 127 (c.pri.filter (·.sent)).length))
  else none

/-! ### BAY, BAYMEM and FIELD pages (R285, R572, R573, R622, R623) -/

def Chip.bayView (s : Chip) (b off : Nat) : Option W :=
  let x := s.bay b
  if off = Off.BY_STATE then
    some (BitVec.ofNat 64 ((bayClusters b).foldl (fun n cl => n + flagAt (s.usable cl) (clJ cl)) 0 +
      flagAt x.stackOk 12 + flagAt x.untested 13))
  else none

def Chip.baymemView (s : Chip) (b off : Nat) : Option W :=
  let x := s.bay b
  let slot (i : Nat) : Option KeySlot := SMap.get none x.keys i
  let n (v : Nat) : Option W := some (BitVec.ofNat 64 v)
  if off = Off.BM_OUTSTANDING then n (min maxReads (s.readsTracked b))
  else if off = Off.BM_KEYSLOT_VALID then n ((List.range 64).foldl (fun a i => a + flagAt (slot i).isSome i) 0)
  else if 0x120 ≤ off ∧ off < 0x160 then
    let i := off - 0x120
    n ((List.range 8).foldl (fun a j => a + (match slot (i + j) with | some k => k.tint | none => 0) <<< (8 * j)) 0)
  else if off = Off.BM_RETIRE_CMD then n ((s.reg (.baymem b) off).toNat + flagAt x.retiring.isSome 63)
  else if off = Off.BM_RETIRE_STATE then n (x.retired.length + flagAt (decide (x.retired.length ≥ 65536)) 17)
  else if off = Off.BM_PATROL then n (x.patrolChunk + (x.patrolPasses % 65536) <<< 32)
  else none

def Chip.fieldView (s : Chip) (f off : Nat) : Option W :=
  let x := s.field f
  let n (v : Nat) : Option W := some (BitVec.ofNat 64 v)
  if off = Off.FC_CTRL then n (b2n x.cover)
  else if off = Off.FC_STATUS then
    n (b2n x.running + flagAt x.nbrLost 1 + flagAt x.interim 2 + flagAt x.covering 3 +
      flagAt (s.field (partner f)).covering 4 + flagAt x.romFail 5)
  else if off = Off.FC_HEARTBEAT then n x.heartbeat.toNat
  else if off = Off.FC_PARTNER then n (partner f)
  else if off = Off.FC_MARK then n ((s.reg (.field f) off).toNat + flagAt x.marking.isSome 26)
  else none

/-! ### EAVE pages (R427) -/

def EaveLinkState.code : EaveLinkState → Nat
  | .down => 0 | .training => 1 | .up => 2 | .out => 3

/-- Lanes a link runs on: those it last trained to, while it is UP. -/
def EaveLink.inUse (l : EaveLink) : List Nat := if l.state = .up then l.lanes else []

def prioMask (l : List Nat) : Nat := (List.range 8).foldl (fun n q => n + flagAt (decide (q ∈ l)) q) 0

def Chip.eaveView (s : Chip) (p off : Nat) : Option W :=
  let e := s.eave p
  let pg := PageRef.eave p
  let n (v : Nat) : Option W := some (BitVec.ofNat 64 v)
  let sel := fld (s.reg pg Off.EV_GCNT_SEL) 0 7
  if off = Off.EV_LINK_STATE then
    n (e.link0.inUse.length + e.link1.inUse.length <<< 4 + prioMask (e.link0.inUse ++ e.link1.inUse) <<< 8 +
      e.link0.state.code <<< 16 + e.link1.state.code <<< 18 + flagAt (s.attachOk p) 20)
  else if off = Off.EV_G_TX_PAYLOAD then n (SMap.get 0 e.counters (2 * sel))
  else if off = Off.EV_G_RX_PAYLOAD then n (SMap.get 0 e.counters (2 * sel + 1))
  else if off = Off.EV_POSTQ then n (e.posts.length + flagAt (bit (s.reg pg off) 16) 16)
  else if off = Off.EV_PFC_CFG then
    n (fld (s.reg pg off) 0 40 + prioMask ((e.paused.filter (·.2 ≠ 0)).map (·.1)) <<< 40 + prioMask e.pausing <<< 48)
  else if off = Off.EV_EPOCH then n (e.cur + flagAt (!e.flipping.isEmpty) 1)
  else none

/-! ### GABLE pages (R354, R390, R511, R513) -/

def StepState.code : StepState → Nat
  | .idle => 0 | .armed => 1 | .running => 2 | .ended => 3

/-- The least advanced phase, RESTORING below NONE; FAILED when any cluster reads it (R511). -/
def Chip.preemptPhase (s : Chip) (t : Nat) : Nat :=
  let ps := (s.gableLive t).map fun cl => (s.cl cl).ctu.phase
  match [SavePhase.failed, .restoring, .none, .stopping, .draining, .saving, .saved].find? fun p => decide (p ∈ ps) with
  | some p => p.code
  | none => 0

/-- A DORMANT gable's bay belongs also to an ACTIVE gable (R505). -/
def Chip.lent (s : Chip) (t : Nat) : Bool :=
  (s.gable t).dormant && (s.gableBays t).any fun b =>
    s.gables.any fun p => p.1 ≠ t && p.2.active && s.maskBit (.gable p.1) (Off.GB_BAYS 0) b

def Chip.gableView (s : Chip) (t off : Nat) : Option W :=
  let g := s.gable t
  let pg := PageRef.gable t
  let n (v : Nat) : Option W := some (BitVec.ofNat 64 v)
  let f := s.gableFreq t
  if off = Off.GB_STEP_STATE then
    n (g.step.code + flagAt (s.gableOpp t) 2 +
      flagAt (decide (g.step = .ended ∧ s.reg pg Off.GB_STEP_DELTA = 0#64)) 3)
  else if off = Off.GB_STEP_ELAPSED ∧ g.step = .running then
    n (nominal s.now.toNat f - nominal (g.firstStart.getD g.stepAt).toNat f)
  else if off = Off.GB_RED_CTRL then n (b2n g.redArm + g.redAttempt <<< 8)
  else if off = Off.GB_RED_DIGEST_CMD then n (fld (s.reg pg off) 0 16 + flagAt g.redDigest.isSome 17)
  else if off = Off.GB_PREEMPT then n (flagAt g.cmdDrop 2)
  else if off = Off.GB_PREEMPT_STATE then n (s.preemptPhase t)
  else if off = Off.GB_STATE then
    n (b2n g.active + flagAt g.dormant 1 + flagAt (s.lent t) 2 + flagAt g.disableDrop 3 + (s.gableBays t).length <<< 16)
  else none

/-! ### METER and POWER pages (R518, R542) -/

def Chip.meterView (s : Chip) (off : Nat) : Option W :=
  let t := fld (s.reg .meter Off.MT_SEL) 0 7
  let m := (s.gable t).meter
  let n (v : Nat) : Option W := some (BitVec.ofNat 64 v)
  let signing := s.sec.jobs.any fun j => match j with | .meter _ u _ => u = t | _ => false
  if off = Off.MT_LIVE_ENERGY then n (m.energyMeas / 16)
  else if off = Off.MT_LIVE_PEAK then n (m.peak % 2 ^ 32)
  else if off = Off.MT_LAST_SEQ then n m.lastSeq
  else if off = Off.MT_STATUS then n (b2n signing + flagAt (decide (1 ≤ t ∧ t ≤ 64) && s.meterFull t) 1)
  else none

/-- An estimate as a register's watts. -/
def estWatts (i : Int) : Nat := min 65535 (i / 65536).toNat

/-- The last measurement of the bays of gable `t`, in 1/16 W. -/
def Chip.gableMeasNow (s : Chip) (t : Nat) : Nat := (s.gableBays t).foldl (fun a b => a + (s.bay b).measured) 0

def Chip.needWatts (s : Chip) (t : Nat) : Nat := min 65535 ((s.needOf t (s.gableBays t)) / 2 ^ 24).toNat

def BayPower.code : BayPower → Nat
  | .unlit => 0 | .shaded => 1 | .lit => 2 | .latched => 3 | .latchedHard => 4

/-- PW_STATE.MODULE. -/
def Chip.moduleState (s : Chip) : Nat :=
  if !s.powered then 0
  else if s.bays.any fun p => p.2.power = .lit then 2
  else if s.bays.any fun p => p.2.power = .shaded then 1
  else 0

def Chip.bayStateView (s : Chip) (b : Nat) : Nat :=
  let x := s.bay b
  let temp := (bayClusters b).foldl (fun n cl => max n (s.cl cl).temp) 0
  x.power.code + flagAt x.armed 3 + x.level <<< 4 + flagAt x.trip 7 + x.latchCause <<< 8 + (temp % 4096) <<< 16 +
    (min 65535 (x.measured / 16)) <<< 32

def Chip.powerView (s : Chip) (off : Nat) : Option W :=
  let t := fld (s.reg .power Off.PW_GSEL) 0 7
  let g := s.gable t
  let b := fld (s.reg .power Off.PW_BSEL) 0 9
  let gOk := decide (1 ≤ t ∧ t ≤ 64)
  let n (v : Nat) : Option W := some (BitVec.ofNat 64 v)
  if off = Off.PW_STATE then n (s.moduleState + flagAt s.module.inletHi 2)
  else if off = Off.PW_SUM then
    n ((s.allotSum 0 + s.t0Allot / 10) % 65536 + (s.t0Allot / 10) <<< 16 +
      estWatts ((List.range 336).foldl (fun (a : Int) b => a + (s.bay b).estimate) 0) <<< 32)
  else if off = Off.PW_G_CEIL then n (if gOk then g.ceil else 0)
  else if off = Off.PW_G_NEED then n (if gOk then s.needWatts t else 0)
  else if off = Off.PW_G_POWER then
    n (if gOk then estWatts (s.gableEst t) + min 65535 (s.gableMeasNow t / 16) <<< 16 + (g.target % 4096) <<< 32 else 0)
  else if off = Off.PW_G_EMERG then n (if gOk then b2n g.overdraw + g.odLevel <<< 1 else 0)
  else if off = Off.PW_BAY_STATE then n (if b < 336 then s.bayStateView b else 0)
  else if off = Off.PW_BAY_CAL then
    n (if b < 336 then (s.bay b).gain % 65536 + codeOf 16 (s.bay b).offset <<< 16 else 0)
  else if off = Off.PW_INLET then n (s.module.inlet.getD 0 % 65536)
  else if off = Off.PW_INPUT then n (s.module.input.getD 0 % 65536)
  else none

/-! ### DEV, HIB, TIMEKEEPER, SEC and BRINGUP pages (R297, R495, R498, R571, R598) -/

def Chip.devView (s : Chip) (off : Nat) : Option W :=
  let r := s.bringup.record
  let n (v : Nat) : Option W := some (BitVec.ofNat 64 v)
  if off = Off.DEV_IDENT then n (1 + r.grade <<< 16 + r.stepping <<< 32)
  else if off = Off.DEV_SERIAL then some r.serial
  else if off = Off.DEV_POPULATED then n (s.commits + s.spareClusters <<< 16)
  else if off = Off.DEV_HALT then
    n (b2n (s.module.haltReg || s.module.fatalHalt) + flagAt s.module.haltedBit 1 + flagAt (!s.module.haltN) 2)
  else none

def Chip.hibView (s : Chip) (off : Nat) : Option W :=
  let v := s.reg .hib off
  let n (v : Nat) : Option W := some (BitVec.ofNat 64 v)
  if off = Off.WMT_STATUS then
    n (fld v 0 12 + flagAt (s.physOf (fld v 0 12)).isSome 12 + flagAt (bit v 13) 13 + s.commits <<< 16)
  else if off = Off.HIB_EPOCH then
    n (s.link.cur + flagAt (!s.link.flipping.isEmpty) 1 + s.link.attach <<< 2 +
      flagAt (s.inService (hostCluster 0) || s.inService (hostCluster 1)) 3)
  else none

def Chip.tkView (s : Chip) (off : Nat) : Option W :=
  let n (v : Nat) : Option W := some (BitVec.ofNat 64 v)
  if off = Off.TK_NOW then some s.tk.now
  else if off = Off.TK_PPS_LAST then some (s.tk.ppsLast.getD 0#64)
  else if off = Off.TK_PPS_STATUS then some (putFld (s.reg .timekeeper off) 0 1 (b2n s.tkLocked))
  else if off = Off.TK_OFFSET then n (codeOf 32 s.tkOffset)
  else if off = Off.TK_TRIM then n (codeOf 32 s.tk.trim)
  else none

def Chip.secView (s : Chip) (off : Nat) : Option W :=
  let n (v : Nat) : Option W := some (BitVec.ofNat 64 v)
  if off = Off.SEC_STATE then n (b2n s.sec.keyReady + flagAt s.sec.rngOk 1 + flagAt (!s.sec.jobs.isEmpty) 2)
  else if off = Off.SEC_CTR_VALUE then n (s.sec.counters.getD (fld (s.reg .sec Off.SEC_CTR_SEL) 0 4) 0 % 2 ^ 32)
  else if off = Off.SEC_REP_CMD then
    n (fld (s.reg .sec off) 0 7 + flagAt s.sec.reportBusy 8 + flagAt s.sec.reportDrop 9)
  else if off = Off.SEC_KEY_CMD then n (fld (s.reg .sec off) 0 22 + flagAt s.sec.keyBusy 26)
  else if off = 0x198 then n (fld (s.reg .sec off) 0 16)
  else if 0x1C0 ≤ off ∧ off < 0x200 then some (Config.rootHash ((off - 0x1C0) / 8))
  else none

def BuState.code : BuState → Nat
  | .idle => 0 | .running => 1 | .opened => 2 | .done => 3 | .refused => 4 | .failed => 5

def Chip.buView (s : Chip) (off : Nat) : Option W :=
  let b := s.bringup
  let n (v : Nat) : Option W := some (BitVec.ofNat 64 v)
  if off = Off.BU_STEP_STATUS then n (b.step + b.state.code <<< 4 + b.fail <<< 8 + (b.detail % 65536) <<< 16)
  else if off = Off.BU_DONE then n (b.done.toNat % 4096 + flagAt b.fastOk 12 + flagAt b.testSkipped 13)
  else if off = 0x148 then n (fld (s.reg .bringup off) 0 16)
  else if off = Off.BU_LAST_RESET then n b.lastReset
  else if off = Off.BU_TEST_BAY then n (fld (s.reg .bringup off) 0 9 + flagAt b.testBay.isSome 10 + b.testResult <<< 11)
  else if off = Off.BU_IMG_CMD then n (flagAt b.imgBusy 1 + flagAt b.imgDrop 2)
  else if off = Off.BU_WEAR then n (b.wear.length + flagAt s.wearFull 21)
  else none

/-! ### A page register (R467, R468) -/

/-- STATUS. FAULT_CAUSE `f` as it reads. -/
def Page.status (p : Page) (f : W) : W :=
  BitVec.ofNat 64 (b2n (p.enable && !p.freeze && f = 0#64) + flagAt p.check.isSome 1 + flagAt p.refused 2 +
    flagAt (f ≠ 0#64) 3)

/-- FAULT_CAUSE as it reads: bit 3 of the DEV page reads a state (R624). -/
def Chip.faultView (s : Chip) (pg : PageRef) : W :=
  let f := (s.page pg).fault
  if pg = .dev then putFld f 3 1 (b2n s.gradeShort) else f

/-- A register of a page that shows state of its block. -/
def Chip.blockView (s : Chip) (pg : PageRef) (off : Nat) : Option W :=
  match pg with
  | .dev => s.devView off
  | .hib => s.hibView off
  | .bringup => s.buView off
  | .timekeeper => s.tkView off
  | .sec => s.secView off
  | .meter => s.meterView off
  | .power => s.powerView off
  | .gable t => s.gableView t off
  | .eave p => s.eaveView p off
  | .field f => s.fieldView f off
  | .bay b => s.bayView b off
  | .baymem b => s.baymemView b off
  | .cluster c => s.clusterView c off
  | .weave c => if off = Off.WV_CTX_STATE then some (s.cl c).weave.stateView else none
  | .dma c n => s.unitView c (if n = 0 then 0 else 1) off
  | .thatcher c => s.unitView c 2 off
  | .gutter c => s.unitView c 3 off
  | .skylight c => s.unitView c 4 off
  | .ctu c => s.ctuView c off

/-- The value a read of a page register returns, before what the read itself changes. -/
def Chip.viewReg (s : Chip) (pg : PageRef) (off : Nat) : W :=
  let p := s.page pg
  if off = 0x000 then BitVec.ofNat 64 (pg.block.code <<< 8 + s.instanceOf pg <<< 16)
  else if off = 0x008 then 0x10001#64
  else if off = 0x010 then BitVec.ofNat 64 (b2n p.enable + flagAt p.freeze 2)
  else if off = 0x018 then p.status (s.faultView pg)
  else if off = 0x020 then p.refusal
  else if off = 0x028 then s.faultView pg
  else if off = 0x030 then p.irqMask
  else if off = 0x038 then p.irqStat
  else if off = 0x040 then p.scratch
  else if off < 0x100 then 0#64
  else match s.blockView pg off with
    | some v => v
    | none => if (pg.block.spec off).isSome then p.reg pg.block off else 0#64

end Sys2Proof.Machine
end

