-- ==== Sys2Proof/Machine/Access.lean ====
section
/-! DEFINITION. Host accesses to the pages (R472 to R481): the command registers, the data ports, and
the commands that are one access. Machine/Registers.lean directs a BAR0 offset at the same operations. -/

namespace Sys2Proof.Machine

open Sys2Proof

/-! ### An access (R474, R475, R488) -/

/-- The HIB answers: standby power is present and the module is not Dark (R540). -/
def Chip.hibOn (s : Chip) : Bool := s.module.standby && !s.module.dark

/-- An access to register `off` of a page. A check of the page settles first; one that cannot holds the
access, and the command changes nothing. -/
def Chip.hostAccess (s : Chip) (pg : PageRef) (off : Nat) (write : Bool) (f : Chip → Chip) : Chip :=
  if !s.hibOn then s
  else if !s.reachable pg then s.noteUnreachAt pg write off
  else
    let s1 := s.finishCheck pg
    if (s1.page pg).check.isSome then s else f (s1.countAccess pg write)

/-- All ones: what a read of a page that does not answer returns (R32). -/
def allOnes : W := BitVec.allOnes 64

/-- A read; `f` gives the value and what the read leaves. -/
def Chip.hostRead (s : Chip) (pg : PageRef) (off : Nat) (f : Chip → W × Chip) : Chip :=
  if !s.hibOn then s
  else if !s.reachable pg then (s.noteUnreachAt pg false off).emit (.readData allOnes)
  else s.hostAccess pg off false fun s =>
    let (v, s) := f s
    s.emit (.readData v)

/-- An access to a data port: `wr` is the word written. -/
def Chip.portAccess (s : Chip) (pg : PageRef) (off : Nat) (wr : Option W) (f : Chip → W × Chip) : Chip :=
  match wr with
  | some _ => s.hostAccess pg off true fun s => (f s).2
  | none => s.hostRead pg off f

/-- A write of one register by its operation. -/
def Chip.cmdWrite (s : Chip) (pg : PageRef) (off : Nat) (f : Chip → Chip) : Chip := s.hostAccess pg off true f

def clOk (cl : Nat) : Bool := decide (cl < 4032)
def gableOk (t : Nat) : Bool := 1 ≤ t && t ≤ 64

/-! ### The core window (R92, R115, R116, R128) -/

/-- A write of CL_CORE_CTRL: more than one action bit discards it (R650). -/
def Chip.coreCtrlWrite (s : Chip) (cl : Nat) (v : W) : Chip :=
  match (s.cl cl).selected with
  | none => s
  | some p =>
    if b2n (bit v 0) + b2n (bit v 1) + b2n (bit v 3) > 1 then s
    else
      let s :=
        if bit v 0 then s.modCore cl p Core.start
        else if bit v 1 then s.hostStop cl p
        else if bit v 3 then (s.endWait cl p).modCore cl p Core.reset
        else s
      s.modCore cl p fun c => { c with o2 := bit v 2 }

/-- CORE_RUN. -/
def execCoreRun (cl : Nat) (v : W) (s : State) : Out := s.run fun s =>
  onUnit (clOk cl) (if bit v 0 then s.cmdWrite (.cluster cl) Off.CL_CORE_CTRL fun s => s.coreCtrlWrite cl v else s)

/-- CORE_HOST_STOP. -/
def execCoreHostStop (cl : Nat) (v : W) (s : State) : Out := s.run fun s =>
  onUnit (clOk cl) (if bit v 1 then s.cmdWrite (.cluster cl) Off.CL_CORE_CTRL fun s => s.coreCtrlWrite cl v else s)

/-- CORE_RESET. -/
def execCoreReset (cl : Nat) (v : W) (s : State) : Out := s.run fun s =>
  onUnit (clOk cl) (if bit v 3 then s.cmdWrite (.cluster cl) Off.CL_CORE_CTRL fun s => s.coreCtrlWrite cl v else s)

/-- O2_MODE_WRITE: a write without an action bit. -/
def execO2ModeWrite (cl : Nat) (v : W) (s : State) : Out := s.run fun s =>
  onUnit (clOk cl) (if bit v 0 || bit v 1 || bit v 3 then s
    else s.cmdWrite (.cluster cl) Off.CL_CORE_CTRL fun s => s.coreCtrlWrite cl v)

/-- The end of a core's reset: it reads STOPPED with cause NONE. -/
def Core.resetDone (c : Core) : Core := if c.run = .resetting then { c with run := .stopped, cause := .none } else c

/-- CORE_RESET_COMPLETE (R92, R126). -/
def execCoreResetComplete (cl core : Nat) (s : State) : Out := s.run fun s =>
  onUnit (clOk cl && core < 136) (s.modCore cl core Core.resetDone)

/-- A write of CL_CORE_FLAG_CMD: SET and CLR together leave the flag as it is (R117); a number above 47
names no flag. -/
def Chip.flagCmdWrite (s : Chip) (cl : Nat) (v : W) : Chip :=
  let f := fld v 0 6
  match (s.cl cl).selected with
  | none => s
  | some p =>
    if f > 47 then s
    else match bit v 8, bit v 9 with
      | true, false => s.modCoreF cl p fun c => c.applySet f
      | false, true => s.modCoreF cl p fun c => c.applyClear f
      | _, _ => s

/-- CORE_FLAG_SET. -/
def execCoreFlagSet (cl : Nat) (v : W) (s : State) : Out := s.run fun s =>
  onUnit (clOk cl) (if bit v 8 then s.cmdWrite (.cluster cl) Off.CL_CORE_FLAG_CMD fun s => s.flagCmdWrite cl v else s)

/-- CORE_FLAG_CLR. -/
def execCoreFlagClr (cl : Nat) (v : W) (s : State) : Out := s.run fun s =>
  onUnit (clOk cl) (if bit v 9 then s.cmdWrite (.cluster cl) Off.CL_CORE_FLAG_CMD fun s => s.flagCmdWrite cl v else s)

/-- An uncorrectable word met by the host's access: a running core stops, and what is read is free. -/
def Chip.hostEcc (s : Chip) (cl p : Nat) (cause : StopCause) : W × Chip :=
  (if (s.core cl p).run = .running then s.stopCore cl p cause else s).draw

/-- Software may write what a core holds: it is STOPPED or HALTED (R127). -/
def Chip.coreOpen (s : Chip) (cl : Nat) (c : Core) : Bool := s.coreState cl c = 1 || s.coreState cl c = 3

/-- An access to CL_CORE_LM_DATA of the selected core; a write takes effect only while it is STOPPED or HALTED
(R127). The address is CL_CORE_LM_ADDR without its bits [2:0], which read as they were written (log entry 52). An
address beyond local memory holds nothing: its read is a free value. -/
def Chip.lmData (s : Chip) (cl : Nat) (wr : Option W) : W × Chip :=
  match (s.cl cl).selected with
  | none => (0#64, s)
  | some p =>
    let a := fld (s.core cl p).lmAddr 0 16 / 8 * 8
    let s := s.modCore cl p fun c => { c with lmAddr := BitVec.ofNat 64 ((a + 8) % 65536) }
    match wr with
    | none =>
      if a ≥ 0xC000 then s.draw
      else match (s.core cl p).lmRead a 8 with
        | (c, some bs) => (BitVec.ofNat 64 (leNat bs), s.modCore cl p fun _ => c)
        | (c, none) => (s.modCore cl p fun _ => c).hostEcc cl p .eccLocal
    | some v =>
      if a ≥ 0xC000 || !s.coreOpen cl (s.core cl p) then (0#64, s)
      else (0#64, s.modCore cl p fun c => (c.lmWrite a (leBytes 8 v.toNat)).1)

/-- LM_DATA_ACCESS. -/
def execLmDataAccess (cl : Nat) (wr : Option W) (s : State) : Out := s.run fun s =>
  onUnit (clOk cl) (s.portAccess (.cluster cl) Off.CL_CORE_LM_DATA wr fun s => s.lmData cl wr)

/-- An access to CL_CORE_ACC_DATA of the selected core; a write takes effect only while it is STOPPED or HALTED
(R127). -/
def Chip.accData (s : Chip) (cl : Nat) (wr : Option W) : W × Chip :=
  match (s.cl cl).selected with
  | none => (0#64, s)
  | some p =>
    let e := fld (s.core cl p).accAddr 0 11
    let s := s.modCore cl p fun c => { c with accAddr := BitVec.ofNat 64 ((e + 1) % 2048) }
    match wr with
    | none =>
      let (c, bad) := (s.core cl p).accScan e (e + 1)
      let s := s.modCore cl p fun _ => c
      if bad then
        let (v, s) := s.hostEcc cl p .eccAcc
        (v &&& 0xFFFFFFFF#64, s)
      else (BitVec.ofNat 64 (c.accAt e).toNat, s)
    | some v =>
      if !s.coreOpen cl (s.core cl p) then (0#64, s)
      else (0#64, s.modCore cl p fun c => c.accWrite e [BitVec.ofNat 32 (fld v 0 32)])

/-- ACC_DATA_ACCESS. -/
def execAccDataAccess (cl : Nat) (wr : Option W) (s : State) : Out := s.run fun s =>
  onUnit (clOk cl) (s.portAccess (.cluster cl) Off.CL_CORE_ACC_DATA wr fun s => s.accData cl wr)

/-! ### Clusters and the halt (R201, R359, R360, R495) -/

/-- A write of CL_START (R201, R650). -/
def Chip.clStartWrite (s : Chip) (cl : Nat) (v : W) : Chip :=
  match bit v 0, bit v 1 with
  | true, false => s.modCl cl Cluster.startAll
  | false, true => s.stopAll cl
  | _, _ => s

/-- CLUSTER_START. -/
def execClusterStart (cl : Nat) (v : W) (s : State) : Out := s.run fun s =>
  onUnit (clOk cl) (if bit v 0 then s.cmdWrite (.cluster cl) Off.CL_START fun s => s.clStartWrite cl v else s)

/-- CLUSTER_STOP. -/
def execClusterStop (cl : Nat) (v : W) (s : State) : Out := s.run fun s =>
  onUnit (clOk cl) (if bit v 1 then s.cmdWrite (.cluster cl) Off.CL_START fun s => s.clStartWrite cl v else s)

/-- HALT_N_FALL (R359, R360). -/
def execHaltNFall (s : State) : Out := s.run fun s =>
  .next (Chip.haltChange s.halting { s with module := { s.module with haltN := false } })

/-- HALT_N_RISE (R359, R495). -/
def execHaltNRise (s : State) : Out := s.run fun s =>
  .next (Chip.haltChange s.halting { s with module := { s.module with haltN := true } })

/-- A write of DEV_HALT: HALT = 0 also ends a halt of R603. -/
def Chip.haltWrite (s : Chip) (v : W) : Chip :=
  Chip.haltChange s.halting { s with module := { s.module with
    haltReg := bit v 0, fatalHalt := s.module.fatalHalt && bit v 0 } }

/-- DEV_HALT_SET. -/
def execDevHaltSet (s : State) : Out := s.run fun s => .next (s.cmdWrite .dev Off.DEV_HALT fun s => s.haltWrite 1#64)

/-- DEV_HALT_CLEAR. -/
def execDevHaltClear (s : State) : Out := s.run fun s => .next (s.cmdWrite .dev Off.DEV_HALT fun s => s.haltWrite 0#64)

/-- HALTED_SET (R495): every reachable cluster has acknowledged. -/
def execHaltedSet (s : State) : Out := s.run fun s =>
  .next (if s.halting && !s.module.haltedBit && s.module.standby then
      { s with module := { s.module with haltedBit := true } }.setReg .dev Off.DEV_HALT_TIME s.now
    else s)

/-! ### The weave (R153, R154, R156, R158) -/

/-- CTX_ARM. -/
def execCtxArm (cl : Nat) (v : W) (s : State) : Out := s.run fun s =>
  onUnit (clOk cl) (if bit v 8 then s.cmdWrite (.weave cl) Off.WV_CTX_CMD fun s => s.ctxCmdWrite cl v else s)

/-- CTX_INVALIDATE. -/
def execCtxInvalidate (cl : Nat) (v : W) (s : State) : Out := s.run fun s =>
  onUnit (clOk cl) (if bit v 9 then s.cmdWrite (.weave cl) Off.WV_CTX_CMD fun s => s.ctxCmdWrite cl v else s)

/-- CTX_SWITCH. -/
def execCtxSwitch (cl : Nat) (v : W) (s : State) : Out := s.run fun s =>
  onUnit (clOk cl) (if bit v 10 then s.cmdWrite (.weave cl) Off.WV_CTX_CMD fun s => s.ctxCmdWrite cl v else s)

/-- Words lo ≤ w < hi of image `ctx` are read: correctable errors are corrected, an uncorrectable one is CTX_ECC
(R165). -/
def Chip.ctxScan (s : Chip) (cl ctx lo hi : Nat) : Chip × Bool :=
  let m := (s.cl cl).weave.imgErr
  let (_, u) := eccScan m (512 * ctx + lo) (512 * ctx + hi)
  let s := s.modCl cl fun x => { x with weave := { x.weave with imgErr := eccFix m (512 * ctx + lo) (512 * ctx + hi) } }
  if u.isSome then (s.weaveEcc cl 1, true) else (s, false)

/-- An access to WV_CTX_DATA; an uncorrectable word reads as a free value. -/
def Chip.ctxData (s : Chip) (cl : Nat) (wr : Option W) : W × Chip :=
  let pg := PageRef.weave cl
  let a := s.reg pg Off.WV_CTX_ADDR
  let i := fld a 0 2
  let w := fld a 8 9
  let s := s.setReg pg Off.WV_CTX_ADDR (putFld a 8 9 ((w + 1) % 512))
  match wr with
  | none =>
    let (s, bad) := s.ctxScan cl i w (w + 1)
    if bad then s.draw else (BitVec.ofNat 64 ((s.cl cl).weave.img i (8 * w) 8), s)
  | some v => (0#64, s.modCl cl fun x => x.ctxWrite i w v)

/-- CTX_DATA_ACCESS. -/
def execCtxDataAccess (cl : Nat) (wr : Option W) (s : State) : Out := s.run fun s =>
  onUnit (clOk cl) (s.portAccess (.weave cl) Off.WV_CTX_DATA wr fun s => s.ctxData cl wr)

/-- Offset of CTRL on every page (R467). -/
def ctrlOff : Nat := 0x010

/-- CTRL with one field given and the other as it stands. -/
def Chip.ctrlNow (s : Chip) (pg : PageRef) (enable freeze : Option Bool) : W :=
  let p := s.page pg
  BitVec.ofNat 64 (b2n (enable.getD p.enable) + 4 * b2n (freeze.getD p.freeze))

/-- WEAVE_FREEZE. -/
def execWeaveFreeze (cl : Nat) (s : State) : Out := s.run fun s =>
  onUnit (clOk cl) (s.cmdWrite (.weave cl) ctrlOff fun s =>
    s.ctrlWrite (.weave cl) (s.ctrlNow (.weave cl) none (some true)))

/-! ### Rings of the units (R174, R178, R203, R232) -/

/-- DMA_TAIL_WRITE. -/
def execDmaTailWrite (cl eng ring : Nat) (v : W) (s : State) : Out := s.run fun s =>
  onUnit (clOk cl && eng < 2 && ring < 4)
    (s.cmdWrite (.dma cl eng) (ringOff ring 3) fun s => s.tailWrite cl eng ring v)

/-- DMA_PAUSE: PAUSE set, the rest of the ring's CFG as it stands. -/
def execDmaPause (cl eng ring : Nat) (s : State) : Out := s.run fun s =>
  onUnit (clOk cl && eng < 2 && ring < 4)
    (s.cmdWrite (.dma cl eng) (ringOff ring 1) fun s => s.modReg (.dma cl eng) (ringOff ring 1) fun v => setBit v 5)

/-- GUTTER_TAIL_WRITE. -/
def execGutterTailWrite (cl : Nat) (v : W) (s : State) : Out := s.run fun s =>
  onUnit (clOk cl) (s.cmdWrite (.gutter cl) (ringOff 0 3) fun s => s.tailWrite cl 3 0 v)

/-- THATCHER_TAIL_WRITE. -/
def execThatcherTailWrite (cl : Nat) (v : W) (s : State) : Out := s.run fun s =>
  onUnit (clOk cl) (s.cmdWrite (.thatcher cl) (ringOff 0 3) fun s => s.tailWrite cl 2 0 v)

/-- SKYLIGHT_TAIL_WRITE. -/
def execSkylightTailWrite (cl : Nat) (v : W) (s : State) : Out := s.run fun s =>
  onUnit (clOk cl) (s.cmdWrite (.skylight cl) (ringOff 0 3) fun s => s.tailWrite cl 4 0 v)

/-- SLOT_ENABLE: a write of GT_SLOTs_CFG with ENABLE = 1. -/
def execSlotEnable (cl slot : Nat) (v : W) (s : State) : Out := s.run fun s =>
  onUnit (clOk cl && slot < 16)
    (if bit v 0 then s.cmdWrite (.gutter cl) (Off.GT_SLOT_CFG slot) fun s => s.slotWrite cl slot v else s)

/-- An access to CL_VFT_DATA. -/
def Chip.vftData (s : Chip) (cl : Nat) (wr : Option W) : W × Chip :=
  let pg := PageRef.cluster cl
  let w := fld (s.reg pg Off.CL_VFT_ADDR) 0 10
  let old := (s.cl cl).vftRead w
  let s := s.setReg pg Off.CL_VFT_ADDR (BitVec.ofNat 64 ((w + 1) % 1024))
  match wr with
  | none => (old, s)
  | some v => (old, s.modCl cl fun x => x.vftWrite w v)

/-- VFT_DATA_ACCESS. -/
def execVftDataAccess (cl : Nat) (wr : Option W) (s : State) : Out := s.run fun s =>
  onUnit (clOk cl) (s.portAccess (.cluster cl) Off.CL_VFT_DATA wr fun s => s.vftData cl wr)

/-! ### Stacks, translation, faults, pre-emption (R243, R257, R273, R510) -/

/-- RETIRE_GO. -/
def execRetireGo (b : Nat) (v : W) (s : State) : Out := s.run fun s =>
  onUnit (b < 336) (s.cmdWrite (.baymem b) Off.BM_RETIRE_CMD fun s => s.retireWrite b v)

/-- CTU_INVALIDATE. -/
def execCtuInvalidate (cl : Nat) (v : W) (s : State) : Out := s.run fun s =>
  onUnit (clOk cl) (s.cmdWrite (.ctu cl) Off.CTU_INVAL_CMD fun s => s.invalWrite cl v)

/-- RESUME. -/
def execResume (cl unit : Nat) (v : W) (s : State) : Out := s.run fun s =>
  onUnit (clOk cl && unit < 5) (s.cmdWrite (unitPage cl unit) Off.RESUME fun s => s.resumeWrite cl unit v)

/-- PREEMPT: a write of GB_PREEMPT with PREEMPT = 1. -/
def execPreempt (t : Nat) (v : W) (s : State) : Out := s.run fun s =>
  onUnit (gableOk t) (if bit v 0 then s.cmdWrite (.gable t) Off.GB_PREEMPT fun s => s.preemptWrite t v else s)

/-- RESTORE: a write of GB_PREEMPT with RESTORE = 1. -/
def execRestore (t : Nat) (v : W) (s : State) : Out := s.run fun s =>
  onUnit (gableOk t) (if bit v 1 then s.cmdWrite (.gable t) Off.GB_PREEMPT fun s => s.preemptWrite t v else s)

/-- TK_SET. -/
def execTkSet (v : W) (s : State) : Out := s.run fun s => .next (s.cmdWrite .timekeeper Off.TK_SET fun s => s.tkSetWrite v)

/-! ### Routers (R321 to R323, R329, R336, R650) -/

/-- A write of CL_RT_CMD. -/
def Chip.rtCmdWrite (s : Chip) (cl : Nat) (v : W) : Chip :=
  let e := b2n (bit v 0)
  if b2n (bit v 8) + b2n (bit v 9) + b2n (bit v 10) + b2n (bit v 11) > 1 then s
  else if bit v 8 then
    if (s.router cl).epochHeld e then s.refuse (.cluster cl) 0x0201 Off.CL_RT_CMD
    else s.modPage (.cluster cl) fun p => { p with check := some (.routeArm e) }
  else if bit v 9 then s.rtInvalidate cl v
  else if bit v 10 then s.rtFlip cl v
  else if bit v 11 then s.rtReset cl v
  else s

/-- ROUTE_ARM. -/
def execRouteArm (cl : Nat) (v : W) (s : State) : Out := s.run fun s =>
  onUnit (clOk cl) (if bit v 8 then s.cmdWrite (.cluster cl) Off.CL_RT_CMD fun s => s.rtCmdWrite cl v else s)

/-- ROUTE_INVALIDATE. -/
def execRouteInvalidate (cl : Nat) (v : W) (s : State) : Out := s.run fun s =>
  onUnit (clOk cl) (if bit v 9 then s.cmdWrite (.cluster cl) Off.CL_RT_CMD fun s => s.rtCmdWrite cl v else s)

/-- FLIP. -/
def execFlip (cl : Nat) (v : W) (s : State) : Out := s.run fun s =>
  onUnit (clOk cl) (if bit v 10 then s.cmdWrite (.cluster cl) Off.CL_RT_CMD fun s => s.rtCmdWrite cl v else s)

/-- ROUTER_RESET. -/
def execRouterReset (cl : Nat) (v : W) (s : State) : Out := s.run fun s =>
  onUnit (clOk cl) (if bit v 11 then s.cmdWrite (.cluster cl) Off.CL_RT_CMD fun s => s.rtCmdWrite cl v else s)

/-- RT_DATA_ACCESS. -/
def execRtDataAccess (cl : Nat) (wr : Option W) (s : State) : Out := s.run fun s =>
  onUnit (clOk cl) (s.portAccess (.cluster cl) Off.CL_RT_DATA wr fun s => s.rtData cl wr)

/-- A write of CL_RT_LINKp. -/
def Chip.rtLinkWrite (s : Chip) (cl p : Nat) (v : W) : Chip :=
  if bit v 3 && bit v 15 then s else if bit v 3 then s.swapWrite cl p v else s.takeOutWrite cl p v

/-- SWAP. -/
def execSwap (cl lp : Nat) (v : W) (s : State) : Out := s.run fun s =>
  onUnit (clOk cl && lp < 8)
    (if bit v 3 then s.cmdWrite (.cluster cl) (Off.CL_RT_LINK lp) fun s => s.rtLinkWrite cl lp v else s)

/-- LINK_TAKE_OUT. -/
def execLinkTakeOut (cl lp : Nat) (v : W) (s : State) : Out := s.run fun s =>
  onUnit (clOk cl && lp < 8)
    (if bit v 15 then s.cmdWrite (.cluster cl) (Off.CL_RT_LINK lp) fun s => s.rtLinkWrite cl lp v else s)

/-! ### Steps and reduction (R344, R346, R389, R390, R392) -/

/-- STEP_START_WRITE. -/
def execStepStartWrite (t : Nat) (v : W) (s : State) : Out := s.run fun s =>
  onUnit (gableOk t) (s.cmdWrite (.gable t) Off.GB_STEP_START fun s => s.stepStart t v)

/-- STEP_RETRY. -/
def execStepRetry (t : Nat) (v : W) (s : State) : Out := s.run fun s =>
  onUnit (gableOk t) (s.cmdWrite (.gable t) Off.GB_STEP_RETRY fun s => s.stepRetry t v)

/-- RED_ARM: a write of GB_RED_CTRL with ARM = 1. -/
def execRedArm (t : Nat) (v : W) (s : State) : Out := s.run fun s =>
  onUnit (gableOk t) (if bit v 0 then s.cmdWrite (.gable t) Off.GB_RED_CTRL fun s => s.redCtrlWrite t v else s)

/-- RED_DISARM: ARM = 0 and ATTEMPT as it stands. -/
def execRedDisarm (t : Nat) (s : State) : Out := s.run fun s =>
  onUnit (gableOk t) (s.cmdWrite (.gable t) Off.GB_RED_CTRL fun s =>
    s.redCtrlWrite t (BitVec.ofNat 64 ((s.gable t).redAttempt <<< 8)))

/-- RED_DATA_ACCESS. -/
def execRedDataAccess (t : Nat) (wr : Option W) (s : State) : Out := s.run fun s =>
  onUnit (gableOk t) (s.portAccess (.gable t) Off.GB_RED_DATA wr fun s => s.redAccess t wr)

/-- DIGEST_GO. -/
def execDigestGo (t : Nat) (v : W) (s : State) : Out := s.run fun s =>
  onUnit (gableOk t) (s.cmdWrite (.gable t) Off.GB_RED_DIGEST_CMD fun s => s.digestWrite t v)

/-! ### Eave ports (R399, R413, R426, R428) -/

/-- PORT_TRAIN. -/
def execPortTrain (p : Nat) (v : W) (s : State) : Out := s.run fun s =>
  onUnit (p < 32) (if bit v 0 then s.cmdWrite (.eave p) Off.EV_TRAIN_CMD fun s => s.trainWrite p v else s)

/-- PORT_TAKE_OUT. -/
def execPortTakeOut (p : Nat) (v : W) (s : State) : Out := s.run fun s =>
  onUnit (p < 32) (if bit v 1 then s.cmdWrite (.eave p) Off.EV_TRAIN_CMD fun s => s.trainWrite p v else s)

/-- SESSION_ENABLE. -/
def execSessionEnable (p : Nat) (v : W) (s : State) : Out := s.run fun s =>
  onUnit (p < 32) (if bit v 9 then s.cmdWrite (.eave p) Off.EV_SESS_CMD fun s => s.sessCmdWrite p v else s)

/-- SESSION_DISABLE. -/
def execSessionDisable (p : Nat) (v : W) (s : State) : Out := s.run fun s =>
  onUnit (p < 32) (if bit v 10 then s.cmdWrite (.eave p) Off.EV_SESS_CMD fun s => s.sessCmdWrite p v else s)

/-- SESS_DATA_ACCESS. -/
def execSessDataAccess (p : Nat) (wr : Option W) (s : State) : Out := s.run fun s =>
  onUnit (p < 32) (s.portAccess (.eave p) Off.EV_SESS_DATA wr fun s => s.sessAccess p wr)

/-- EV_POST_WRITE. -/
def execEvPostWrite (cl i8 : Nat) (v : W) (s : State) : Out := s.run fun s =>
  onUnit (clOk cl && i8 < 8) (s.cmdWrite (.cluster cl) (Off.CL_EV_POST i8) fun s => s.evPostWrite cl i8 v)

/-! ### The common page (R471, R474, R477, R481) -/

/-- ENABLE_WRITE. -/
def execEnableWrite (pg : PageRef) (s : State) : Out := s.run fun s =>
  onUnit pg.ok (s.cmdWrite pg ctrlOff fun s => s.ctrlWrite pg (s.ctrlNow pg (some true) none))

/-- CONSISTENCY_CHECK_COMPLETE. -/
def execConsistencyCheckComplete (pg : PageRef) (s : State) : Out := s.run fun s =>
  onUnit pg.ok (if (s.page pg).check = some .softReset then s else s.finishCheck pg)

/-- DISABLE_WRITE. -/
def execDisableWrite (pg : PageRef) (s : State) : Out := s.run fun s =>
  onUnit pg.ok (s.cmdWrite pg ctrlOff fun s => s.ctrlWrite pg (s.ctrlNow pg (some false) none))

/-- SOFT_RESET. -/
def execSoftReset (pg : PageRef) (s : State) : Out := s.run fun s =>
  onUnit pg.ok (s.cmdWrite pg ctrlOff fun s => s.ctrlWrite pg 2#64)

/-- SOFT_RESET_COMPLETE. -/
def execSoftResetComplete (pg : PageRef) (s : State) : Out := s.run fun s =>
  onUnit pg.ok (if (s.page pg).check = some .softReset then s.finishCheck pg else s)

/-- DEV_FENCE_READ: every write so far has taken effect where it is held in the model, so the read
returns 0 at once. -/
def execDevFenceRead (s : State) : Out := s.run fun s => .next (s.hostRead .dev Off.DEV_FENCE fun s => (0#64, s))

/-! ### The HIB and DEV pages (R487, R489 to R492, R496) -/

/-- A write of CL_WINDOW_SELn. -/
def Chip.windowWrite (s : Chip) (n : Nat) (v : W) : Chip :=
  s.setReg .hib (Off.CL_WINDOW_SEL n) (BitVec.ofNat 64 (fld v 0 26))

/-- WINDOW_SELECT. -/
def execWindowSelect (n16 : Nat) (v : W) (s : State) : Out := s.run fun s =>
  onUnit (n16 < 16) (s.cmdWrite .hib (Off.CL_WINDOW_SEL n16) fun s => s.windowWrite n16 v)

/-- Entries of the Wafer Map Table: 4,096 logical clusters of 128 cores. -/
def wmtSize : Nat := 524288

/-- A write of Wafer Map Table entry `i`: dropped for a committed logical cluster (R490). -/
def Chip.wmtWrite (s : Chip) (i : Nat) (v : W) : Chip :=
  if (s.physOf (i / 128)).isSome then s.modReg .hib Off.WMT_STATUS fun x => setBit x 13
  else { s with wmt := SMap.set 0#64 s.wmt i v, wmtErr := eccWipe s.wmtErr i (i + 1) }

/-- WMT_ECC after the entries lo ≤ i < hi were read; an uncorrectable one raises DEV WMT_ECC (R489). -/
def Chip.wmtScan (s : Chip) (lo hi : Nat) : Chip × Bool :=
  let (n, u) := eccScan s.wmtErr lo hi
  if n = 0 && u.isNone then (s, false)
  else
    let e := u.getD (lastMark s.wmtErr lo hi)
    let s := { s with wmtErr := eccFix s.wmtErr lo hi }.modReg .hib Off.WMT_ECC fun v =>
      putFld (if u.isSome then setBit (satField 16 n v) 16 else satField 16 n v) 17 19 e
    if u.isSome then (s.raise .dev 0, true) else (s, false)

/-- A read of Wafer Map Table entry `i`: an uncorrectable entry reads as a free value. -/
def Chip.wmtRead (s : Chip) (i : Nat) : W × Chip :=
  let (s, bad) := s.wmtScan i (i + 1)
  if bad then s.draw else (SMap.get 0#64 s.wmt i, s)

/-- The aperture of R484. -/
def wmtBase : Nat := 0x400000

/-- An access to the aperture, which the HIB answers. -/
def Chip.wmtAccess (s : Chip) (f : Chip → Chip) (write : Bool) : Chip :=
  if !s.hibOn then s
  else
    let s := s.finishCheck .hib
    f (s.countAccess .hib write)

/-- WMT_ENTRY_WRITE. -/
def execWmtEntryWrite (wmt : Nat) (v : W) (s : State) : Out := s.run fun s =>
  onUnit (wmt < wmtSize) (s.wmtAccess (fun s => s.wmtWrite wmt v) true)

/-- A write of WMT_CMD: LC selects the cluster of WMT_STATUS; COMMIT reads the 128 entries. -/
def Chip.wmtCmdWrite (s : Chip) (v : W) : Chip :=
  let l := fld v 0 12
  if bit v 16 && bit v 17 then s
  else
    let s := s.modReg .hib Off.WMT_STATUS fun x => putFld x 0 12 l
    if bit v 16 then
      if (s.physOf l).isSome then s
      else (s.wmtScan (128 * l) (128 * l + 128)).1.modPage .hib fun p => { p with check := some (.commit l) }
    else if bit v 17 then s.releaseLc l
    else s

/-- COMMIT. -/
def execCommit (v : W) (s : State) : Out := s.run fun s =>
  .next (if bit v 16 then s.cmdWrite .hib Off.WMT_CMD fun s => s.wmtCmdWrite v else s)

/-- RELEASE. -/
def execRelease (v : W) (s : State) : Out := s.run fun s =>
  .next (if bit v 17 then s.cmdWrite .hib Off.WMT_CMD fun s => s.wmtCmdWrite v else s)

/-- MAP_EN. -/
def execMapEn (cl : Nat) (s : State) : Out := s.run fun s =>
  onUnit (clOk cl) (s.cmdWrite (.cluster cl) Off.CL_MAP_CTRL fun s => s.mapWrite cl 1#64)

/-- MAP_DISABLE. -/
def execMapDisable (cl : Nat) (s : State) : Out := s.run fun s =>
  onUnit (clOk cl) (s.cmdWrite (.cluster cl) Off.CL_MAP_CTRL fun s => s.mapWrite cl 0#64)

/-- A write of DEV_ENGINE_ID (R496). -/
def Chip.engineIdWrite (s : Chip) (v : W) : Chip :=
  if s.bringup.eaveStarted then s.refuse .dev 0x0702 Off.DEV_ENGINE_ID
  else s.setReg .dev Off.DEV_ENGINE_ID (BitVec.ofNat 64 (fld v 0 11))

/-- ENGINE_ID_WRITE. -/
def execEngineIdWrite (v : W) (s : State) : Out := s.run fun s => .next (s.cmdWrite .dev Off.DEV_ENGINE_ID fun s => s.engineIdWrite v)

/-! ### Gables and meters (R500 to R508, R515, R518) -/

/-- GABLE_ENABLE. -/
def execGableEnable (t : Nat) (s : State) : Out := s.run fun s =>
  onUnit (gableOk t) (s.cmdWrite (.gable t) ctrlOff fun s => s.ctrlWrite (.gable t) 1#64)

/-- GABLE_DISABLE. -/
def execGableDisable (t : Nat) (s : State) : Out := s.run fun s =>
  onUnit (gableOk t) (s.cmdWrite (.gable t) ctrlOff fun s => s.ctrlWrite (.gable t) 0#64)

/-- BAY_ADD. -/
def execBayAdd (t : Nat) (v : W) (s : State) : Out := s.run fun s =>
  onUnit (gableOk t) (if bit v 9 then s.cmdWrite (.gable t) Off.GB_BAYCMD fun s => s.bayCmdWrite t v else s)

/-- BAY_REMOVE. -/
def execBayRemove (t : Nat) (v : W) (s : State) : Out := s.run fun s =>
  onUnit (gableOk t) (if bit v 10 then s.cmdWrite (.gable t) Off.GB_BAYCMD fun s => s.bayCmdWrite t v else s)

/-- ALLOT_WRITE. -/
def execAllotWrite (t : Nat) (v : W) (s : State) : Out := s.run fun s =>
  onUnit (gableOk t) (s.cmdWrite (.gable t) Off.GB_ALLOT fun s => s.allotWrite t v)

/-- MT_CLOSE. -/
def execMtClose (v : W) (s : State) : Out := s.run fun s => .next (s.cmdWrite .meter Off.MT_CLOSE fun s => s.meterClose v)

/-- MT_INTERVAL_WRITE. -/
def execMtIntervalWrite (v : W) (s : State) : Out := s.run fun s => .next (s.cmdWrite .meter Off.MT_INTERVAL fun s => s.intervalWrite v)

/-- MT_REC_DATA_READ. -/
def execMtRecDataRead (s : State) : Out := s.run fun s => .next (s.hostRead .meter Off.MT_REC_DATA Chip.meterRecWord)

/-- RELIGHT: a write of PW_BAY_CMD with RELIGHT = 1. -/
def execRelight (v : W) (s : State) : Out := s.run fun s => .next (if bit v 0 then s.cmdWrite .power Off.PW_BAY_CMD fun s => s.relightWrite v else s)

end Sys2Proof.Machine
end

