-- ==== Sys2Proof/Machine/Bringup.lean ====
section
/-! DEFINITION. Bring-up and resets (chapter 16, R537, R540, R628): the steps of R546, the wafer record,
Talnus and its field controllers, cold, warm and gable resets, Dark and the loss of power. -/

namespace Sys2Proof.Machine

open Sys2Proof

def Chip.modBu (s : Chip) (f : Bringup → Bringup) : Chip := { s with bringup := f s.bringup }

/-! ### Marks of cores and clusters (R331, R555, R557) -/

/-- Physical core `p` becomes dead. -/
def Cluster.markDead (x : Cluster) (p : Nat) : Cluster :=
  { x with page := x.page.modReg .cluster (Off.CL_CORE_DEAD0 + 8 * (p / 64)) fun v => setBit v (p % 64) }

/-- Cluster `cl` becomes unusable, and a hole when its router is not in service. -/
def Chip.markCluster (s : Chip) (cl : Nat) (hole : Bool) : Chip :=
  let s := s.modCl cl fun x => { x with
    unusable := true, hole := x.hole || hole
    router := if hole then { x.router with up := false } else x.router }
  if hole then s.linksOff cl else s

/-- A spare wire in use at port `p` of cluster `cl`. -/
def Chip.setSpare (s : Chip) (cl p wire : Nat) : Chip :=
  s.modLink cl p fun l => { l with spares := SMap.set none l.spares (wireGroup wire) (some wire) }

/-- What an accepted wear-log entry says, by its kind and DATA. -/
def Chip.applyWear (s : Chip) (e : WearEntry) : Chip :=
  match e.kind, e.data with
  | 1, [b, f] => s.modBay b fun x => { x with retired := if f ∈ x.retired then x.retired else x.retired ++ [f] }
  | 2, [x, y, p, w] => s.setSpare (clAt x y) p w
  | 3, [x, y, c] => s.modCl (clAt x y) fun k => k.markDead c
  | 4, [x, y, h] => s.markCluster (clAt x y) (h = 1)
  | 5, [x, y, mv] => s.modCl (clAt x y) fun k => { k with vminRaises := k.vminRaises + mv / 10 }
  | 6, [x, y, r] => s.modCl (clAt x y) fun k => { k with slowdown := r }
  | _, _ => s

/-- The signed base applied. -/
def Chip.applyBase (s : Chip) : Chip :=
  let r := s.bringup.record
  let s := r.defects.foldl (fun s p => if p.2 = 1 || p.2 = 2 then s.markCluster p.1 (p.2 = 2) else s) s
  let s := r.deadCores.foldl (fun s p =>
    ((List.range 136).filter fun c => p.2.getLsbD c).foldl (fun s c => s.modCl p.1 fun k => k.markDead c) s) s
  r.spareWires.foldl (fun s p =>
    ((List.range 1088).filter fun w => p.2.testBit w).foldl (fun s w => s.setSpare (p.1 / 8) (p.1 % 8) w) s) s

/-! ### The wear log and the record (R555, R556) -/

/-- Entries with their SEQ. -/
def Bringup.entries (b : Bringup) : List (Nat × WearEntry) := b.wear.zipIdx.map fun p => (p.2 + 1, p.1)

/-- An entry that RECORD accepts: its MAC holds, and its SEQ is not above WEAR_SEQ. -/
def Chip.wearAccepted (s : Chip) (p : Nat × WearEntry) : Bool := p.2.macOk && decide (p.1 ≤ s.sec.counters.getD 2 0)

/-- SEQ of the last entry whose MAC holds. -/
def Bringup.lastSeq (b : Bringup) : Nat := ((b.entries.filter fun p => p.2.macOk).getLast?.map (·.1)).getD 0

/-- Contents of the section of a TYPE: DEFECT and VMIN as R554 lays them out, else the bytes held. -/
def WaferRecord.content (r : WaferRecord) (ty : Nat) : List Byte :=
  if ty = 1 then (List.range 4032).flatMap fun cl =>
    leBytes 1 (SMap.get 0 r.defects cl) ++ leBytes 17 (SMap.get 0#136 r.deadCores cl).toNat
  else if ty = 3 then (List.range 4032).flatMap fun cl =>
    (List.range 27).flatMap fun i => leBytes 2 (SMap.get 0 r.vmin (32 * cl + i))
  else SMap.get [] r.sections ty

/-- The header and the DIRECTORY of the signed base (R554). -/
def WaferRecord.header (r : WaferRecord) : List Byte :=
  leBytes 2 r.format ++ leBytes 2 r.nsect ++ leBytes 4 r.length ++ leBytes 8 r.serial.toNat ++
    leBytes 8 r.waferId.toNat ++ leBytes 2 r.grade ++ leBytes 1 r.stepping ++ leBytes 1 0 ++ leBytes 4 r.svn ++
    leBytes 32 0 ++ r.directory.flatMap fun d => leBytes 2 d.1 ++ leBytes 2 0 ++ leBytes 4 d.2.1 ++ leBytes 4 d.2.2 ++ leBytes 4 0

/-- Byte `i` of the signed base with its signature: no byte of a section and no other is 0. -/
def WaferRecord.byteAt (r : WaferRecord) (i : Nat) : Byte :=
  if r.length ≤ i then (leBytes 512 r.signature.toNat).getD (i - r.length) 0#8
  else if i < r.header.length then r.header.getD i 0#8
  else match r.directory.find? fun d => d.2.1 ≤ i && i < d.2.1 + d.2.2 with
    | some d => (r.content d.1).getD (i - d.2.1) 0#8
    | none => 0#8

/-- The first row of R556: FORMAT, NSECT, a DIRECTORY entry beyond LENGTH, a TYPE twice or unknown. -/
def WaferRecord.formBad (r : WaferRecord) : Bool :=
  r.format ≠ 1 || r.nsect < 1 || r.nsect > 32 || r.directory.length ≠ r.nsect ||
    r.directory.any (fun d => d.2.1 + d.2.2 > r.length || d.1 < 1 || d.1 > 8) || !(r.directory.map (·.1)).Nodup

/-- A counter is read: an answer of the flash that does not authenticate sets CTR_AUTH (R581, R583). -/
def Chip.ctrRead (s : Chip) : Chip := if s.sec.ctrOk then s else s.raise .sec 2

/-- The first check of R556 that does not pass. -/
def Chip.recordFail (s : Chip) : Option Nat :=
  let r := s.bringup.record
  if r.formBad then some 4
  else if !r.sigOk then some 5
  else if r.waferId ≠ s.bringup.waferId then some 6
  else if !s.sec.ctrOk || decide (r.svn < s.sec.counters.getD 0 0) ||
    decide (s.bringup.lastSeq < s.sec.counters.getD 2 0) then some 7
  else none

/-! ### The Talnus image (R558, R561) -/

/-- Word `w` of the image region: what the host wrote, else what the erased or the shipped region holds, which
the manual does not give (log entry 34). -/
def Bringup.imageWord (b : Bringup) (w : Nat) : W :=
  (SMap.get none b.image w).getD (if b.imageOwn then Config.erasedWord w else Config.shippedWord w)

/-- `n` bytes of the image region from `off`. -/
def Bringup.imageBytes (b : Bringup) (off n : Nat) : List Byte :=
  (List.range n).map fun i => BitVec.ofNat 8 ((b.imageWord ((off + i) / 8)).toNat >>> (8 * ((off + i) % 8)))

/-- The region still holds the image as shipped. -/
def Bringup.asShipped (b : Bringup) : Bool := !b.imageOwn && b.image.isEmpty

/-- SVN of the image in the region (R558). -/
def Bringup.svnHeld (b : Bringup) : Nat := if b.asShipped then b.imageSvn else leNat (b.imageBytes 8 4)

/-- The vendor signature of the image in the region holds (R558, R559). -/
def Bringup.imageSigned (b : Bringup) : Bool :=
  if b.asShipped then b.imageSigOk
  else
    let n := leNat (b.imageBytes 4 4)
    vendorVerify (b.imageBytes 0 n) (b.imageBytes n 512)

/-- The 64 bytes of a wear-log entry: DATA as 4-byte numbers. -/
def wearBytes (seq : Nat) (e : WearEntry) : List Byte :=
  let head := leBytes 2 e.kind ++ leBytes 2 0 ++ leBytes 4 seq ++ leBytes 8 e.time.toNat ++
    ((e.data.flatMap (leBytes 4)) ++ leBytes 16 0).take 16
  head ++ assemblyMac head

/-- What the state block's MAC covers; the training of a stack, whose form is not given, enters as one byte that says
it is held (log entry 26). -/
def StateBlock.bytes (b : StateBlock) : List Byte :=
  (List.range 336).map (fun k => BitVec.ofNat 8 (b2n (decide (k ∈ b.trained)))) ++ leBytes 64 b.digest.toNat

/-- Byte `off` of the module flash (R553): the signed base, the Talnus image, the wear log and the state block. The
replay-protected counters are those of the SEC block (R581); what no region holds reads 0. -/
def Bringup.flash (b : Bringup) (off : Nat) : Byte :=
  if off < 0x4000000 then b.record.byteAt off
  else if off < 0x8000000 then
    BitVec.ofNat 8 ((b.imageWord ((off - 0x4000000) / 8)).toNat >>> (8 * (off % 8)))
  else if off < 0xC000000 then
    match b.wear[(off - 0x8000000) / 64]? with
    | some e => (wearBytes ((off - 0x8000000) / 64 + 1) e).getD (off % 64) 0#8
    | none => 0#8
  else if off < 0xD000000 then
    match b.block with
    | some x => (x.bytes ++ x.mac).getD (off - 0xC000000) 0#8
    | none => 0#8
  else 0#8

/-- `n` bytes of the flash from `off`. -/
def Bringup.flashBytes (b : Bringup) (off n : Nat) : List Byte := (List.range n).map fun i => b.flash (off + i)

/-- The signed base with its signature, and the image with its own. -/
def Bringup.baseBytes (b : Bringup) : List Byte := b.flashBytes 0 (b.record.length + 512)
def Bringup.talnusBytes (b : Bringup) : List Byte := b.flashBytes 0x4000000 (leNat (b.imageBytes 4 4) + 512)

/-- Measurements 1 and 2 of R586: what the image region holds, and the signed base. -/
def Bringup.imageMeasure (b : Bringup) : BitVec 512 := BitVec.ofNat 512 (leNat (sha512 b.talnusBytes))
def Bringup.baseMeasure (b : Bringup) : BitVec 512 := BitVec.ofNat 512 (leNat (sha512 b.baseBytes))

/-- The last-known-good digest of R552. -/
def Chip.goodDigest (s : Chip) : BitVec 512 :=
  let b := s.bringup
  let es := (b.entries.filter fun p => decide (p.2.kind = 2 ∨ p.2.kind = 3 ∨ p.2.kind = 4)).flatMap fun p => wearBytes p.1 p.2
  BitVec.ofNat 512 (leNat (sha512 (b.baseBytes ++ es ++ b.talnusBytes)))

/-- The state block's MAC is valid (R551). -/
def StateBlock.macOk (b : StateBlock) : Bool := decide (b.mac = assemblyMac b.bytes)

/-- Bays that are up: Shaded or Lit. -/
def Chip.upBays (s : Chip) : List Nat := (List.range 336).filter s.bayOk
/-- The clusters of those bays. -/
def Chip.upClusters (s : Chip) : List Nat := s.upBays.flatMap bayClusters

/-- FAST_OK (R551). -/
def Chip.fastDecision (s : Chip) : Bool :=
  bit (s.reg .bringup Off.BU_CFG) 0 && decide (s.bringup.lastReset = 2) &&
    match s.bringup.block with
    | some x => x.macOk && (s.upBays.all fun b => b ∈ x.trained) && decide (x.digest = s.goodDigest)
    | none => false

/-! ### What each step does (R546) -/

/-- Step 0: the masked bays come up; those of `ns` latch off instead. -/
def Chip.doRails (s : Chip) (ns : List Nat) : Chip :=
  if !s.powered then s
  else (List.range 336).foldl (fun s b =>
    if !s.maskBit .bringup (Off.BU_RAILS 0) b || (s.bay b).power ≠ .unlit then s
    else if b ∈ ns then (s.modBay b fun x => { x with power := .latched, latchCause := 1 }).reportLatch b
    else s.modBay b fun x => { x with power := .shaded }) s

/-- Step 1: the clusters of `ns` do not lock; 4032 in it stands for the wafer reference. -/
def Chip.doClocks (s : Chip) (ns : List Nat) : Chip :=
  let s := Chip.gradeChange s.gradeShort <| s.upClusters.foldl (fun s cl =>
    if cl ∈ ns then (s.modCl cl fun x => { x with locked := false }).markCluster cl true
    else s.modCl cl fun x => { x with locked := true }) s
  s.modBu fun b => { b with
    clocksStarted := true
    found := if 4032 ∈ ns then some (2, (s.upClusters.filter fun cl => (s.cl cl).locked).length) else b.found }

/-- Step 2: every node reads the timebase; `of` is a field that does not come up. -/
def Chip.doRidge (s : Chip) (of : Option Nat) : Chip :=
  match of with
  | some f => s.modBu fun b => { b with found := some (3, f) }
  | none =>
    let s := s.upClusters.foldl (fun s cl => s.modCl cl fun x => { x with tbOff := 0, tbMissed := 0 }) s
    { s with
      bays := SMap.mapVals {} s.bays fun _ x => { x with node := {} }
      fields := SMap.mapVals {} s.fields fun _ x => { x with node := {} } }

/-- The device key unwrapped (R576): only when the SEC block does not hold it already, and the bays came up from
UNLIT, which after a warm reset they have not. -/
def Chip.unwrapKey (s : Chip) : Chip :=
  if s.sec.keyReady || s.bringup.lastReset = 2 then s
  else if s.bringup.record.keyOk then { s with sec := { s.sec with keyReady := true } }
  else s.raise .sec 0

/-- Step 3 (R556, R557). -/
def Chip.doRecord (s : Chip) : Chip :=
  match s.recordFail with
  | some c =>
    let s := s.modBu fun b => { b with found := some (c, (b.entries.filter fun p => !s.wearAccepted p).length) }
    if c = 7 then s.ctrRead else s
  | none =>
    let good := s.bringup.entries.filter s.wearAccepted
    let s := Chip.gradeChange s.gradeShort (good.foldl (fun s p => s.applyWear p.2) s.applyBase)
    let s := s.modBu fun b => { b with recMeasure := b.baseMeasure, verifiedSvn := b.record.svn }
    let s := s.modBu fun b => { b with fastOk := s.fastDecision }
    s.unwrapKey

/-- The wafer record says of cluster `cl` that it is unusable, and with `hole` that it is a hole. -/
def Chip.recordedDead (s : Chip) (cl : Nat) (hole : Bool) : Bool :=
  s.bringup.record.defects.any (fun p => p.1 = cl && (p.2 = 2 || (p.2 = 1 && !hole))) ||
    s.bringup.wear.any fun e => e.kind = 4 && e.macOk &&
      (e.data = [clX cl, clY cl, 1] || (e.data = [clX cl, clY cl, 0] && !hole))

/-- A tested core or cluster that failed, marked and logged; one that the record has already is not logged again. -/
def Chip.failCore (s : Chip) (cl p : Nat) : Chip :=
  if (s.cl cl).coreDead p then s
  else (s.modCl cl fun x => x.markDead p).wearAdd 3 [clX cl, clY cl, p]
def Chip.failCluster (s : Chip) (cl : Nat) (hole : Bool) : Chip :=
  let known := s.recordedDead cl hole
  let s := s.markCluster cl hole
  if known then s else s.wearAdd 4 [clX cl, clY cl, b2n hole]

/-- A test of the clusters `cls`: `ns` names failing cores as 136 × cluster + core, `ms` failing clusters as
2 × cluster, plus 1 when the router fails. -/
def Chip.selfTest (s : Chip) (cls ns ms : List Nat) : Chip :=
  let s := (ns.filter fun k => k / 136 ∈ cls).foldl (fun s k => s.failCore (k / 136) (k % 136)) s
  (ms.filter fun k => k / 2 ∈ cls).foldl (fun s k => s.failCluster (k / 2) (k % 2 = 1)) s

/-- Step 4. A cluster whose clock did not lock at step CLOCKS, before the record was read, is logged as a hole here
(R331, R555). -/
def Chip.doTest (s : Chip) (ns ms : List Nat) : Chip :=
  if s.bringup.fastOk then s.modBu fun b => { b with testSkipped := true, testRan := false }
  else
    let s := s.modBu fun b => { b with testSkipped := false, testRan := true }
    let s := Chip.gradeChange s.gradeShort ((s.upClusters.filter fun cl => !(s.cl cl).locked).foldl (fun s cl => s.failCluster cl true) (s.selfTest s.upClusters ns ms))
    s.upBays.foldl (fun s b =>
      (s.modBay b fun x => { x with untested := false }).setReg (.bay b) Off.BY_TEST_TIME s.now) s

/-- The link at port `p` of `cl` trains between routers in service: UP, unless `bad` or short of spares in either
direction; `wires` gives the failing wires of a direction. Between others it is OUT (R331). -/
def Chip.trainLink (s : Chip) (bad : Bool) (wires : Nat → Nat → List Nat) (cl p : Nat) : Chip :=
  match neighbour cl p with
  | none => s
  | some nb =>
    if !(s.inService cl && s.inService nb) then s.linkOff cl p
    else
      let (s, ok) := s.calibrateBoth cl p (wires cl p) (wires nb (oppPort p))
      if ok && !bad then s.modBoth cl p fun l => { l with state := .up, replays := 0 } else s.linkOut cl p

/-- The key 8 × cluster + port of a link's lower end. -/
def linkKey (cl p : Nat) : Nat := match neighbour cl p with
  | some nb => if nb < cl then 8 * nb + oppPort p else 8 * cl + p
  | none => 8 * cl + p

def keysOf (ns : List Nat) : List Nat := ns.map fun k => linkKey (k / 8) (k % 8)

/-- The wires of the direction of port `p` of `cl` that `ms` names. -/
def wiresOf (ms : List Nat) (cl p : Nat) : List Nat := (ms.filter fun k => k / 2048 = 8 * cl + p).map (· % 2048)

/-- The links that do not train, as 8 × cluster + port, and the failing wires, as 2,048 × (8 × cluster + port) + wire,
among what a training meets. -/
def failedLinks (l : List LinkFail) : List Nat :=
  l.filterMap fun f => match f with | .link cl p => some (8 * cl + p % 8) | .wire _ _ _ => none
def failedWires (l : List LinkFail) : List Nat :=
  l.filterMap fun f => match f with | .link _ _ => none | .wire cl p w => some (2048 * (8 * cl + p % 8) + w % 2048)

/-- Every link once, by its end at the lower cluster. -/
def allLinks : List (Nat × Nat) :=
  (List.range 4032).flatMap fun cl => ((List.range 8).filter fun p => match neighbour cl p with
    | some nb => decide (cl < nb)
    | none => false).map fun p => (cl, p)

/-- Routers in service start forwarding under epoch 0. -/
def Chip.routersUp (s : Chip) (cls : List Nat) : Chip :=
  cls.foldl (fun s cl =>
    if s.inService cl then (s.modRouter cl fun r => { r with up := true, cur := 0, flipping := [] }).followCur cl else s) s

/-- Step 6: the links of `ns` (8 × cluster + port) do not train; `ms` names the wires that fail
(2,048 × (8 × cluster + port) + wire). -/
def Chip.doMesh (s : Chip) (ns ms : List Nat) : Chip :=
  let s := s.routersUp s.upClusters
  let s := { s with link := { s.link with attachOut := [] } }
  let s := s.hibAttach (if s.inService (hostCluster 0) || !s.inService (hostCluster 1) then 0 else 1)
  allLinks.foldl (fun s l => s.trainLink (8 * l.1 + l.2 ∈ keysOf ns) (wiresOf ms) l.1 l.2) s

/-- The fields with a supplied bay. -/
def Chip.upFields (s : Chip) : List Nat := (List.range 84).filter fun f => s.reachable (.field f)

/-- The microcode of the image. -/
def Bringup.microcode (b : Bringup) : List Byte :=
  if b.asShipped then [] else b.imageBytes (leNat (b.imageBytes 24 4)) (min (leNat (b.imageBytes 28 4)) (2 ^ 20))

/-- MICROCODE packets, 8,184 bytes of the image each: byte offset and data. -/
def Bringup.microcodeParts (b : Bringup) : List (Nat × List Byte) :=
  let m := b.microcode
  (List.range (max 1 ((m.length + 8183) / 8184))).map fun i => (8184 * i, (m.drop (8184 * i)).take 8184)

/-- A delivered MICROCODE packet is written to the store of the cluster it was delivered in. -/
def Chip.microcodeIn (s : Chip) (cl off : Nat) (bs : List Byte) : Chip :=
  s.modCl cl fun x => { x with microcode := Memory.write x.microcode off bs }

/-- The controller of its field sends cluster `cl`, committed as `l`, its microcode (R562): MICROCODE packets of tint 0
on channel 14, each carried by the armed tables. R320 has them go as multicast packets, but no rule names the multicast
index that the controllers send to: each goes to its cluster alone (DESIGN CHOICE, log entry 56). Whether all were delivered there, and so acknowledged. -/
def Chip.sendMicrocode (s : Chip) (l cl : Nat) : Chip × Bool :=
  match s.fieldRouter (clField cl) with
  | none => (s, false)
  | some src =>
    let (s, ok) := s.bringup.microcodeParts.foldl (fun (s, ok) (off, bs) =>
      let (k, s1) := s.fieldStamped src { destLC := l, destUnit := 8, channel := 14, payload := leBytes 8 off ++ bs }
      match s1.carry k maxHops src with
      | .at s far 8 => (s.microcodeIn far off bs, ok && far = cl)
      | .at s _ _ => (s, false)
      | .held h => (s.waiting h, false)
      | .lost s => (s, false)) (s, true)
    (if ok then s.modCl cl fun x => { x with microcodeOk := true } else s, ok)

/-- Step 7: `of` below 84 is a field controller that does not report; 84 + l a logical cluster that does not
acknowledge its microcode. The lowest logical cluster that microcode does not reach fails the step as well. -/
def Chip.doFirmware (s : Chip) (of : Option Nat) : Chip :=
  let b := s.bringup
  if !b.imageSigned then s.modBu fun b => { b with found := some (9, 0) }
  else if !s.sec.ctrOk || b.svnHeld < s.sec.counters.getD 1 0 then s.ctrRead.modBu fun b => { b with found := some (10, 0) }
  else
    let s := s.modBu fun b => { b with fwMeasure := b.imageMeasure, runningSvn := b.svnHeld }
    let s := (s.upFields.filter fun f => of ≠ some f).foldl (fun s f => s.modField f fun x => { x with running := true }) s
    let (s, missed) := s.committed.foldl (fun (s, missed) (l, at_) => match at_ with
      | some cl =>
        if of = some (84 + l) || !s.bayOk (clBay cl) || !(s.field (clField cl)).running then (s, missed)
        else
          let (s, ok) := s.sendMicrocode l cl
          (s, if ok then missed else missed.orElse fun _ => some l)
      | none => (s, missed)) (s, none)
    let bad := match of with
      | some n => if n < 84 then some (11, n) else some (12, n - 84)
      | none => missed.map fun l => (12, l)
    s.modBu fun b => { b with found := bad }

/-- Step 8: the stacks of `ns` cannot be trained, and take their bays' clusters with them. -/
def Chip.doStacks (s : Chip) (ns : List Nat) : Chip :=
  Chip.gradeChange s.gradeShort <| s.upBays.foldl (fun s b =>
    if b ∈ ns then (bayClusters b).foldl (fun s cl => s.markCluster cl false) (s.modBay b fun x => { x with stackOk := false })
    else s.modBay b fun x => { x with
      stackOk := true
      lineErr := if s.bringup.coldStacks then [] else x.lineErr }) s

/-- The tint 0 key of R245 in slot 0 of every stack's controller. -/
def Chip.loadTint0 (s : Chip) : Chip :=
  let (k, s) := s.drawNat 8
  let s := s.upBays.foldl (fun s b => s.modBay b fun x => { x with
    keys := SMap.set none x.keys 0 (some { key := BitVec.ofNat 512 k, tint := 0 }) }) s
  s.modBu fun b => { b with coldStacks := false, stackFills := b.stackFills + 1 }

/-- Step 10: the lanes of `ns` (8 × port + lane) do not work. -/
def Chip.doEave (s : Chip) (ns : List Nat) : Chip :=
  let s := s.modBu fun b => { b with eaveStarted := true }
  (List.range 32).foldl (fun s p =>
    let good := (List.range 8).filter fun l => !(8 * p + l ∈ ns)
    (s.evLinks p).foldl (fun s l =>
      if (s.evLink p l).state = .up then s
      else if !s.attachOk p || s.module.ebTakes then s.evLinkOut p l
      else (s.modEvLink p l fun x => { x with state := .training, own := false }).retrainEnd p l good) s) s

/-- What the start of step `n` does. The outcomes `ns`, `ms` and `of` come with the command; without them
nothing fails. -/
def Chip.stepEffect (s : Chip) (n : Nat) (ns ms : List Nat) (of : Option Nat) : Chip :=
  match n with
  | 0 => s.doRails ns
  | 1 => s.doClocks ns
  | 2 => s.doRidge of
  | 3 => s.doRecord
  | 4 => s.doTest ns ms
  | 5 => s.modBu fun b => { b with mapStarted := true, state := .opened }
  | 6 => s.doMesh ns ms
  | 7 => s.doFirmware of
  | 8 => s.doStacks ns
  | 10 => s.doEave ns
  | _ => s

/-! ### Step commands (R543 to R545, R547) -/

/-- A step is in progress. -/
def Bringup.busy (b : Bringup) : Bool := decide (b.state = .running ∨ b.state = .opened)

/-- The refusals of a command of step `n`. -/
def Chip.stepFails (s : Chip) (n : Nat) : List (Nat × Nat × Nat) :=
  let l := s.link
  let at_ (c : Nat) : Nat × Nat × Nat := (c, Off.BU_STEP_CMD, 0)
  failsOf [
    (n = 9 && !(l.up && l.cxl && 4 ≤ l.width && 3 ≤ l.speed), at_ 0x0303),
    (n = 9 && decide (l.width < fld l.cfg 0 5 ∨ l.speed < fld l.cfg 8 3), at_ 0x0304),
    (n = 9 && bit l.cfg 16 && !(l.ioIde && l.cmIde), at_ 0x0305),
    (n = 0 && s.module.inletHi, at_ 0x0603),
    (n > 11 || s.stepDone n || (List.range n).any (fun k => !s.stepDone k), at_ 0x0703),
    (s.bringup.busy, at_ 0x0704)]

/-- GO of step `n`. A refusal shows in STATE unless a step is in progress. -/
def Chip.stepGo (s : Chip) (n : Nat) (ns ms : List Nat) (of : Option Nat) : Chip :=
  match leastFail (s.stepFails n) with
  | some f =>
    let s := s.refuse .bringup f.1 f.2.1
    if s.bringup.busy then s
    else s.modBu fun b => { b with step := n, state := .refused, fail := 0, detail := 0 }
  | none =>
    let s := s.modPage .bringup fun p => { p with refused := false }
    (s.modBu fun b => { b with step := n, state := .running, fail := 0, detail := 0, found := none }).stepEffect n ns ms of

/-- The end of the step in progress: DONE or FAILED, BU_T_STEP and PF vector 0. -/
def Chip.stepOver (s : Chip) (fail : Option (Nat × Nat)) (detail : Nat) : Chip :=
  let s := s.setReg .bringup Off.BU_T_STEP s.now
  let s := s.modBu fun b => match fail with
    | some f => { b with state := .failed, fail := f.1, detail := f.2, found := none }
    | none => { b with state := .done, fail := 0, detail, found := none, done := setBit b.done b.step }
  s.signal 0 0

/-- CLUSTERS_SHORT (R548) when `n` is below MIN_CLUSTERS. -/
def Chip.short (s : Chip) (n : Nat) : Option (Nat × Nat) :=
  if n < fld (s.reg .bringup Off.BU_CFG) 16 13 then some (1, n) else none

/-- FINISH of step MAP (R547): the lowest committed cluster without its map or its epoch 0 tables. -/
def Chip.stepFinish (s : Chip) : Chip :=
  if s.bringup.state = .opened then
    let lacks := s.committed.find? fun p => match p.2 with
      | some cl => !((s.cl cl).mapEn && (s.router cl).valid0)
      | none => false
    s.stepOver (match lacks with | some p => some (8, p.1) | none => s.short s.commits) s.commits
  else if s.bringup.state = .running then s.refuse .bringup 0x0704 Off.BU_STEP_CMD
  else s

/-- A write of BU_STEP_CMD: GO and FINISH together discard it (R650). FINISH counts with STEP = 5. -/
def Chip.stepCmdWrite (s : Chip) (v : W) (ns ms : List Nat) (of : Option Nat) : Chip :=
  if bit v 8 && bit v 9 then s
  else if bit v 8 then s.stepGo (fld v 0 4) ns ms of
  else if bit v 9 then
    if fld v 0 4 = 5 then s.stepFinish
    else if s.bringup.busy then s.refuse .bringup 0x0704 Off.BU_STEP_CMD else s
  else s

/-- One row's write of BU_STEP_CMD. -/
def Chip.stepRow (s : Chip) (n : Nat) (ns ms : List Nat) (of : Option Nat) : Eff :=
  .next (s.cmdWrite .bringup Off.BU_STEP_CMD fun s => s.stepCmdWrite (BitVec.ofNat 64 (n + 256)) ns ms of)

/-- RAILS: `ns` are the bays that latch off. -/
def execRails (ns : List Nat) (s : State) : Out := s.run fun s => s.stepRow 0 ns [] none
/-- CLOCKS. -/
def execClocks (ns : List Nat) (s : State) : Out := s.run fun s => s.stepRow 1 ns [] none
/-- RIDGE. -/
def execRidge (of : Option Nat) (s : State) : Out := s.run fun s => s.stepRow 2 [] [] of
/-- RECORD. -/
def execRecord (s : State) : Out := s.run fun s => s.stepRow 3 [] [] none
/-- TEST. -/
def execTest (ns ms : List Nat) (s : State) : Out := s.run fun s => s.stepRow 4 ns ms none
/-- MAP. -/
def execMapStep (s : State) : Out := s.run fun s => s.stepRow 5 [] [] none
/-- MAP_FINISH. -/
def execMapFinish (s : State) : Out := s.run fun s =>
  .next (s.cmdWrite .bringup Off.BU_STEP_CMD fun s => s.stepCmdWrite (BitVec.ofNat 64 (5 + 512)) [] [] none)
/-- MESH. -/
def execMesh (ns : List LinkFail) (s : State) : Out := s.run fun s =>
  s.stepRow 6 (failedLinks ns) (failedWires ns) none
/-- FIRMWARE. -/
def execFirmware (of : Option Nat) (s : State) : Out := s.run fun s => s.stepRow 7 [] [] of
/-- STACKS. -/
def execStacks (ns : List Nat) (s : State) : Out := s.run fun s => s.stepRow 8 ns [] none
/-- HOST. -/
def execHost (s : State) : Out := s.run fun s => s.stepRow 9 [] [] none
/-- EAVE. -/
def execEave (ns : List Nat) (s : State) : Out := s.run fun s => s.stepRow 10 ns [] none
/-- READY. -/
def execReady (s : State) : Out := s.run fun s => s.stepRow 11 [] [] none

/-! ### The end of a step (R545, R546, R548) -/

/-- Committed logical clusters whose router has an UP link. -/
def Chip.meshCount (s : Chip) : Nat :=
  (s.committed.filter fun p => match p.2 with
    | some cl => (List.range 8).any fun q => ((s.router cl).link q).state = .up
    | none => false).length

/-- Links that are OUT. -/
def Chip.linksOut (s : Chip) : Nat := (allLinks.filter fun l => ((s.router l.1).link l.2).state = .out).length

/-- Ports with a link UP. -/
def Chip.portsUp (s : Chip) : Nat :=
  ((List.range 32).filter fun p => (s.evLinks p).any fun l => (s.evLink p l).state = .up).length

/-- A failure of the running step at its end, and its DETAIL when it has none. -/
def Chip.stepResult (s : Chip) : Option (Nat × Nat) × Nat :=
  match s.bringup.found, s.bringup.step with
  | some f, _ => (some f, 0)
  | none, 0 => (s.short s.usableCount, s.upBays.length)
  | none, 1 => (none, (s.upClusters.filter fun cl => (s.cl cl).locked).length)
  | none, 3 => (none, (s.bringup.entries.filter fun p => !s.wearAccepted p).length)
  | none, 4 => (s.short s.usableCount, s.usableCount)
  | none, 6 => (s.short s.meshCount, s.linksOut)
  | none, 7 => (none, ((List.range 84).filter fun f => (s.field f).running).length)
  | none, 8 => (s.short s.usableCount, (s.upBays.filter fun b => (s.bay b).stackOk).length)
  | none, 9 => (if s.link.up then none else some (14, 0), 0)
  | none, 10 =>
    (if s.portsUp < fld (s.reg .bringup Off.BU_CFG) 8 6 then some (13, s.portsUp) else none, s.portsUp)
  | none, _ => (none, 0)

/-- READY: the state block after a bring-up whose TEST ran in full, and the count of its kind (R552, R571). -/
def Chip.doReady (s : Chip) : Chip :=
  let s := if s.bringup.testRan then
      let x : StateBlock := { trained := s.upBays.filter fun k => (s.bay k).stackOk, digest := s.goodDigest, mac := [] }
      s.modBu fun b => { b with block := some { x with mac := assemblyMac x.bytes } }
    else s
  s.count .bringup (if s.bringup.lastReset = 2 then Off.BU_WARM_COUNT else Off.BU_COLD_COUNT) 1

/-- TEST holds under an engine halt (R569); STACKS waits for the noise source when it needs a key (R580). -/
def Chip.stepHeld (s : Chip) : Bool :=
  let b := s.bringup
  (b.step = 4 && s.halting && !b.testSkipped) || (b.step = 8 && b.coldStacks && s.sec.rngFailed)

/-- BRINGUP_STEP_END. -/
def execBringupStepEnd (s : State) : Out := s.run fun s =>
  .next
    (if s.bringup.state ≠ .running || s.stepHeld then s
     else
       let s := if s.bringup.step = 8 && s.bringup.coldStacks then s.loadTint0 else s
       let r := s.stepResult
       let s := match r.1, s.bringup.step with
         | none, 9 => s.modLinkH fun l => { l with cxlOn := true }
         | none, 11 => s.doReady
         | _, _ => s
       s.stepOver r.1 r.2)

/-! ### Resets (R566 to R569) -/

/-- The bring-up state after a cold or warm reset of kind `kind`. -/
def Bringup.restart (b : Bringup) (kind : Nat) : Bringup :=
  { b with
    step := 0, state := .idle, fail := 0, detail := 0, found := none, done := 0#64, fastOk := false
    testSkipped := false, testRan := false, lastReset := kind, eaveStarted := false, mapStarted := false, testBay := none }

/-- Every enabled gable ends, its step with it; a halt of R603 ends. -/
def Chip.endGables (s : Chip) : Chip :=
  let s := (s.gables.filter fun p => p.2.page.enable).foldl (fun s p =>
    (s.endGable p.1).modGable p.1 fun g => { g with step := .idle, windows := [] }) s
  Chip.haltChange s.halting { s with module := { s.module with fatalHalt := false } }

/-- The host bridge after the wafer's state is gone: nothing of the mesh is left there, and CXL.cache and
CXL.mem wait for step HOST. -/
def HostLink.offWafer (l : HostLink) : HostLink := { l with arrived := [], reads := [], cur := 0, flipping := [], cxlOn := false }

/-- A cold reset. -/
def Chip.coldReset (s : Chip) (kind : Nat) : Chip :=
  let s := s.endGables
  Chip.gradeChange s.gradeShort { s with
    clusters := [], bays := [], fields := [], eaves := [], wmt := [], wmtErr := [], committed := []
    link := s.link.offWafer
    sec := { s.sec with keyReady := false, swap := none, keyBusy := false }
    bringup := { s.bringup.restart kind with coldStacks := true } }

/-- A bay after a warm reset: supplied bays are Shaded, stack contents and key slot 0 stay. -/
def Bay.warm (x : Bay) : Bay :=
  { power := if x.supplied then .shaded else x.power
    latchCause := x.latchCause, relitAt := x.relitAt, untested := x.untested
    stack := x.stack, lineKey := x.lineKey, lineErr := x.lineErr, images := x.images, retired := x.retired
    keys := x.keys.filter fun k => k.1 = 0 }

/-- A warm reset. -/
def Chip.warmReset (s : Chip) : Chip :=
  let s := s.endGables
  { s with
    clusters := SMap.mapVals {} s.clusters fun _ x => { lc := x.lc }
    bays := SMap.mapVals {} s.bays fun _ x => x.warm
    fields := [], eaves := []
    link := s.link.offWafer
    sec := { s.sec with swap := none, keyBusy := false }
    bringup := s.bringup.restart 2 }

/-- GABLE: refused, or the gable's injection stops. -/
def Chip.gableResetStart (s : Chip) (t : Nat) : Chip :=
  let g := s.gable t
  if t < 1 || t > 64 || !g.page.enable then s.refuse .bringup 0x0301 Off.BU_RESET_CMD
  else if g.dormant || g.saving || g.restoring then s.refuse .bringup 0x0201 Off.BU_RESET_CMD
  else s.modGable t fun g => { g with resetting := true }

/-- A write of BU_RESET_CMD. -/
def Chip.resetCmdWrite (s : Chip) (v : W) : Chip :=
  if !bit v 15 then s
  else match fld v 0 2 with
    | 1 => s.coldReset 1
    | 2 => s.warmReset
    | 3 => s.gableResetStart (fld v 8 7)
    | _ => s

/-- COLD_RESET. -/
def execColdReset (s : State) : Out := s.run fun s => .next (s.cmdWrite .bringup Off.BU_RESET_CMD fun s => s.resetCmdWrite 0x8001#64)
/-- WARM_RESET. -/
def execWarmReset (s : State) : Out := s.run fun s => .next (s.cmdWrite .bringup Off.BU_RESET_CMD fun s => s.resetCmdWrite 0x8002#64)
/-- GABLE_RESET. -/
def execGableReset (t : Nat) (s : State) : Out := s.run fun s =>
  onUnit (gableOk t) (s.cmdWrite .bringup Off.BU_RESET_CMD fun s =>
    s.resetCmdWrite (BitVec.ofNat 64 (0x8003 + t * 256)))

/-- Packets of tint `t` on their way are discarded when delivered; those already delivered at once (R568). -/
def Chip.doomPackets (s : Chip) (t : Nat) : Chip :=
  s.clusters.foldl (fun s p =>
    let n := (p.2.router.arrived.filter fun k => k.tint = t).length
    let s := s.modRouter p.1 fun r => { r with
      inbuf := r.inbuf.map fun i => if i.pkt.tint = t then { i with pkt := { i.pkt with doomed := true } } else i
      arrived := r.arrived.filter fun k => k.tint ≠ t }
    if n = 0 then s else s.count (.cluster p.1) Off.CL_RT_DROP n) s

/-- The cores and pages of cluster `cl` in a gable reset: every core reads STOPPED. -/
def Chip.gableResetCluster (s : Chip) (cl : Nat) : Chip :=
  let s := (s.releaseRises cl).modCl cl fun x => { x with cores := SMap.mapVals {} x.cores fun _ c => c.reset.resetDone }
  [PageRef.weave cl, .dma cl 0, .dma cl 1, .gutter cl, .thatcher cl, .skylight cl].foldl (fun s pg => s.softResetPage pg) s

/-- GABLE_RESET_COMPLETE (R568, R569). -/
def execGableResetComplete (t : Nat) (s : State) : Out := s.run fun s =>
  onUnit (gableOk t)
    (if !(s.gable t).resetting then s
     else
       let s := s.doomPackets t
       let s := (s.gableClusters t).foldl (fun s cl => s.gableResetCluster cl) s
       let s := s.modLinkH fun l => l.abortQueue (fun c => c.fn = t) false
       let s := if (s.gable t).redArm then s.redDisarm t else s
       let s := { s with eaves := SMap.mapVals {} s.eaves fun _ e => { e with sends := e.sends.filter fun d => d.tint ≠ t } }
       s.modGable t fun g => { g with resetting := false, step := .idle })

/-- The host link under PERST_N (R567): the link, configuration space, queue pages, host-link page, windows and bias
tables reset; what the bridge holds of the mesh stays. -/
def HostLink.perst (l : HostLink) : HostLink :=
  let l := l.abortQueue (fun _ => true) true
  { running := l.running.map fun c => { c with silent := true }
    arrived := l.arrived, reads := l.reads, cur := l.cur, flipping := l.flipping, attach := l.attach, seqs := l.seqs
    outstanding := l.outstanding, lastQueue := l.lastQueue }

/-- The host link in reset: BU_DONE bits 9 and 11 clear, and a step HOST that runs fails. -/
def Chip.perstReset (s : Chip) : Chip :=
  (s.modLinkH HostLink.perst).modBu fun b => { b with
    done := clrBit (clrBit b.done 9) 11
    found := if b.state = .running && b.step = 9 then some (14, 0) else b.found }

/-- PERST_N_ASSERT. -/
def execPerstNAssert (s : State) : Out := s.run fun s =>
  .next
    (if !s.module.perstN then s
     else { s with module := { s.module with perstN := false } }.perstReset)

/-- Everything is lost but what lies in flash and what stands at the pins (R569). -/
def Chip.powerGone (s : Chip) (up : Bool) (slot : Nat) : Chip :=
  let b := s.bringup
  let m := s.module
  let r : Chip :=
    { draws := s.draws, out := s.out
      module := { standby := up, blades := m.blades, haltN := m.haltN, perstN := m.perstN, wakeN := m.wakeN
                  slotId := slot }
      bringup := { record := b.record, waferId := b.waferId, wear := b.wear, image := b.image, imageOwn := b.imageOwn
                   imageSigOk := b.imageSigOk, imageSvn := b.imageSvn, block := b.block }
      sec := { counters := s.sec.counters, ctrOk := s.sec.ctrOk } }
  r.gradeCfg

/-- STANDBY_POWER_UP: a cold reset of kind 0; SLOT_ID is sampled as `n`. -/
def execStandbyPowerUp (n : Nat) (s : State) : Out := s.run fun s =>
  .next (if s.module.standby then s else s.powerGone true n)

/-- STANDBY_POWER_LOSS. -/
def execStandbyPowerLoss (s : State) : Out := s.run fun s =>
  .next (if s.module.standby then s.powerGone false s.module.slotId else s)

/-- BLADE_WITHDRAW: nothing changes while the other blade carries the load. -/
def execBladeWithdraw (s : State) : Out := s.run fun s =>
  .next
    (let n := s.module.blades - 1
     let s := { s with module := { s.module with blades := n } }
     if n = 0 && s.module.standby then s.powerGone false s.module.slotId else s)

/-- BLADE_INSERT. -/
def execBladeInsert (s : State) : Out := s.run fun s =>
  .next { s with module := { s.module with blades := min 2 (s.module.blades + 1) } }

/-- The converter removes the 48 V bus at input `n`: the wafer is unpowered and loses its state (R537). -/
def Chip.inputGone (s : Chip) (n : Nat) : Chip :=
  let s := { s with module := { s.module with input := some n, inputBad := none } }.coldReset 3
  { s with module := { s.module with bus48 := false } }.raise .power 3

/-- INPUT_LOSS (R537): `n` in 0.1 V, below 650 or above 900 V. In Dark, where the converter supplies nothing, only the wake
comparators see it (R540). -/
def execInputLoss (n : Nat) (s : State) : Out := s.run fun s =>
  .next
    (if !s.module.standby || (6500 ≤ n && n ≤ 9000) then s
     else if s.module.dark then { s with module := { s.module with input := some n } }
     else s.inputGone n)

/-- The input has been outside 700 to 860 V for 1 ms (R537). -/
def Chip.inputCheck (s : Chip) : Chip :=
  match s.module.inputBad with
  | some t => if (s.now - t).toNat < 1000000 then s else s.raise .power 3
  | none => s

/-- INPUT_SAMPLE: `n` in 0.1 V. A reading out of range starts the 1 ms of R537, and one in range ends it; below 650 or
above 900 V the 48 V bus goes. An input in range lets the converter supply the bus (again). -/
def execInputSample (n : Nat) (s : State) : Out := s.run fun s =>
  .next
    (if !s.module.standby then s
     else if s.module.dark then { s with module := { s.module with input := some n } }
     else if n < 6500 || n > 9000 then s.inputGone n
     else
       let m := s.module
       { s with module := { m with
           input := some n, bus48 := m.bus48 || !inputOut n
           inputBad := if inputOut n then some (m.inputBad.getD s.now) else none } }.inputCheck)

/-! ### Dark (R538, R540) -/

/-- A write of PW_DARK. -/
def Chip.darkWrite (s : Chip) (v : W) : Chip :=
  let s := s.setReg .power Off.PW_DARK (BitVec.ofNat 64 (fld v 1 4 * 2))
  if !bit v 0 then s
  else if s.gables.any fun p => p.2.page.enable then s.refuse .power 0x0201 Off.PW_DARK
  else
    let s := s.coldReset s.bringup.lastReset
    let s := s.modLinkH HostLink.goDown
    { s with module := { s.module with dark := true } }

/-- DARK_ENTER: a write of PW_DARK with GO = 1. -/
def execDarkEnter (v : W) (s : State) : Out := s.run fun s =>
  .next (if bit v 0 then s.cmdWrite .power Off.PW_DARK fun s => s.darkWrite v else s)

/-- The enabled wake conditions that hold, as the bits of WAKE_EN. -/
def Chip.wakeCause (s : Chip) : Nat :=
  let en := fld (s.reg .power Off.PW_DARK) 1 4
  let m := s.module
  let c := b2n (decide ((s.reg .power Off.PW_WAKE_TIME).toNat ≤ s.now.toNat)) + 2 * b2n (decide (m.inlet.getD 0 > 3000)) +
    4 * b2n (m.input.any inputOut) + 8 * b2n (!m.wakeN)
  c &&& en

/-- WAKE (R540): the wafer is unpowered, PW_WAKE_CAUSE holds the cause. -/
def execWake (s : State) : Out := s.run fun s =>
  .next
    (if !s.module.standby || !s.module.dark || s.wakeCause = 0 then s
     else
       let c := s.wakeCause
       let s := { s with module := { s.module with dark := false } }.coldReset 4
       s.modReg .power Off.PW_WAKE_CAUSE fun v => BitVec.ofNat 64 (fld v 0 4 ||| c))

/-! ### A bay's test (R570) -/

/-- A write of BU_TEST_BAY. -/
def Chip.testBayWrite (s : Chip) (v : W) : Chip :=
  let b := fld v 0 9
  if s.bringup.testBay.isSome then s
  else
    let s := s.setReg .bringup Off.BU_TEST_BAY (BitVec.ofNat 64 b)
    if !bit v 9 then s
    else if s.bayHeld b then s.refuse .bringup 0x0201 Off.BU_TEST_BAY
    else if b ≥ 336 || (s.bay b).power ≠ .shaded then s.refuse .bringup 0x0301 Off.BU_TEST_BAY
    else s.modBu fun x => { x with testBay := some b, testResult := 0 }

/-- TEST_BAY. -/
def execTestBay (v : W) (s : State) : Out := s.run fun s => .next (s.cmdWrite .bringup Off.BU_TEST_BAY fun s => s.testBayWrite v)

/-- TEST_BAY_COMPLETE: `ns` as of step TEST, `ms` as of step MESH. The bay passes when none of its clusters failed (log entry 27); a bay that lost its supply meanwhile
fails. -/
def execTestBayComplete (ns : TestFails) (ms : List LinkFail) (s : State) : Out := s.run fun s =>
  .next
    (match s.bringup.testBay with
     | none => s
     | some b =>
       let cls := bayClusters b
       let pass := s.bayOk b && !(ns.clusters.any fun k => k / 2 ∈ cls)
       let s := if s.bayOk b then Chip.gradeChange s.gradeShort (s.selfTest cls ns.cores ns.clusters) else s
       let s := (s.modBu fun x => { x with testBay := none, testResult := if pass then 1 else 2 }).setReg (.bay b) Off.BY_TEST_TIME s.now
       if !pass then s
       else
         let s := (s.modBay b fun x => { x with untested := false }).lightBays
         if !s.stepDone 6 then s
         else
           let s := s.routersUp (cls.filter fun cl => !(s.router cl).up)
           cls.foldl (fun s cl => (List.range 8).foldl (fun s p =>
             if ((s.router cl).link p).state = .up then s
             else s.trainLink (decide (linkKey cl p ∈ keysOf (failedLinks ms))) (wiresOf (failedWires ms)) cl p) s) s)

/-! ### Image and microcode (R561, R562) -/

/-- Writes to the image region are discarded. -/
def Chip.imgHeld (s : Chip) : Bool :=
  (s.bringup.state = .running && s.bringup.step = 7) || s.fields.any fun p => p.2.restarting

/-- A write of BU_IMG_CMD. -/
def Chip.imgCmdWrite (s : Chip) (v : W) : Chip :=
  let s := if bit v 2 then s.modBu fun b => { b with imgDrop := false } else s
  if !bit v 0 then s
  else if s.imgHeld then s.modBu fun b => { b with imgDrop := true }
  else s.modBu fun b => { b with image := [], imageOwn := true, imgBusy := true }

/-- IMG_ERASE. -/
def execImgErase (s : State) : Out := s.run fun s => .next (s.cmdWrite .bringup Off.BU_IMG_CMD fun s => s.imgCmdWrite 1#64)

/-- An access to BU_IMG_DATA: the word at the address, and the address advances. -/
def Chip.imgData (s : Chip) (wr : Option W) : W × Chip :=
  let w := fld (s.reg .bringup Off.BU_IMG_ADDR) 0 23
  let s := s.setReg .bringup Off.BU_IMG_ADDR (BitVec.ofNat 64 ((w + 1) % 2 ^ 23))
  match wr with
  | none => (s.bringup.imageWord w, s)
  | some v =>
    (0#64, s.modBu fun b =>
      if s.imgHeld then { b with imgDrop := true }
      else { b with image := SMap.set none b.image w (some v), imgBusy := true })

/-- IMG_DATA_WRITE. -/
def execImgDataWrite (v : W) (s : State) : Out := s.run fun s =>
  .next (s.cmdWrite .bringup Off.BU_IMG_DATA fun s => (s.imgData (some v)).2)

/-- IMG_ERASE_COMPLETE: an erase or write finishes. -/
def execImgEraseComplete (s : State) : Out := s.run fun s => .next (s.modBu fun b => { b with imgBusy := false })

/-- MICROCODE_SEND (R562): to a cluster committed after FIRMWARE. What the mesh loses of it is sent again by the next. -/
def execMicrocodeSend (cl : Nat) (s : State) : Out := s.run fun s =>
  onUnit (clOk cl)
    (let x := s.cl cl
     match x.lc with
     | some l =>
       if s.stepDone 7 && !x.microcodeOk && s.bayOk (clBay cl) && (s.field (clField cl)).running then (s.sendMicrocode l cl).1
       else s
     | none => s)

/-! ### Field controllers (R563 to R565) -/

/-- FC_HEARTBEAT. -/
def execFcHeartbeat (f : Nat) (s : State) : Out := s.run fun s =>
  onUnit (f < 84)
    (if (s.field f).running && s.reachable (.field f) then s.modField f fun x => { x with heartbeat := x.heartbeat + 1#32 } else s)

/-- NBR_LOST: controller `f` finds its partner's count standing; the partner no longer runs. -/
def execNbrLost (f : Nat) (s : State) : Out := s.run fun s =>
  onUnit (f < 84)
    (if !(s.field f).running || !s.reachable (.field f) then s
     else
       let s := s.modField (partner f) fun x => { x with running := false }
       let s := s.modField f fun x => { x with nbrLost := true, interim := true }
       (s.raise (.field f) 0).signal 0 (129 + f))

/-- A write of FC_CTRL. With COVER cleared and the partner running, every duty is handed back. -/
def Chip.fcCtrlWrite (s : Chip) (f : Nat) (v : W) : Chip :=
  let on := bit v 0
  let s := s.modField f fun x => { x with
    cover := on, covering := on && x.running, interim := if x.cover && !on && (s.field (partner f)).running then false else x.interim }
  if !bit v 1 then s
  else if !(s.field (partner f)).covering then s.refuse (.field f) 0x0201 Off.FC_CTRL
  else s.modField f fun x => { x with restarting := true, running := false }

/-- COVER: a write of FC_CTRL with COVER as given. -/
def execCover (f : Nat) (flag : Bool) (s : State) : Out := s.run fun s =>
  onUnit (f < 84) (s.cmdWrite (.field f) Off.FC_CTRL fun s => s.fcCtrlWrite f (BitVec.ofNat 64 (b2n flag)))

/-- FC_RESET: a write with FC_RESET = 1, COVER as it stands. -/
def execFcReset (f : Nat) (s : State) : Out := s.run fun s =>
  onUnit (f < 84) (s.cmdWrite (.field f) Off.FC_CTRL fun s =>
    s.fcCtrlWrite f (BitVec.ofNat 64 (2 + b2n (s.field f).cover)))

/-- CONTROLLER_RESTART (R560, R565): `flag` tells whether the ROM's verification passes. -/
def execControllerRestart (f : Nat) (flag : Bool) (s : State) : Out := s.run fun s =>
  onUnit (f < 84)
    (if !(s.field f).restarting then s
     else
       let s := s.modField f fun x => { x with restarting := false, running := flag, romFail := !flag }
       if flag then s else s.raise (.field f) 1)

/-- RIDGE_PATH_LOST (R563, R603). -/
def execRidgePathLost (f : Nat) (s : State) : Out := s.run fun s =>
  onUnit (f < 84) (if s.module.standby then s.raise .dev 1 else s)

end Sys2Proof.Machine
end

