-- ==== Sys2Proof/Machine/Security.lean ====
section
/-! DEFINITION. The SEC block (chapter 17): the signing engine, reports, anti-rollback counters, key
commands, and the SPDM requests of R584. -/

namespace Sys2Proof.Machine

open Sys2Proof

/-! ### The signing engine (R580, R591) -/

/-- A job that draws a salt waits once the noise source has failed. -/
def SignJob.salted : SignJob → Bool
  | .keyLoad .. => false
  | _ => true

/-- The report as its 1,024 bytes (R589). -/
def reportBytes (body sig : List Byte) : List Byte := body ++ sig ++ leBytes 176 0

/-- What a finished job does. An SPDM answer ends with a random value of 32 bytes and the signature. -/
def Chip.jobDone (s : Chip) (j : SignJob) : Chip :=
  match j with
  | .meter _ t body => s.signMeter t body
  | .report body =>
    let (sig, s) := s.signBytes body
    s.modSec fun x => { x with report := reportBytes body sig, reportBusy := false }
  | .keyLoad v bays blob => s.keyOperate v bays blob
  | .spdm code body =>
    let (n, s) := s.drawNat 4
    let body := body ++ leBytes 32 n
    let (sig, s) := s.signBytes body
    if s.link.up then s.emit (.spdm code (body ++ sig)) else s

/-- SIGNING_COMPLETE: the first job that does not wait for the noise source. -/
def execSigningComplete (s : State) : Out := s.run fun s =>
  .next
    (if !s.sec.keyReady || !s.module.standby then s
     else match s.sec.jobs.find? fun j => !(j.salted && s.sec.rngFailed) with
       | none => s
       | some j => ((s.modSec fun x => { x with jobs := x.jobs.erase j }).jobDone j).count .sec Off.SEC_SIGNATURES 1)

/-- KEY_SWAP_COMPLETE (R594). -/
def execKeySwapComplete (s : State) : Out := s.run fun s => .next s.keySwapped

/-- RNG_FAIL (R580). -/
def execRngFail (s : State) : Out := s.run fun s =>
  .next
    (if !s.module.standby then s
     else (s.modSec fun x => { x with rngOk := false, rngFailed := true }).raise .sec 1)

/-! ### Reports (R589, R590) -/

def Chip.reportBody (s : Chip) (t : Nat) : List Byte :=
  let g := s.gable t
  let b := s.bringup
  leBytes 2 1 ++ leBytes 2 336 ++ leBytes 1 t ++ leBytes 1 (fld ((s.gableView t Off.GB_STATE).getD 0#64) 0 3) ++ leBytes 2 0 ++
    leBytes 8 b.record.serial.toNat ++ leBytes 2 s.fabricId ++ leBytes 2 0 ++
    leBytes 4 (s.sec.counters.getD 0 0) ++ leBytes 4 (s.sec.counters.getD 1 0) ++ leBytes 4 0 ++
    leBytes 8 g.enableId.toNat ++ leBytes 8 s.now.toNat ++
    (List.range 4).flatMap (fun i => leBytes 8 (s.reg .sec (Off.SEC_NONCE i)).toNat) ++
    leBytes 64 b.fwMeasure.toNat ++ leBytes 64 b.recMeasure.toNat ++ leBytes 64 g.config.toNat ++ leBytes 64 g.keylog.toNat

/-- A write of SEC_REP_CMD. -/
def Chip.reportWrite (s : Chip) (v : W) : Chip :=
  let t := fld v 0 7
  let s := (s.setReg .sec Off.SEC_REP_CMD (BitVec.ofNat 64 t)).modSec fun x => { x with reportDrop := x.reportDrop && !bit v 9 }
  if !bit v 7 then s
  else if s.sec.reportBusy then s.modSec fun x => { x with reportDrop := true }
  else if t < 1 || t > 64 || !(s.gable t).page.enable || !s.sec.keyReady then s.refuse .sec 0x0301 Off.SEC_REP_CMD
  else (s.ctrRead.addJob (.report (s.reportBody t))).modSec fun x => { x with reportBusy := true }

/-- REPORT_GO: a write of SEC_REP_CMD with GO = 1. -/
def execReportGo (v : W) (s : State) : Out := s.run fun s =>
  .next (if bit v 7 then s.cmdWrite .sec Off.SEC_REP_CMD fun s => s.reportWrite v else s)

/-- A read of SEC_REP_DATA: the report's word, and the address advances. -/
def Chip.reportWord (s : Chip) : W × Chip :=
  let w := fld (s.reg .sec Off.SEC_REP_ADDR) 0 7
  (BitVec.ofNat 64 (leNat (slice s.sec.report (8 * w) 8)), s.setReg .sec Off.SEC_REP_ADDR (BitVec.ofNat 64 ((w + 1) % 128)))

/-! ### Counters (R581 to R583) -/

/-- The highest value a COMMIT of a counter may have. -/
def Chip.ctrLimit (s : Chip) (n : Nat) : Option Nat :=
  match n with
  | 0 => some s.bringup.verifiedSvn
  | 1 => some s.bringup.runningSvn
  | _ => none

/-- A write of SEC_CTR_CMD. An answer of the flash that does not authenticate sets CTR_AUTH. -/
def Chip.ctrWrite (s : Chip) (v : W) : Chip :=
  let n := fld v 0 4
  let x := fld v 32 32
  if !bit v 8 then s
  else if !s.sec.ctrOk then s.ctrRead
  else match s.ctrLimit n with
    | none => s.refuse .sec 0x0101 Off.SEC_CTR_CMD
    | some lim =>
      if x < s.sec.counters.getD n 0 || x > lim then s.refuse .sec 0x0101 Off.SEC_CTR_CMD
      else s.modSec fun k => { k with counters := k.counters.set n x }

/-- CTR_COMMIT. -/
def execCtrCommit (v : W) (s : State) : Out := s.run fun s =>
  .next (if bit v 8 then s.cmdWrite .sec Off.SEC_CTR_CMD fun s => s.ctrWrite v else s)

/-! ### Keys (R592, R593, R597) -/

/-- An access to SEC_BLOB_DATA, which reads 0. -/
def Chip.blobData (s : Chip) (wr : Option W) : W × Chip :=
  let w := fld (s.reg .sec Off.SEC_BLOB_ADDR) 0 6
  let s := s.setReg .sec Off.SEC_BLOB_ADDR (BitVec.ofNat 64 ((w + 1) % 64))
  match wr with
  | none => (0#64, s)
  | some v => (0#64, s.modSec fun x => { x with blob := SMap.set 0#64 x.blob w v })

/-- BLOB_DATA_WRITE. -/
def execBlobDataWrite (v : W) (s : State) : Out := s.run fun s =>
  .next (s.cmdWrite .sec Off.SEC_BLOB_DATA fun s => (s.blobData (some v)).2)

/-- KEY_LOAD: a write of SEC_KEY_CMD with LOAD = 1. -/
def execKeyLoad (v : W) (s : State) : Out := s.run fun s =>
  .next (if bit v 24 then s.cmdWrite .sec Off.SEC_KEY_CMD fun s => s.keyCmdWrite v else s)

/-- KEY_ERASE: a write of SEC_KEY_CMD with ERASE = 1. -/
def execKeyErase (v : W) (s : State) : Out := s.run fun s =>
  .next (if bit v 25 then s.cmdWrite .sec Off.SEC_KEY_CMD fun s => s.keyCmdWrite v else s)

/-! ### SPDM (R584 to R586, R588). The codes of requests' answers and of errors are DMTF SPDM 1.2's, and the
bodies hold the data that the manual states, without that specification's framing (log entry 30). -/

/-- An answer leaves by the DOE in configuration space, which answers in any mode of the link (R435), and is counted. -/
def Chip.spdmAnswer (s : Chip) (code : Nat) (body : List Byte) : Chip :=
  (s.emit (.spdm code body)).count .sec Off.SEC_SPDM_MSGS 1

/-- ERROR with its ErrorCode: 1 InvalidRequest, 2 InvalidSession, 3 Busy, 4 UnexpectedRequest, 0x0A
SessionLimitExceeded. -/
def Chip.spdmError (s : Chip) (e : Nat) : Chip := s.spdmAnswer 0x7F (leBytes 1 e)

/-- An answer that the device key signs: it is sent when the signing engine has finished it. -/
def Chip.spdmSigned (s : Chip) (code : Nat) (body : List Byte) : Chip :=
  (s.addJob (.spdm code body)).count .sec Off.SEC_SPDM_MSGS 1

/-- The DOE answers: the host bridge is up and the link is not down. -/
def Chip.doeOn (s : Chip) : Bool := s.hibOn && s.link.up

/-- A request that needs no key. -/
def Chip.spdmOpen (s : Chip) (f : Chip → Chip) : Eff := .next (if s.doeOn then f s else s)

/-- A request that needs the key: Busy before KEY_READY, UnexpectedRequest before NEGOTIATE_ALGORITHMS. -/
def Chip.spdmKeyed (s : Chip) (f : Chip → Chip) : Eff :=
  s.spdmOpen fun s =>
    if !s.sec.keyReady then s.spdmError 3 else if !s.sec.negotiated then s.spdmError 4 else f s

/-- GET_VERSION: 1.2. -/
def execGetVersion (s : State) : Out := s.run fun s =>
  s.spdmOpen fun s => (s.modSec fun x => { x with negotiated := false }).spdmAnswer 0x04 (leBytes 1 0x12)

/-- The capability flags of R584: CERT, CHAL, MEAS with signature, ENCRYPT, MAC, KEY_EX, HBEAT, KEY_UPD. -/
def spdmCaps : Nat := 2 ^ 1 + 2 ^ 2 + 2 ^ 4 + 2 ^ 6 + 2 ^ 7 + 2 ^ 9 + 2 ^ 13 + 2 ^ 14

/-- GET_CAPABILITIES. -/
def execGetCapabilities (s : State) : Out := s.run fun s => s.spdmOpen fun s => s.spdmAnswer 0x61 (leBytes 4 spdmCaps)

/-- NEGOTIATE_ALGORITHMS: the one set of R584, RSASSA-PSS 4096, SHA-512, secp384r1, AES-256-GCM. -/
def execNegotiateAlgorithms (bytes : List Byte) (s : State) : Out := s.run fun s =>
  s.spdmOpen fun s => (s.modSec fun x => { x with negotiated := true }).spdmAnswer 0x63 bytes

/-- The 16 hexadecimal digits of a serial number. -/
def hexDigits (v : W) : List Byte :=
  (List.range 16).map fun i =>
    let d := v.toNat / 16 ^ (15 - i) % 16
    BitVec.ofNat 8 (if d < 10 then 0x30 + d else 0x37 + d)

/-- CHAIN of the record: its device certificate names DEV_SERIAL and WAFER_ID, and carries the device key (R575, R577). -/
def WaferRecord.chain (r : WaferRecord) : List Byte :=
  Config.caCertificates ++ Config.deviceCertificate (hexDigits r.serial) r.waferId Config.deviceModulus

/-- GET_DIGESTS: of the chain in slot 0. -/
def execGetDigests (s : State) : Out := s.run fun s => s.spdmKeyed fun s => s.spdmAnswer 0x01 (sha512 s.bringup.record.chain)

/-- GET_CERTIFICATE: `k` bytes from offset `m` of slot `n`; only slot 0 holds a chain. -/
def execGetCertificate (n m k : Nat) (s : State) : Out := s.run fun s =>
  s.spdmKeyed fun s =>
    let c := s.bringup.record.chain
    if n ≠ 0 || m > c.length then s.spdmError 1 else s.spdmAnswer 0x02 (slice c m (min k (c.length - m)))

/-- CHALLENGE of slot `n` with the requester's nonce. -/
def execChallenge (n : Nat) (bytes : List Byte) (s : State) : Out := s.run fun s =>
  s.spdmKeyed fun s =>
    if n ≠ 0 then s.spdmError 1 else s.spdmSigned 0x03 (sha512 s.bringup.record.chain ++ bytes)

/-- The 12 bytes of the counters (R586). -/
def Sec.counterBytes (x : Sec) : List Byte := (List.range 3).flatMap fun i => leBytes 4 (x.counters.getD i 0)

/-- Measurement `i` of R586, when it is present. -/
def Chip.measurement (s : Chip) (i : Nat) : Option (List Byte) :=
  if i = 1 then some (leBytes 64 s.bringup.fwMeasure.toNat)
  else if i = 2 then some (leBytes 64 s.bringup.recMeasure.toNat)
  else if i = 3 then some (sha512 s.sec.counterBytes)
  else if 0x10 ≤ i && i < 0x50 && (s.gable (i - 0xF)).page.enable then some (leBytes 64 (s.gable (i - 0xF)).config.toNat)
  else none

/-- Indices of the measurements present. -/
def Chip.measured (s : Chip) : List Nat := (List.range 0x50).filter fun i => (s.measurement i).isSome

/-- GET_MEASUREMENTS: index `n`, 0 for the number of blocks, 0xFF for all; with a nonce the answer is signed. -/
def execGetMeasurements (n : Nat) (bytes : List Byte) (s : State) : Out := s.run fun s =>
  s.spdmKeyed fun s =>
    let block (i : Nat) : List Byte := leBytes 1 i ++ (s.measurement i).getD []
    let body : Option (List Byte) :=
      if n = 0 then some (leBytes 1 s.measured.length)
      else if n = 0xFF then some (s.measured.flatMap block)
      else if (s.measurement n).isSome then some (block n) else none
    let s := if n = 3 ∨ n = 0xFF then s.ctrRead else s
    match body with
    | none => s.spdmError 1
    | some d => if bytes.isEmpty then s.spdmAnswer 0x60 d else s.spdmSigned 0x60 (d ++ bytes)

/-- Secured sessions at once. -/
def spdmSessions : Nat := 4

/-- KEY_EXCHANGE of session `n`. -/
def execKeyExchange (n : Nat) (bytes : List Byte) (s : State) : Out := s.run fun s =>
  s.spdmKeyed fun s =>
    if s.sec.sessions.any fun p => p.1 = n then s.spdmError 1
    else if s.sec.sessions.length ≥ spdmSessions then s.spdmError 0x0A
    else (s.modSec fun x => { x with sessions := x.sessions ++ [(n, false)] }).spdmSigned 0x64 bytes

/-- Session `n` is set up. -/
def Sec.secured (x : Sec) (n : Nat) : Bool := (n, true) ∈ x.sessions

/-- FINISH. -/
def execFinish (n : Nat) (bytes : List Byte) (s : State) : Out := s.run fun s =>
  s.spdmKeyed fun s =>
    if (n, false) ∈ s.sec.sessions then
      (s.modSec fun x => { x with
        sessions := x.sessions.map fun p => if p.1 = n then (n, true) else p }).spdmAnswer 0x65 (bytes.take 0)
    else s.spdmError 2

/-- A request inside session `n`. -/
def Chip.spdmIn (s : Chip) (n : Nat) (f : Chip → Chip) : Eff :=
  s.spdmKeyed fun s => if s.sec.secured n then f s else s.spdmError 2

/-- HEARTBEAT. -/
def execHeartbeat (n : Nat) (s : State) : Out := s.run fun s => s.spdmIn n fun s => s.spdmAnswer 0x68 []

/-- KEY_UPDATE with its operation `k`. -/
def execKeyUpdate (n k : Nat) (s : State) : Out := s.run fun s => s.spdmIn n fun s => s.spdmAnswer 0x69 (leBytes 1 k)

/-- END_SESSION: the streams whose keys the session set run on (R588). -/
def execEndSession (n : Nat) (s : State) : Out := s.run fun s =>
  s.spdmIn n fun s =>
    (s.modSec fun x => { x with sessions := x.sessions.filter fun p => p.1 ≠ n }).spdmAnswer 0x6C []

/-- IDE_KM in session `n`: the keys of the CXL.io stream (`flag`), else of the CXL.cache/mem stream. -/
def execIdeKm (n : Nat) (flag : Bool) (s : State) : Out := s.run fun s =>
  s.spdmIn n fun s =>
    let s := (s.modSec fun x => { x with ideSession := some n }).modLinkH fun l => l.startIde flag (!flag)
    s.linkChanged.spdmAnswer 0x7E []

end Sys2Proof.Machine
end

