-- ==== Sys2Proof/Machine/Wear.lean ====
section
/-! DEFINITION. Faults, spares and background work (chapter 18): error records and their vectors, the
patrols, the spare-wire sweep, aging, marks of cores and clusters. -/

namespace Sys2Proof.Machine

open Sys2Proof

/-! ### Error records (R599 to R603) -/

def ErrClass.code : ErrClass → Nat
  | .corrected => 1 | .contained => 2 | .gableFatal => 3 | .engineFatal => 4

/-- The field whose ring holds a page's reports: that of the unit, 6 for a device-level page. The field
of an eave port is that of its attach cluster, and a GABLE page is device-level. -/
def ringField (pg : PageRef) : Nat :=
  match pg with
  | .field f => f
  | .eave p => clField (eaveCluster p)
  | _ => match pg.bay? with
    | some b => bayField b
    | none => 6

/-- A page whose reports the HIB makes. -/
def isDeviceLevel (pg : PageRef) : Bool :=
  match pg with
  | .field _ | .eave _ => false
  | _ => pg.bay?.isNone

/-- The 64 bytes of R601. -/
def Chip.errorRecord (s : Chip) (pg : PageRef) (r : Report) (f : Nat) (cover : Bool) : List Byte :=
  let lc := match pg.cluster? with
    | some c => (s.cl c).lc.getD 0xFFFF
    | none => 0xFFFF
  leBytes 4 ((s.field f).seq + 1) ++ leBytes 1 r.cls.code ++ leBytes 1 r.tint ++ leBytes 1 pg.block.code ++
    leBytes 1 r.bit ++ leBytes 2 (s.instanceOf pg) ++ leBytes 2 lc ++ leBytes 1 f ++
    leBytes 1 (b2n cover + 2 * b2n r.patrol) ++ leBytes 2 0 ++ leBytes 8 r.time.toNat ++ leBytes 8 r.detail ++ leBytes 32 0

/-- The field ring of `f` takes no record: it is full, or EN = 0 (R602). -/
def Chip.errRingShut (s : Chip) (f : Nat) : Bool :=
  let pg := PageRef.field f
  let used := (fld (s.reg pg Off.FC_ERR_TAIL) 0 16 + 65536 - fld (s.reg pg Off.FC_ERR_HEAD) 0 16) % 65536
  !bit (s.reg pg Off.FC_ERR_CFG) 4 || decide (used ≥ 2 ^ fld (s.reg pg Off.FC_ERR_CFG) 0 4)

/-- A record goes to the ring of field `f`, or is lost. -/
def Chip.pushError (s : Chip) (f : Nat) (rec_ : List Byte) : Chip :=
  let pg := PageRef.field f
  if s.errRingShut f then (s.countSat pg Off.FC_ERR_LOST 32 1).raise pg 5
  else
    let i := fld (s.reg pg Off.FC_ERR_TAIL) 0 16 % 2 ^ fld (s.reg pg Off.FC_ERR_CFG) 0 4
    let s := s.hostWrite 0 ((s.reg pg Off.FC_ERR_BASE).toNat + 64 * i) rec_
    let s := (s.modReg pg Off.FC_ERR_TAIL (wrapField 16 1)).count pg Off.FC_ERR_RECORDS 1
    s.modField f fun x => { x with seq := (x.seq + 1) % 2 ^ 32 }

/-- PF vector of a report (R599, R600). -/
def errVector (r : Report) (f : Nat) : Nat :=
  match r.cls with
  | .corrected => 129 + f
  | .contained | .gableFatal => if r.tint = 0 then 129 + f else errorVector r.tint
  | .engineFatal => 0

/-- What a report does beside its record: the stall a CONTAINED or GABLE-FATAL error opens for its gable
(R351), and the DEV page's summary of an ENGINE-FATAL one (R497). -/
def Chip.reportEffect (s : Chip) (pg : PageRef) (r : Report) : Chip :=
  match r.cls with
  | .corrected => s
  | .contained | .gableFatal =>
    if r.tint = 0 then s
    else s.modGable r.tint fun g =>
      if g.step = .running then { g with errs := g.errs ++ [(r.time, decide (pg.block = .weave ∧ r.bit = 0))] } else g
  | .engineFatal =>
    let s := if bit s.dev.fault 2 then s
      else (s.setReg .dev Off.DEV_ERR_FIRST (BitVec.ofNat 64 (pg.block.code + s.instanceOf pg <<< 8 + r.bit <<< 24))).setReg
        .dev Off.DEV_ERR_TIME s.now
    s.raise .dev 2

/-- The report is made: R600 and R602. -/
def Chip.makeReport (s : Chip) (pg : PageRef) (r : Report) (cover : Bool) : Chip :=
  let f := ringField pg
  ((s.pushError f (s.errorRecord pg r f cover)).reportEffect pg r).signal 0 (errVector r f)

/-- ERROR_RECORD_WRITE: the `n`-th report due on a page is made, by the HIB for a device-level page, else by
the controller of the field or, under cover, its partner. With neither it stays due (R621). -/
def execErrorRecordWrite (pg : PageRef) (n : Nat) (s : State) : Out := s.run fun s =>
  onUnit pg.ok
    (match (s.page pg).reports[n]? with
     | none => s
     | some r =>
       let f := ringField pg
       let cover := !isDeviceLevel pg && (s.field (partner f)).covering
       if !(isDeviceLevel pg || cover || (s.field f).running) || !s.hibOn then s
       else (s.modPage pg fun p => { p with reports := p.reports.eraseIdx n }).makeReport pg r cover)

/-! ### Patrols (R606, R607) -/

/-- Background work for cluster `cl`, when it is committed. -/
def Chip.backgroundAt (s : Chip) (cl : Nat) : Chip :=
  match (s.cl cl).lc with
  | some l => s.background (clField cl) 1 l
  | none => s

/-- STORE_PATROL: the next row of every bank, scheduled by the controller of the field or the partner that covers it. -/
def execStorePatrol (cl : Nat) (s : State) : Out := s.run fun s =>
  onUnit (clOk cl)
    (if !s.powered || (s.bay (clBay cl)).power ≠ .lit || (s.dispatcher (clField cl)).isNone then s
     else
       let row := (s.cl cl).patrolRow
       let pg := PageRef.cluster cl
       let (x, bad) := (s.cl cl).storeScan (256 * row) (256 * row + 256)
       let s := ((s.setCl cl { x with patrolRow := (row + 1) % 6144 }).count pg Off.CL_STORE_BG 32).backgroundAt cl
       let s := if row = 6143 then s.count (.field (clField cl)) Off.FC_STORE_PASSES 1 else s
       if bad then s.storeStop cl true else s)

/-- The lines of chunk `c` of every channel: 32 channels of four lines, 256 bytes apart (R236). -/
def patrolLines (c : Nat) : Nat × Nat := (128 * c, 128 * c + 128)

/-- STACK_PATROL: the next chunk of every channel. A frame being copied is skipped (R621). -/
def execStackPatrol (b : Nat) (s : State) : Out := s.run fun s =>
  onUnit (b < 336)
    (let x := s.bay b
     if !s.powered || x.power ≠ .lit || !bit (s.reg (.baymem b) Off.BM_CFG) 0 || (s.dispatcher (bayField b)).isNone then s
     else
       let (lo, hi) := patrolLines x.patrolChunk
       let s := s.modBay b fun y => { y with
         patrolChunk := (x.patrolChunk + 1) % 2 ^ 23
         patrolPasses := if x.patrolChunk + 1 = 2 ^ 23 then (x.patrolPasses + 1) % 65536 else x.patrolPasses }
       if x.copying (64 * lo) (64 * (hi - lo)) then s
       else
         let (s, bad) := ((s.background (bayField b) 0x10 b).count (.baymem b) Off.BM_BG_CMDS 128).stackScan b lo hi
         let pg := PageRef.baymem b
         if bad then s.raiseWith pg 0 (some .contained) (s.reg pg Off.BM_ECC).toNat (s.reportTint pg) true else s)

/-! ### The spare-wire sweep (R609) -/

/-- SPARE_WIRE_SWEEP: wire `n` of the link at port `lp`, compared for 2^20 cycles of which `m` differed. -/
def execSpareWireSweep (cl lp n m : Nat) (s : State) : Out := s.run fun s =>
  onUnit (clOk cl && lp < 8)
    (let l := (s.router cl).link lp
     let f := clField cl
     let pg := PageRef.field f
     if n ≥ 1088 || l.state ≠ .up || (SMap.get none l.spares (wireGroup n)).isSome || m ≤ 16 || !s.bayOk (clBay cl) ||
         (s.dispatcher f).isNone then s
     else
       let s := if bit (s.reg pg Off.FC_WIRE_MARGINAL) 0 then s
         else s.setReg pg Off.FC_WIRE_MARGINAL
           (BitVec.ofNat 64 (1 + lp * 2 + clX cl * 16 + clY cl * 2048 + n * 131072))
       s.raise pg 2 (s.reg pg Off.FC_WIRE_MARGINAL).toNat)

/-! ### Aging (R610, R611) -/

/-- FREQ of a cluster: its gable's, or the clock it has in none. -/
def Chip.freqOf (s : Chip) (cl : Nat) : Nat :=
  let t := s.clTint cl
  if t = 0 then (s.cl cl).freq else s.gableFreq t

/-- A Vmin raise of 10 mV: logged, due at the next step start or restore, at once in no gable. -/
def Chip.raiseVmin (s : Chip) (cl : Nat) : Chip :=
  let s := (s.modCl cl fun x => { x with vminDue := x.vminDue + 1 }).wearAdd 5 [clX cl, clY cl, 10]
  let mv := s.vmin cl (freqStep (s.freqOf cl)) + 10 * (s.cl cl).vminDue
  let s := if s.clTint cl = 0 then s.applyRaises [cl] else s
  s.raise (.field (clField cl)) (if mv + 60 > 850 then 4 else 3)
    (clX cl + clY cl * 256 + mv % 65536 * 65536)

/-- AGING_READING: the mean slowdown of cluster `cl` is `n` tenths of a percent. -/
def execAgingReading (cl n : Nat) (s : State) : Out := s.run fun s =>
  onUnit (clOk cl)
    (if !s.bayOk (clBay cl) || (s.dispatcher (clField cl)).isNone then s
     else
       let x := s.cl cl
       let moved := decide (x.slowdown + 5 ≤ n) || decide (n + 5 ≤ x.slowdown)
       let s := if moved then
           (s.modCl cl fun x => { x with slowdown := n }).wearAdd 6 [clX cl, clY cl, n]
         else s
       if n > 15 * (x.vminRaises + x.vminDue + 1) then s.raiseVmin cl else s)

/-! ### Marks (R614) -/

/-- The refusals of a mark, as FC_MARK of field `f` gives it. -/
def Chip.markFails (s : Chip) (f : Nat) (v : W) : List (Nat × Nat × Nat) :=
  let x := fld v 0 7
  let y := fld v 8 6
  let pc := fld v 16 8
  let inField := decide (x < 96 ∧ y < 42) && decide (clField (clAt x y) = f)
  let k := s.cl (clAt x y)
  let at_ (c : Nat) : Nat × Nat × Nat := (c, Off.FC_MARK, 0)
  failsOf [
    (pc > 135 || bit v 7 || fld v 14 2 ≠ 0 || fld v 27 37 ≠ 0, at_ 0x0101),
    (!inField, at_ 0x0104),
    (inField && (if bit v 24 then k.lc.isSome else (k.logical pc).isSome), at_ 0x0201),
    (s.wearFull, at_ 0x0501)]

/-- A write of FC_MARK. While a mark is in progress it is discarded (log entry 31). -/
def Chip.markWrite (s : Chip) (f : Nat) (v : W) : Chip :=
  let pg := PageRef.field f
  if (s.field f).marking.isSome then s
  else
    let s := s.setReg pg Off.FC_MARK (v &&& 0x1FF3F7F#64)
    if !bit v 25 then s
    else match leastFail (s.markFails f v) with
      | some e => s.refuse pg e.1 e.2.1
      | none => s.modField f fun x => { x with marking := some v }

/-- FC_MARK. -/
def execFcMark (f : Nat) (v : W) (s : State) : Out := s.run fun s =>
  onUnit (f < 84) (if bit v 25 then s.cmdWrite (.field f) Off.FC_MARK fun s => s.markWrite f v else s)

/-- FC_MARK_COMPLETE: the core or cluster is unusable from now on; a cluster keeps its router. -/
def execFcMarkComplete (f : Nat) (s : State) : Out := s.run fun s =>
  onUnit (f < 84)
    (match (s.field f).marking with
     | none => s
     | some v =>
       let x := fld v 0 7
       let y := fld v 8 6
       let cl := clAt x y
       let t := s.modField f fun k => { k with marking := none }
       Chip.gradeChange s.gradeShort
         (if bit v 24 then (t.markCluster cl false).wearAdd 4 [x, y, 0]
          else (t.modCl cl fun k => k.markDead (fld v 16 8)).wearAdd 3 [x, y, fld v 16 8]))

end Sys2Proof.Machine
end

