-- ==== Sys2Proof/Machine/Registers.lean ====
section
/-! DEFINITION. The register space of the functions (R439, R472 to R488): where an offset leads, the write
and the read of every register, the commands REGISTER_WRITE and RC_READ.

Offsets of one space cover all BARs: PF BAR0 at 0, PF BAR2 at 0x4000000, BAR0 of VF t at
0x4100000 + 0x10000 (t - 1); of configuration space, the ATS Enable bit of VF t stands in bit 0 at
0x4500000 + 8 t, Device Control at 0x4500000 and the errors that AER reports at 0x4500210; PF BAR4 lies at 0x4510000, with
the errors that the CXL RAS capability reports at its first word (log entry 10). -/

namespace Sys2Proof.Machine

open Sys2Proof

/-! ### Where an offset leads -/

/-- What lies at an offset. -/
inductive RegPlace where
  | page (pg : PageRef) (off : Nat)
  | wmt (entry : Nat)
  /-- a window that selects no cluster (R486) -/
  | noCluster
  | queue (fn q off : Nat)
  | hostLink (off : Nat)
  /-- word `i` of the MSI-X table of function `fn`, and of its pending-bit array -/
  | msix (fn i : Nat)
  | pba (fn i : Nat)
  /-- the ATS Enable bit of VF `t` in configuration space (R286) -/
  | ats (t : Nat)
  /-- Device Control of configuration space (R452) -/
  | devCtl
  /-- the errors reported through AER (R432) -/
  | aer
  /-- PF BAR4: CXL component registers, whose layout is the CXL specification's (R439). The first word counts the errors
  reported through the RAS capability; another reads as a free value; a write has no effect here (log entry 10) -/
  | component (off : Nat)
  /-- an offset the map does not list: reads 0, ignores writes -/
  | unlisted
  deriving DecidableEq, Repr

/-- Device-level pages 0 to 6 of BAR0 (R483). -/
def devicePage : Nat → PageRef
  | 0 => .dev | 1 => .hib | 2 => .bringup | 3 => .timekeeper | 4 => .sec | 5 => .meter | _ => .power

/-- Page `k` of a cluster's window (R485). -/
def windowPage (cl : Nat) : Nat → PageRef
  | 0 => .cluster cl | 1 => .weave cl | 2 => .dma cl 0 | 3 => .dma cl 1 | 4 => .gutter cl | 5 => .thatcher cl
  | 6 => .skylight cl | _ => .ctu cl

/-- The cluster that window `n` selects (R486). -/
def Chip.windowCluster (s : Chip) (n : Nat) : Option Nat :=
  let v := s.reg .hib (Off.CL_WINDOW_SEL n)
  let x := fld v 12 7
  let y := fld v 19 6
  if bit v 25 then (if x ≤ 95 ∧ y ≤ 41 then some (clAt x y) else none)
  else s.physOf (fld v 0 12)

/-- PF BAR0 (R483, R484). -/
def Chip.bar0Place (s : Chip) (o : Nat) : RegPlace :=
  let p := o % 0x1000
  if o < 0x7000 then .page (devicePage (o / 0x1000)) p
  else if 0x10000 ≤ o ∧ o < 0x50000 then .page (.gable (o / 0x1000 - 0xF)) p
  else if 0x80000 ≤ o ∧ o < 0xA0000 then .page (.eave (o / 0x1000 - 0x80)) p
  else if 0x400000 ≤ o ∧ o < 0x800000 then .wmt ((o - 0x400000) / 8)
  else if 0x800000 ≤ o ∧ o < 0x880000 then
    match s.windowCluster ((o - 0x800000) / 0x8000) with
    | some cl => .page (windowPage cl (o / 0x1000 % 8)) p
    | none => .noCluster
  else if 0x1000000 ≤ o ∧ o < 0x1540000 then
    let f := (o - 0x1000000) / 0x10000
    let k := o / 0x1000 % 16
    if k = 0 then .page (.field f) p
    else if k ≤ 4 then .page (.bay (4 * f + k - 1)) p
    else if k ≤ 8 then .page (.baymem (4 * f + k - 5)) p
    else .unlisted
  else .unlisted

/-- PF BAR2 (R439). -/
def bar2Place (o : Nat) : RegPlace :=
  if o < 0x40000 then .queue 0 (o / 0x1000) (o % 0x1000)
  else if o < 0x41000 then .hostLink (o % 0x1000)
  else if 0x80000 ≤ o ∧ o < 0x88000 then .msix 0 ((o - 0x80000) / 8)
  else if 0x88000 ≤ o ∧ o < 0x88100 then .pba 0 ((o - 0x88000) / 8)
  else .unlisted

/-- BAR0 of VF `t` (R439). -/
def vfPlace (t o : Nat) : RegPlace :=
  if o < 0x8000 then .queue t (o / 0x1000) (o % 0x1000)
  else if o < 0x8400 then .msix t ((o - 0x8000) / 8)
  else if o = 0x9000 then .pba t 0
  else .unlisted

/-- Bases of PF BAR2 and of the VFs' BARs in the model's one space. -/
def bar2Base : Nat := 0x4000000
def vfBase : Nat := 0x4100000
def cfgBase : Nat := 0x4500000
def bar4Base : Nat := 0x4510000

def Chip.regPlace (s : Chip) (o : Nat) : RegPlace :=
  if o < bar2Base then s.bar0Place o
  else if o < vfBase then bar2Place (o - bar2Base)
  else if o < cfgBase then vfPlace ((o - vfBase) / 0x10000 + 1) ((o - vfBase) % 0x10000)
  else if o = cfgBase then .devCtl
  else if cfgBase + 8 ≤ o ∧ o < cfgBase + 520 then .ats ((o - cfgBase) / 8)
  else if bar4Base ≤ o ∧ o < bar4Base + 0x10000 then .component (o - bar4Base)
  else if o = cfgBase + 0x210 then .aer
  else .unlisted

/-! ### The common registers (R467 to R470) -/

/-- FAULT_CAUSE bits that read a state and ignore writes (R276, R469, R624). -/
def stateBit (k : Block) : Option Nat :=
  match k with
  | .dev => some 3
  | .dma => some (parkBit 0)
  | .thatcher => some (parkBit 2)
  | .gutter => some (parkBit 3)
  | .skylight => some (parkBit 4)
  | _ => none

/-- A write of FAULT_CAUSE. What a cleared bit ends with it: the fault freeze of a weave (R165), the stop of
STORE_ECC (R172), the record of the first ENGINE-FATAL error (R497). -/
def Chip.faultWrite (s : Chip) (pg : PageRef) (v : W) : Chip :=
  let v := match stateBit pg.block with | some b => clrBit v b | none => v
  let s := s.modPage pg fun p => { p with fault := p.fault &&& ~~~v }
  match pg with
  | .weave cl =>
    if fld (s.page pg).fault 0 3 = 0 then s.modCl cl fun x => { x with weave := { x.weave with faultFreeze := false } } else s
  | .cluster cl => if bit v 2 then s.modCl cl fun x => { x with storeStop := false } else s
  | .dev => if bit v 2 then (s.setReg .dev Off.DEV_ERR_FIRST 0#64).setReg .dev Off.DEV_ERR_TIME 0#64 else s
  | _ => s

/-- The HIB page interrupts: an IRQ_STATUS bit is 1 and not masked (R470, R498). -/
def Page.interrupts (p : Page) : Bool := p.irqStat &&& ~~~p.irqMask ≠ 0#64

/-- A write of IRQ_MASK. Unmasking what is pending on the HIB page interrupts. -/
def Chip.maskWrite (s : Chip) (pg : PageRef) (v : W) : Chip :=
  let was := (s.page pg).interrupts
  let s := s.modPage pg fun p => { p with irqMask := irqWritable pg.block v }
  if pg = .hib && !was && (s.page pg).interrupts then s.signal 0 0 else s

/-- A write of a common register; those not named here are read-only or reserved. -/
def Chip.commonWrite (s : Chip) (pg : PageRef) (off : Nat) (v : W) : Chip :=
  if off = 0x010 then s.ctrlWrite pg v
  else if off = 0x028 then s.faultWrite pg v
  else if off = 0x030 then s.maskWrite pg v
  else if off = 0x038 then s.modPage pg fun p => { p with irqStat := p.irqStat &&& ~~~v }
  else if off = 0x040 then s.modPage pg fun p => { p with scratch := v }
  else s

/-! ### The block registers -/

/-- A write to a register without behaviour of its own (R472). -/
def Chip.plainWrite (s : Chip) (pg : PageRef) (off : Nat) (v : W) : Chip :=
  match pg.block.spec off with
  | some r => s.modReg pg off fun old => r.write old v
  | none => s

/-- A write to a register that the core window directs at one core (R127, R128). FIRST_OVER and FIRST_UNDER keep the flag
number they hold when their bit of FSTAT is cleared (DESIGN CHOICE, log entry 52). -/
def Chip.coreRegWrite (s : Chip) (cl off : Nat) (v : W) : Chip :=
  if off = Off.CL_CORE_CTRL then s.coreCtrlWrite cl v
  else if off = Off.CL_CORE_FLAG_CMD then s.flagCmdWrite cl v
  else match (s.cl cl).selected with
    | none => s
    | some p =>
      let held := s.coreOpen cl (s.core cl p)
      let put (f : Core → Core) : Chip := s.modCore cl p f
      if off = Off.CL_CORE_ARITH then put fun c => { c with satFp8 := bit v 0 }
      else if off = Off.CL_CORE_ASTAT then put fun c => { c with astat := c.astat &&& ~~~(v &&& 0xFF#64) }
      else if off = Off.CL_CORE_SR_SEED then put fun c => { c with srSeed := v }
      else if off = Off.CL_CORE_SR_CTR then put fun c => { c with srCtr := v }
      else if off = Off.CL_CORE_FSTAT then put fun c => { c with fstat := c.fstat &&& ~~~(v &&& 3#64) }
      else if off = Off.CL_CORE_ECC then put fun c => { c with ecc := c.ecc &&& ~~~(v &&& 0x10000#64) }
      else if off = Off.CL_CORE_LM_ADDR then put fun c => { c with lmAddr := BitVec.ofNat 64 (fld v 0 16) }
      else if off = Off.CL_CORE_ACC_ADDR then put fun c => { c with accAddr := BitVec.ofNat 64 (fld v 0 11) }
      else if !held then s
      else if off = Off.CL_CORE_PC then
        (s.endWait cl p).modCore cl p fun c => { c with pc := BitVec.ofNat 16 (fld v 3 13 * 8) }
      else if 0x200 ≤ off ∧ off < 0x300 then put fun c => c.setS ((off - 0x200) / 8) (BitVec.ofNat 32 (fld v 0 32))
      else if 0x300 ≤ off ∧ off < 0x340 then put fun c => c.setA ((off - 0x300) / 8) (BitVec.ofNat 32 (fld v 0 32))
      else s

def Chip.clusterWrite (s : Chip) (cl off : Nat) (v : W) : Chip :=
  let pg := PageRef.cluster cl
  if coreWindow off then s.coreRegWrite cl off v
  else if off = Off.CL_CORE_LM_DATA then (s.lmData cl (some v)).2
  else if off = Off.CL_CORE_ACC_DATA then (s.accData cl (some v)).2
  else if off = Off.CL_START then s.clStartWrite cl v
  else if off = Off.CL_VFT_DATA then (s.vftData cl (some v)).2
  else if off = Off.CL_RT_STATE then
    if bit v 6 then s.modRouter cl fun r => { r with writeDrop := false } else s
  else if off = Off.CL_RT_CMD then s.rtCmdWrite cl v
  else if off = Off.CL_RT_DATA then (s.rtData cl (some v)).2
  else if off = Off.CL_RT_ACK_TIMEOUT then if fld v 0 32 = 0 then s else s.plainWrite pg off v
  else if 0x480 ≤ off ∧ off < 0x4C0 then s.rtLinkWrite cl ((off - 0x480) / 8) v
  else if 0x500 ≤ off ∧ off < 0x540 then s.evPostWrite cl ((off - 0x500) / 8) v
  else if 0x600 ≤ off ∧ off < 0x680 then s.coreMapWrite cl off v
  else if off = Off.CL_MAP_CTRL then s.mapWrite cl v
  else s.plainWrite pg off v

def Chip.weaveWrite (s : Chip) (cl off : Nat) (v : W) : Chip :=
  if off = Off.WV_CTX_STATE then
    if bit v 8 then s.modCl cl fun x => { x with weave := { x.weave with writeDrop := false } } else s
  else if off = Off.WV_CTX_CMD then s.ctxCmdWrite cl v
  else if off = Off.WV_CTX_DATA then (s.ctxData cl (some v)).2
  else s.plainWrite (.weave cl) off v

/-- A write to the page of unit `u`. -/
def Chip.unitPageWrite (s : Chip) (cl u off : Nat) (v : W) : Chip :=
  let pg := unitPage cl u
  let rings := if u < 2 then 4 else 1
  if off = Off.RESUME then s.resumeWrite cl u v
  else if 0x100 ≤ off ∧ off < 0x100 + 0x20 * rings ∧ off % 0x20 = 0x18 then s.tailWrite cl u ((off - 0x100) / 0x20) v
  else if 0x180 ≤ off ∧ off < 0x180 + 0x18 * rings then
    if (off - 0x180) % 0x18 = 0 && bit v 3 then
      s.modEngine cl u fun e => { e with resumeDrop := e.resumeDrop.set ((off - 0x180) / 0x18) false }
    else s
  else if u = 3 ∧ 0x200 ≤ off ∧ off < 0x400 ∧ off % 0x20 = 8 then s.slotWrite cl ((off - 0x200) / 0x20) v
  else s.plainWrite pg off v

def Chip.ctuWrite (s : Chip) (cl off : Nat) (v : W) : Chip :=
  if off = Off.CTU_INVAL_CMD then s.invalWrite cl v else s.plainWrite (.ctu cl) off v

def Chip.eavePageWrite (s : Chip) (p off : Nat) (v : W) : Chip :=
  if off = Off.EV_TRAIN_CMD then s.trainWrite p v
  else if off = Off.EV_SESS_CMD then s.sessCmdWrite p v
  else if off = Off.EV_SESS_DATA then (s.sessAccess p (some v)).2
  else s.plainWrite (.eave p) off v

/-- A gable's bay and corridor masks and GB_CFG are written while ENABLE = 0 (R508, R513). -/
def Chip.gablePageWrite (s : Chip) (t off : Nat) (v : W) : Chip :=
  let pg := PageRef.gable t
  if off = Off.GB_STEP_START then s.stepStart t v
  else if off = Off.GB_STEP_RETRY then s.stepRetry t v
  else if off = Off.GB_RED_CTRL then s.redCtrlWrite t v
  else if off = Off.GB_RED_DATA then (s.redAccess t (some v)).2
  else if off = Off.GB_RED_DIGEST_CMD then s.digestWrite t v
  else if 0x100 ≤ off ∧ off ≤ 0x160 then
    if (s.page pg).enable then s
    else s.plainWrite pg off (if off = 0x128 ∨ off = 0x158 then v &&& 0xFFFF#64 else v)
  else if off = Off.GB_ALLOT then s.allotWrite t v
  else if off = Off.GB_BAYCMD then s.bayCmdWrite t v
  else if off = Off.GB_PREEMPT then
    if bit v 0 && bit v 1 then s else (if bit v 2 then s.modGable t fun g => { g with cmdDrop := false } else s).preemptWrite t v
  else if off = Off.GB_MR_HEAD then s.meterHeadWrite t v
  else if off = Off.GB_STATE then if bit v 3 then s.modGable t fun g => { g with disableDrop := false } else s
  else s.plainWrite pg off v

def Chip.fieldPageWrite (s : Chip) (f off : Nat) (v : W) : Chip :=
  if off = Off.FC_CTRL then s.fcCtrlWrite f v
  else if off = Off.FC_STATUS then if bit v 1 then s.modField f fun x => { x with nbrLost := false } else s
  else if off = Off.FC_MARK then s.markWrite f v
  else s.plainWrite (.field f) off v

def Chip.hibPageWrite (s : Chip) (off : Nat) (v : W) : Chip :=
  if off = Off.WMT_CMD then s.wmtCmdWrite v else s.plainWrite .hib off v

def Chip.devPageWrite (s : Chip) (off : Nat) (v : W) : Chip :=
  if off = Off.DEV_HALT then s.haltWrite v
  else if off = Off.DEV_ENGINE_ID then s.engineIdWrite v
  else s.plainWrite .dev off v

def Chip.meterPageWrite (s : Chip) (off : Nat) (v : W) : Chip :=
  if off = Off.MT_INTERVAL then s.intervalWrite v
  else if off = Off.MT_CLOSE then s.meterClose v
  else s.plainWrite .meter off v

def Chip.powerPageWrite (s : Chip) (off : Nat) (v : W) : Chip :=
  if off = Off.PW_G_CEIL then s.ceilWrite v
  else if off = Off.PW_BAY_CMD then s.relightWrite v
  else if off = Off.PW_DARK then s.darkWrite v
  else s.plainWrite .power off v

def Chip.secPageWrite (s : Chip) (off : Nat) (v : W) : Chip :=
  if off = Off.SEC_CTR_CMD then s.ctrWrite v
  else if off = Off.SEC_REP_CMD then s.reportWrite v
  else if off = Off.SEC_BLOB_DATA then (s.blobData (some v)).2
  else if off = Off.SEC_KEY_CMD then s.keyCmdWrite v
  else s.plainWrite .sec off v

/-- A step commanded by a plain write meets no failure (log entry 10): its failures are arguments of its own
command. BU_CFG and BU_RAILSw are discarded while a step is RUNNING or OPEN (R571). -/
def Chip.bringupPageWrite (s : Chip) (off : Nat) (v : W) : Chip :=
  if off = Off.BU_STEP_CMD then s.stepCmdWrite v [] [] none
  else if off = Off.BU_CFG ∨ (0x120 ≤ off ∧ off < 0x150) then
    if s.bringup.busy then s else s.plainWrite .bringup off v
  else if off = Off.BU_RESET_CMD then s.resetCmdWrite v
  else if off = Off.BU_TEST_BAY then s.testBayWrite v
  else if off = Off.BU_IMG_DATA then (s.imgData (some v)).2
  else if off = Off.BU_IMG_CMD then s.imgCmdWrite v
  else s.plainWrite .bringup off v

/-- A write of the register at `off` of a page. -/
def Chip.pageWrite (s : Chip) (pg : PageRef) (off : Nat) (v : W) : Chip :=
  if off < 0x100 then s.commonWrite pg off v
  else match pg with
    | .dev => s.devPageWrite off v
    | .hib => s.hibPageWrite off v
    | .bringup => s.bringupPageWrite off v
    | .timekeeper => if off = Off.TK_SET then s.tkSetWrite v else s.plainWrite pg off v
    | .sec => s.secPageWrite off v
    | .meter => s.meterPageWrite off v
    | .power => s.powerPageWrite off v
    | .gable t => s.gablePageWrite t off v
    | .eave p => s.eavePageWrite p off v
    | .field f => s.fieldPageWrite f off v
    | .bay _ => s.plainWrite pg off v
    | .baymem b => if off = Off.BM_RETIRE_CMD then s.retireWrite b v else s.plainWrite pg off v
    | .cluster c => s.clusterWrite c off v
    | .weave c => s.weaveWrite c off v
    | .dma c n => s.unitPageWrite c (if n = 0 then 0 else 1) off v
    | .thatcher c => s.unitPageWrite c 2 off v
    | .gutter c => s.unitPageWrite c 3 off v
    | .skylight c => s.unitPageWrite c 4 off v
    | .ctu c => s.ctuWrite c off v

/-! ### Reads -/

/-- A data port's word, and what its read leaves. -/
def Chip.dataPortRead (s : Chip) (pg : PageRef) (off : Nat) : Option (W × Chip) :=
  match pg with
  | .bringup => if off = Off.BU_IMG_DATA then some (s.imgData none) else none
  | .sec =>
    if off = Off.SEC_REP_DATA then some s.reportWord
    else if off = Off.SEC_BLOB_DATA then some (s.blobData none)
    else none
  | .meter => if off = Off.MT_REC_DATA then some s.meterRecWord else none
  | .gable t => if off = Off.GB_RED_DATA then some (s.redAccess t none) else none
  | .eave p => if off = Off.EV_SESS_DATA then some (s.sessAccess p none) else none
  | .cluster c =>
    if off = Off.CL_CORE_LM_DATA then some (s.lmData c none)
    else if off = Off.CL_CORE_ACC_DATA then some (s.accData c none)
    else if off = Off.CL_VFT_DATA then some (s.vftData c none)
    else if off = Off.CL_RT_DATA then some (s.rtData c none)
    else none
  | .weave c => if off = Off.WV_CTX_DATA then some (s.ctxData c none) else none
  | _ => none

/-- What a read of RC fields leaves (R472): a core's CL_CORE_ECC stands with the core. -/
def Chip.clearRead (s : Chip) (pg : PageRef) (off : Nat) : Chip :=
  match pg.block.spec off with
  | none => s
  | some r =>
    if r.rc = 0 then s
    else match pg with
      | .cluster c =>
        if off = Off.CL_CORE_ECC then
          match (s.cl c).selected with
          | some p => s.modCore c p fun k => { k with ecc := r.afterRead k.ecc }
          | none => s
        else s.modReg pg off r.afterRead
      | _ => s.modReg pg off r.afterRead

/-- A read of the register at `off` of a page. SEC_CTR_VALUE reads the counter's flash (R581). -/
def Chip.pageRead (s : Chip) (pg : PageRef) (off : Nat) : W × Chip :=
  match s.dataPortRead pg off with
  | some r => r
  | none => (s.viewReg pg off,
      let s := s.clearRead pg off
      if pg = .sec ∧ off = Off.SEC_CTR_VALUE then s.ctrRead else s)

/-! ### BAR2 and the VFs (R465, R466, R442) -/

def Chip.queueView (s : Chip) (fn q off : Nat) : W :=
  let p := s.queue fn q
  if (Block.queue.spec off).isNone then 0#64
  else BitVec.ofNat 64 (p.reg fn off +
    (if off = Off.HQ_SQ_CFG then flagAt p.sqEnable 5 + flagAt p.ovf 6 + flagAt p.error 7
     else if off = Off.HQ_CQ_CFG then flagAt p.cqEnable 4 else 0))

def Chip.queueWrite (s : Chip) (fn q off : Nat) (v : W) : Chip :=
  if off = Off.HQ_SQ_CFG then s.sqCfgWrite fn q v
  else if off = Off.HQ_SQ_TAIL then s.sqTailWrite fn q v
  else if off = Off.HQ_CQ_CFG then s.cqCfgWrite fn q v
  else if off = Off.HQ_CQ_HEAD then s.cqHeadWrite fn q v
  else match Block.queue.spec off with
    | some r => s.modQueue fn q fun p => p.setReg fn off (r.write (BitVec.ofNat 64 (p.reg fn off)) v).toNat
    | none => s

/-- Window of a host-link page offset in 0x100 to 0x2FF, and the offset within its registers. -/
def winOf (off : Nat) : Nat × Nat := ((off - 0x100) / 0x80, (off - 0x100) % 0x80)

def HostLink.view (l : HostLink) (off : Nat) : W :=
  let stored := (l.reg off).toNat
  if off = Off.HL_LINK then
    BitVec.ofNat 64 (l.width + l.speed <<< 8 + flagAt (l.cxl && 4 ≤ l.width && 3 ≤ l.speed) 11 + flagAt l.up 12 + flagAt l.linkChange 13 +
      flagAt l.held 14 + l.retrains <<< 16)
  else if off = Off.HL_IDE then BitVec.ofNat 64 (b2n l.ioIde + flagAt l.cmIde 1)
  else if off = Off.HL_BIAS_CMD then BitVec.ofNat 64 (stored + flagAt l.biasBusy.isSome 4)
  else if 0x100 ≤ off ∧ off < 0x300 ∧ (winOf off).2 = 0 then
    let w := l.window (winOf off).1
    BitVec.ofNat 64 (stored + b2n w.enable + flagAt w.refused 1 + w.code <<< 48)
  else if (Block.hostLink.spec off).isSome then BitVec.ofNat 64 stored
  else 0#64

def Chip.hostLinkWrite (s : Chip) (off : Nat) (v : W) : Chip :=
  if off = Off.HL_LINK then if bit v 13 then s.modLinkH fun l => { l with linkChange := false } else s
  else if off = Off.HL_CFG then (s.modLinkH fun l => l.setReg off (v &&& 0x1071F#64)).heldChanged s.link.held
  else if off = Off.HL_BIAS_CMD then s.biasWrite v
  else if 0x100 ≤ off ∧ off < 0x300 then
    let (w, k) := winOf off
    if k = 0 then s.winCfgWrite w v else if k ≤ 0x40 then s.winListWrite w off v else s
  else s

/-- A pending vector whose mask is clear is sent (R442). -/
def Chip.sendUnmasked (s : Chip) (key : Nat) : Chip :=
  if !s.link.vecMasked key && decide (key ∈ s.link.pendingVec) then
    (s.modLinkH fun l => { l with pendingVec := l.pendingVec.erase key }).sendHost (.vector (key / 2048) (key % 2048))
  else s

/-- A write of word `i` of the MSI-X table of function `fn`. -/
def Chip.msixWrite (s : Chip) (fn i : Nat) (v : W) : Chip :=
  let v := if i % 2 = 1 then v &&& 0x1FFFFFFFF#64 else v
  (s.modLinkH fun l => l.setMsix (4096 * fn + i) v).sendUnmasked (2048 * fn + i / 2)

/-- Word `i` of the pending-bit array. -/
def HostLink.pendingWord (l : HostLink) (fn i : Nat) : W :=
  BitVec.ofNat 64 ((List.range 64).foldl (fun n b => n + flagAt (decide (2048 * fn + 64 * i + b ∈ l.pendingVec)) b) 0)

/-- A write of the ATS Enable bit of VF `t`. -/
def HostLink.atsWrite (l : HostLink) (t : Nat) (on : Bool) : HostLink :=
  { l with atsEnabled := if !on then l.atsEnabled.filter (· ≠ t) else if t ∈ l.atsEnabled then l.atsEnabled else l.atsEnabled ++ [t] }

/-! ### Accesses by offset -/

/-- An access of another size or alignment to BAR0 (R473, R498). -/
def Chip.badAccess (s : Chip) (write : Bool) (off size : Nat) : Chip :=
  (if bit (s.reg .hib Off.HIB_BAD_ACCESS) 0 then s
   else s.setReg .hib Off.HIB_BAD_ACCESS
     (BitVec.ofNat 64 (1 + 2 * b2n write + size % 16 * 4 + (off % 2 ^ 26) <<< 6))).raise .hib 1

/-- A page access that came by BAR0 offset `bar`. -/
def Chip.barAccess (s : Chip) (pg : PageRef) (bar off : Nat) (write : Bool) (f : Chip → Chip) : Chip :=
  if !s.reachable pg then s.noteUnreach write 0 bar else s.hostAccess pg off write f

/-- A write of `v` at offset `o`. -/
def Chip.busWrite (s : Chip) (o : Nat) (v : W) : Chip :=
  match s.regPlace o with
  | .page pg off => s.barAccess pg o off true fun s => s.pageWrite pg off v
  | .wmt i => s.wmtAccess (fun s => s.wmtWrite i v) true
  | .noCluster => s.noteUnreach true 2 o
  | .queue fn q off => s.queueWrite fn q off v
  | .hostLink off => s.hostLinkWrite off v
  | .msix fn i => s.msixWrite fn i v
  | .pba _ _ => s
  | .devCtl => s.modLinkH fun l => { l with devCtl := v &&& 0x70E0#64 }
  | .component _ | .aer => s
  | .ats t => s.modLinkH fun l => l.atsWrite t (bit v 0)
  | .unlisted => s

/-- REGISTER_WRITE (R472, R473): a write of `size` bytes at offset `off`. -/
def execRegisterWrite (off size : Nat) (v : W) (s : State) : Out := s.run fun s =>
  .next
    (if !s.hibOn then s
     else if size ≠ 8 || off % 8 ≠ 0 then if off < bar2Base then s.badAccess true off size else s
     else s.busWrite off v)

/-- A read at offset `o`, its value sent. -/
def Chip.busRead (s : Chip) (o : Nat) : Chip :=
  match s.regPlace o with
  | .page pg off =>
    if !s.reachable pg then (s.noteUnreach false 0 o).emit (.readData allOnes)
    else s.hostRead pg off fun s => s.pageRead pg off
  | .wmt i => s.wmtAccess (fun s => let r := s.wmtRead i; r.2.emit (.readData r.1)) false
  | .noCluster => (s.noteUnreach false 2 o).emit (.readData allOnes)
  | .queue fn q off => s.emit (.readData (s.queueView fn q off))
  | .hostLink off =>
    let v := s.link.view off
    (if off = Off.HL_LINK then s.modLinkH fun l => { l with retrains := 0 } else s).emit (.readData v)
  | .msix fn i => s.emit (.readData (s.link.msixWord (4096 * fn + i)))
  | .pba fn i => s.emit (.readData (s.link.pendingWord fn i))
  | .devCtl => s.emit (.readData s.link.devCtl)
  | .aer => s.emit (.readData (BitVec.ofNat 64 s.link.aer))
  | .component 0 => s.emit (.readData (BitVec.ofNat 64 s.link.ras))
  | .component _ => let (v, s) := s.draw; s.emit (.readData v)
  | .ats t => s.emit (.readData (BitVec.ofNat 64 (b2n (decide (t ∈ s.link.atsEnabled)))))
  | .unlisted => s.emit (.readData 0#64)

/-- RC_READ (R472, R473): a read of another size or alignment than 8 returns all ones and is recorded. -/
def execRcRead (rd : BusRead) (s : State) : Out := s.run fun s =>
  .next
    (if !s.hibOn then s
     else if rd.size ≠ 8 || rd.off % 8 ≠ 0 then
       (if rd.off < bar2Base then s.badAccess false rd.off rd.size else s).emit (.readData allOnes)
     else s.busRead rd.off)

end Sys2Proof.Machine
end

