-- ==== Sys2Proof/Machine/ModuleOps.lean ====
section
/-! DEFINITION. The module's pins and its management connector (chapter 19): the pins it drives, MCTP
telemetry, boundary scan. -/

namespace Sys2Proof.Machine

open Sys2Proof

/-! ### Pins the module drives (R632, R643) -/

/-- STBY_PG is released: standby power in regulation and the HIB answering. -/
def Chip.stbyPg (s : Chip) : Bool := s.hibOn

/-- ALERT_N is low: an ENGINE-FATAL bit of the DEV, POWER or SEC page, or INLET_HI, reads 1. -/
def Chip.alertLow (s : Chip) : Bool :=
  let fatal (k : Block) (f : W) : Bool := (List.range 8).any fun b => bit f b && errClass k b == some .engineFatal
  fatal .dev s.dev.fault || fatal .power s.powerPage.fault || fatal .sec s.sec.page.fault || s.module.inletHi

/-- Cage `p` holds its module in reset: the wafer unpowered, EV_CFG.MODE 2, or step EAVE still to come (R639). -/
def Chip.cageReset (s : Chip) (p : Nat) : Bool :=
  !s.powered || decide (fld (s.reg (.eave p) Off.EV_CFG) 0 2 = 2) || !s.bringup.eaveStarted

/-- The module answers at its I2C address: STBY_PG is released, and boundary scan has not taken the pins. -/
def Chip.mctpAnswers (s : Chip) : Bool := s.stbyPg && !s.module.tapTakes

/-- The 7-bit address of R634. -/
def Chip.smbAddress (s : Chip) : Nat := 0x68 + s.module.slotId % 8

/-! ### MCTP (R634 to R636). Control responses are their completion code and data under DSP0236
(log entry 32). -/

/-- A response, when the endpoint answers. -/
def Chip.mctpReply (s : Chip) (body : List Byte) : Chip :=
  if s.mctpAnswers then s.emit (.mctp body) else s

/-- SET_ENDPOINT_ID: operation `n` (0 set, 1 force), endpoint ID `m`. Other operations, the null and the
broadcast ID answer ERROR_INVALID_DATA. -/
def execSetEndpointId (n m : Nat) (s : State) : Out := s.run fun s =>
  .next
    (if !s.mctpAnswers then s
     else if n > 1 || m = 0 || m ≥ 255 then s.mctpReply [0x02#8]
     else { s with module := { s.module with eid := m } }.mctpReply [0x00#8, 0x00#8, BitVec.ofNat 8 m, 0x00#8])

/-- GET_ENDPOINT_ID: a simple endpoint with a dynamic ID. -/
def execGetEndpointId (s : State) : Out := s.run fun s =>
  .next (s.mctpReply [0x00#8, BitVec.ofNat 8 s.module.eid, 0x00#8, 0x00#8])

/-- Message types of R634. -/
def mctpTypes : List Nat := [0x00, 0x7F]

/-- GET_MCTP_VERSION_SUPPORT of message type `n`, 0xFF the base specification: one version, whose number the
manual does not give (a free value). -/
def execGetMctpVersionSupport (n : Nat) (s : State) : Out := s.run fun s =>
  .next
    (if !s.mctpAnswers then s
     else if n = 0xFF ∨ n ∈ mctpTypes then
       let (v, s) := s.draw
       s.mctpReply ([0x00#8, 0x01#8] ++ leBytes 4 v.toNat)
     else s.mctpReply [0x80#8])

/-- GET_MESSAGE_TYPE_SUPPORT: the types beside the control type. -/
def execGetMessageTypeSupport (s : State) : Out := s.run fun s => .next (s.mctpReply [0x00#8, 0x01#8, 0x7F#8])

/-- Fjorvo's enterprise number, as the binding sends it (R635). -/
def enterprise : List Byte := leBytes 4 0x39A41

/-- GET_VENDOR_DEFINED_MESSAGE_SUPPORT of selector `n`: selector 0 is the one set there is, its version a
free value. -/
def execGetVendorDefinedMessageSupport (n : Nat) (s : State) : Out := s.run fun s =>
  .next
    (if !s.mctpAnswers then s
     else if n ≠ 0 then s.mctpReply [0x02#8]
     else
       let (v, s) := s.draw
       s.mctpReply ([0x00#8, 0xFF#8, 0x01#8] ++ enterprise ++ leBytes 2 v.toNat))

/-- `k` registers from BAR0 offset `o` as the host would read them; no register changes by it, but a free
value that a port shows is drawn. -/
def Chip.mctpRegs (s : Chip) (o : Nat) : Nat → List Byte × Chip
  | 0 => ([], s)
  | k + 1 =>
    let (v, t) := match s.regPlace o with
      | .page pg off => s.pageRead pg off
      | _ => (0#64, s)
    let (bs, s) := Chip.mctpRegs { s with draws := t.draws } (o + 8) k
    (leBytes 8 v.toNat ++ bs, s)

/-- The page at offset `o` of the device-level pages. -/
def mctpPage (o : Nat) : PageRef := devicePage (o / 0x1000)

/-- MCTP_READ (R635, R636): `m` registers from offset `n`, message code `k`. A page whose check does not end
holds the message. -/
def execMctpRead (n m k : Nat) (s : State) : Out := s.run fun s =>
  .next
    (if !s.mctpAnswers then s
     else if k ≠ 1 then s.mctpReply (enterprise ++ [0x81#8, 0x03#8])
     else if n % 8 ≠ 0 || m < 1 || m > 7 || n + 8 * m > 0x7000 then s.mctpReply (enterprise ++ [0x81#8, 0x01#8])
     else
       let last := mctpPage (n + 8 * (m - 1))
       let s1 := (s.finishCheck (mctpPage n)).finishCheck last
       if (s1.page (mctpPage n)).check.isSome || (s1.page last).check.isSome then s
       else
         let (bs, s1) := s1.mctpRegs n m
         s1.mctpReply (enterprise ++ [0x81#8, 0x00#8] ++ bs))

/-! ### Boundary scan (R640 to R644) -/

/-- Opcode `op` goes into the instruction register. Taking the pins treats HALT_N and PERST_N as low; an EB
test takes every eave link out. The pins return with the next other instruction, and the halt ends with them
when nothing else holds it (R359). -/
def Chip.loadIr (s : Chip) (op : Nat) : Chip :=
  let was := s.module.tapTakes
  let s := Chip.haltChange s.halting { s with module := { s.module with tapIr := op } }
  let s := if s.module.tapTakes && !was then s.perstReset else s
  if s.module.ebTakes && s.powered then
    (List.range 32).foldl (fun s p => (s.evLinks p).foldl (fun s l =>
      if (s.evLink p l).state = .out then s else s.evLinkOut p l) s) s
  else s

/-- The register an instruction selects: its length and what it captures. The order of the boundary cells is
not given, so that what HB and EB capture is a free value. -/
def Chip.capture_ (s : Chip) (op : Nat) : Nat × Nat × Chip :=
  if op = 0x01 then
    (32, s.bringup.record.stepping % 16 * 2 ^ 28 + 0xD201 * 2 ^ 12 + 0x5A3 * 2 + 1, s)
  else if op ∈ [0x00, 0x02, 0x08, 0x09] then
    let (v, s) := s.drawNat 2
    (81, v % 2 ^ 81, s)
  else if op ∈ [0x12, 0x18, 0x19] then
    if s.powered then
      let (v, s) := s.drawNat 16
      (1024, v % 2 ^ 1024, s)
    else (1, 0, s)
  else (1, 0, s)

/-- Instruction `op` is loaded and its register captured. The TAP runs on standby power. -/
def Chip.tap (s : Chip) (op : Nat) : Chip :=
  if !s.module.standby then s
  else
    let (n, v, s) := (s.loadIr op).capture_ op
    s.emit (.tdo n v)

/-- TAP_RESET: TRST_N low; IDCODE is the instruction. -/
def execTapReset (s : State) : Out := s.run fun s => .next (if s.module.standby then s.loadIr 0x01 else s)
/-- EXTEST. -/
def execExtest (s : State) : Out := s.run fun s => .next (s.tap 0x00)
/-- IDCODE. -/
def execIdcode (s : State) : Out := s.run fun s => .next (s.tap 0x01)
/-- SAMPLE_PRELOAD. -/
def execSamplePreload (s : State) : Out := s.run fun s => .next (s.tap 0x02)
/-- CLAMP. -/
def execClamp (s : State) : Out := s.run fun s => .next (s.tap 0x04)
/-- HIGHZ. -/
def execHighz (s : State) : Out := s.run fun s => .next (s.tap 0x05)
/-- EXTEST_PULSE. -/
def execExtestPulse (s : State) : Out := s.run fun s => .next (s.tap 0x08)
/-- EXTEST_TRAIN. -/
def execExtestTrain (s : State) : Out := s.run fun s => .next (s.tap 0x09)
/-- EB_SAMPLE. -/
def execEbSample (s : State) : Out := s.run fun s => .next (s.tap 0x12)
/-- EB_EXTEST_PULSE. -/
def execEbExtestPulse (s : State) : Out := s.run fun s => .next (s.tap 0x18)
/-- EB_EXTEST_TRAIN. -/
def execEbExtestTrain (s : State) : Out := s.run fun s => .next (s.tap 0x19)
/-- BYPASS. -/
def execBypass (s : State) : Out := s.run fun s => .next (s.tap 0xFF)

end Sys2Proof.Machine
end

