-- ==== Sys2Proof/Machine/Clock.lean ====
section
/-! DEFINITION. A nanosecond in which nothing is commanded: the timekeeper counts, and the clocks of the clusters
pass their cycles (R124, R163, R287, R534). -/

namespace Sys2Proof.Machine

open Sys2Proof

/-- Cycles of cluster `cl` in the nanosecond at its frequency (R529, R530), and what is left over: `8 − s` of every 8 edges
pass at stretch level `s` (R534). -/
def Chip.cycles (s : Chip) (cl : Nat) : Nat × Nat :=
  let n := (s.cl cl).cycFrac + (s.cl cl).freq * (8 - s.level cl)
  (n / 8000, n % 8000)

/-- A core that is to issue fetches at its PC, which may stop it (R95, R97, R113). -/
def Chip.fetchCheck (s : Chip) (cl p : Nat) : Chip :=
  if !s.canIssue cl p then s
  else match s.fetch cl p with
    | .stops s => s
    | .reads _ _ => s

/-- `n` cycles of a running core in which no instruction issues: its multiplier goes on, which is work; what it
waits for besides takes wait cycles (R124). -/
def Chip.coreCycles (s : Chip) (cl p n : Nat) : Chip :=
  if (s.core cl p).run ≠ .running || s.coreHeld cl then s
  else
    let was := (s.core cl p).work
    let s := s.pumpBy cl p n
    let c := s.core cl p
    let rest := n - (c.work - was).toNat
    let waits := c.wait ≠ .none || c.blockedOn.isSome
    s.modCl cl fun x =>
      let x := if c.occ > 0 then x.busyAt s.now else x
      x.modCore p fun c => if waits then c.waited rest else c.passed rest

/-- Units of a weave (R129). -/
def weaveUnits : List Nat :=
  List.range 128 ++ (List.range 16).map (0x100 + ·) ++ (List.range 8).map (0x180 + ·) ++
    (List.range 4).map (0x1C0 + ·) ++ (List.range 32).map (0x200 + ·)

/-- The core behind unit `u` did work in the nanosecond. -/
def Chip.unitActed (s : Chip) (cl u : Nat) : Bool :=
  u < 128 && match (s.cl cl).weave.active.bind fun ctx => (s.cl cl).resolvedCore ctx u with
    | some p => (s.core cl p).acted
    | none => false

/-- `n` cycles of a weave: every unit that waits counts them, the others start their count again (R164). A balance
fault freezes at the end of the cycle, so that the units after the first that faults fault as well (R165). -/
def Chip.weaveCycles (s : Chip) (cl n : Nat) : Chip :=
  if !s.weaveCounts cl || n = 0 then s
  else
    weaveUnits.foldl (fun s u =>
      let w := (s.cl cl).weave
      let unwait (s : Chip) : Chip := s.modCl cl fun x => { x with weave := x.weave.unwait u }
      match s.unitWait cl u with
      | some (kind, qa) =>
        let blocked := (w.active.map fun ctx => w.unitBlocked ctx u).getD false
        (if s.unitActed cl u && !blocked then unwait s else s).addWait cl u kind qa n
      | none => unwait s) s

/-- `n` cycles of a DMA engine: a request beyond the sixteen it has outstanding waits (R177, R202). -/
def Chip.dmaCycles (s : Chip) (cl n u : Nat) : Chip :=
  if s.readsHeld cl u > 16 && s.unitIssues cl u then s.count (unitPage cl u) Off.DMA_WAIT n else s

/-- A nanosecond of a cluster. -/
def Chip.clusterCycles (s : Chip) (cl : Nat) : Chip :=
  if !s.bayRuns (clBay cl) then s
  else
    let (n, r) := s.cycles cl
    let s := s.modCl cl fun x => { x with cycFrac := r, cyc := x.cyc + n }
    let ps := ((s.cl cl).cores.filter fun p => p.2.run = .running).map (·.1)
    let s := ps.foldl (fun s p => s.fetchCheck cl p) s
    let s := ps.foldl (fun s p => s.coreCycles cl p n) s
    let s := [0, 1].foldl (fun s u => s.dmaCycles cl n u) (s.weaveCycles cl n)
    ps.foldl (fun s p => s.modCore cl p fun c => { c with acted := false }) s

/-- ACKs owed go out as the allowances of their sessions fill (R411). -/
def Chip.owedAcks (s : Chip) : Chip :=
  ((s.eaves.filter fun q => q.2.sessions.any fun x => x.2.ackDue).map (·.1)).foldl Chip.flushAcks s

/-- The timekeeper counts one nanosecond and the noise source stands as its health tests left it; both run on
standby power (R293, R580). The clusters of the powered wafer pass their cycles, an input out of range for 1 ms is met
(R537), ACKs that are owed go out, and CXL.mem requests that wait are served. Everything else that time does is a command of its own (log entry 33). -/
def Chip.tick (s : Chip) : Chip :=
  let s := ((s.clusters.map (·.1)).foldl Chip.clusterCycles s).inputCheck.owedAcks
  let s := if s.link.memReqs.isEmpty then s else Chip.memGo s.link.memReqs s
  if s.module.standby then
    { s with tk := { s.tk with now := s.tk.now + 1#64 }, sec := { s.sec with rngOk := !s.sec.rngFailed } }
  else s

end Sys2Proof.Machine
end

