-- ==== Sys2Proof/Machine/Dispatch.lean ====
section
/-! DEFINITION. One arm per command of the table, each a direct call of the command's meaning. -/

namespace Sys2Proof.Machine

open Sys2Proof

def exec (i : Instr) (s : State) : Host.Outcome State Fault Refusal :=
  match i with
  | .add cl core w => Sys2Proof.Machine.execAdd cl core w s
  | .sub cl core w => Sys2Proof.Machine.execSub cl core w s
  | .and cl core w => Sys2Proof.Machine.execAnd cl core w s
  | .or cl core w => Sys2Proof.Machine.execOr cl core w s
  | .xor cl core w => Sys2Proof.Machine.execXor cl core w s
  | .shl cl core w => Sys2Proof.Machine.execShl cl core w s
  | .shr cl core w => Sys2Proof.Machine.execShr cl core w s
  | .sra cl core w => Sys2Proof.Machine.execSra cl core w s
  | .slt cl core w => Sys2Proof.Machine.execSlt cl core w s
  | .sltu cl core w => Sys2Proof.Machine.execSltu cl core w s
  | .seq cl core w => Sys2Proof.Machine.execSeq cl core w s
  | .min cl core w => Sys2Proof.Machine.execMin cl core w s
  | .max cl core w => Sys2Proof.Machine.execMax cl core w s
  | .mul cl core w => Sys2Proof.Machine.execMul cl core w s
  | .li cl core w => Sys2Proof.Machine.execLi cl core w s
  | .fadd cl core w => Sys2Proof.Machine.execFadd cl core w s
  | .fsub cl core w => Sys2Proof.Machine.execFsub cl core w s
  | .fmul cl core w => Sys2Proof.Machine.execFmul cl core w s
  | .ffma cl core w => Sys2Proof.Machine.execFfma cl core w s
  | .fmin cl core w => Sys2Proof.Machine.execFmin cl core w s
  | .fmax cl core w => Sys2Proof.Machine.execFmax cl core w s
  | .f2i cl core w => Sys2Proof.Machine.execF2i cl core w s
  | .i2f cl core w => Sys2Proof.Machine.execI2f cl core w s
  | .ldB cl core w => Sys2Proof.Machine.execLdB cl core w s
  | .ldH cl core w => Sys2Proof.Machine.execLdH cl core w s
  | .ldW cl core w => Sys2Proof.Machine.execLdW cl core w s
  | .stB cl core w => Sys2Proof.Machine.execStB cl core w s
  | .stH cl core w => Sys2Proof.Machine.execStH cl core w s
  | .stW cl core w => Sys2Proof.Machine.execStW cl core w s
  | .aadd cl core w => Sys2Proof.Machine.execAadd cl core w s
  | .amovSa cl core w => Sys2Proof.Machine.execAmovSa cl core w s
  | .amovAs cl core w => Sys2Proof.Machine.execAmovAs cl core w s
  | .ali cl core w => Sys2Proof.Machine.execAli cl core w s
  | .j cl core w => Sys2Proof.Machine.execJ cl core w s
  | .jr cl core w => Sys2Proof.Machine.execJr cl core w s
  | .beq cl core w => Sys2Proof.Machine.execBeq cl core w s
  | .bne cl core w => Sys2Proof.Machine.execBne cl core w s
  | .blt cl core w => Sys2Proof.Machine.execBlt cl core w s
  | .bge cl core w => Sys2Proof.Machine.execBge cl core w s
  | .loop cl core w => Sys2Proof.Machine.execLoop cl core w s
  | .stop cl core w => Sys2Proof.Machine.execStop cl core w s
  | .tmulAcc cl core w => Sys2Proof.Machine.execTmulAcc cl core w s
  | .tmulZero cl core w => Sys2Proof.Machine.execTmulZero cl core w s
  | .tensorInstructionEnd cl core => Sys2Proof.Machine.execTensorInstructionEnd cl core s
  | .accClr cl core w => Sys2Proof.Machine.execAccClr cl core w s
  | .accLd cl core w => Sys2Proof.Machine.execAccLd cl core w s
  | .accSt cl core w => Sys2Proof.Machine.execAccSt cl core w s
  | .accSend cl core w => Sys2Proof.Machine.execAccSend cl core w s
  | .cvtAcc cl core w => Sys2Proof.Machine.execCvtAcc cl core w s
  | .cvtLm cl core w => Sys2Proof.Machine.execCvtLm cl core w s
  | .qrecv cl core w => Sys2Proof.Machine.execQrecv cl core w s
  | .qsend cl core w => Sys2Proof.Machine.execQsend cl core w s
  | .qpopS cl core w => Sys2Proof.Machine.execQpopS cl core w s
  | .qpushS cl core w => Sys2Proof.Machine.execQpushS cl core w s
  | .fset cl core w => Sys2Proof.Machine.execFset cl core w s
  | .fclr cl core w => Sys2Proof.Machine.execFclr cl core w s
  | .fwait cl core w => Sys2Proof.Machine.execFwait cl core w s
  | .fwaitc cl core w => Sys2Proof.Machine.execFwaitc cl core w s
  | .ftest cl core w => Sys2Proof.Machine.execFtest cl core w s
  | .flagWaitEnd cl core n => Sys2Proof.Machine.execFlagWaitEnd cl core n s
  | .vfset cl core w => Sys2Proof.Machine.execVfset cl core w s
  | .vfclr cl core w => Sys2Proof.Machine.execVfclr cl core w s
  | .vfwait cl core w => Sys2Proof.Machine.execVfwait cl core w s
  | .vfwaitc cl core w => Sys2Proof.Machine.execVfwaitc cl core w s
  | .nop cl core w => Sys2Proof.Machine.execNop cl core w s
  | .hint cl core w => Sys2Proof.Machine.execHint cl core w s
  | .asclr cl core w => Sys2Proof.Machine.execAsclr cl core w s
  | .coreRun cl v => Sys2Proof.Machine.execCoreRun cl v s
  | .coreHostStop cl v => Sys2Proof.Machine.execCoreHostStop cl v s
  | .coreReset cl v => Sys2Proof.Machine.execCoreReset cl v s
  | .coreResetComplete cl core => Sys2Proof.Machine.execCoreResetComplete cl core s
  | .o2ModeWrite cl v => Sys2Proof.Machine.execO2ModeWrite cl v s
  | .coreFlagSet cl v => Sys2Proof.Machine.execCoreFlagSet cl v s
  | .coreFlagClr cl v => Sys2Proof.Machine.execCoreFlagClr cl v s
  | .lmDataAccess cl wr => Sys2Proof.Machine.execLmDataAccess cl wr s
  | .accDataAccess cl wr => Sys2Proof.Machine.execAccDataAccess cl wr s
  | .clusterStart cl v => Sys2Proof.Machine.execClusterStart cl v s
  | .clusterStop cl v => Sys2Proof.Machine.execClusterStop cl v s
  | .haltNFall => Sys2Proof.Machine.execHaltNFall s
  | .haltNRise => Sys2Proof.Machine.execHaltNRise s
  | .devHaltSet => Sys2Proof.Machine.execDevHaltSet s
  | .devHaltClear => Sys2Proof.Machine.execDevHaltClear s
  | .haltedSet => Sys2Proof.Machine.execHaltedSet s
  | .ctxArm cl v => Sys2Proof.Machine.execCtxArm cl v s
  | .ctxInvalidate cl v => Sys2Proof.Machine.execCtxInvalidate cl v s
  | .ctxSwitch cl v => Sys2Proof.Machine.execCtxSwitch cl v s
  | .ctxDataAccess cl wr => Sys2Proof.Machine.execCtxDataAccess cl wr s
  | .contextEndSwitch cl => Sys2Proof.Machine.execContextEndSwitch cl s
  | .weaveItemSend cl qa => Sys2Proof.Machine.execWeaveItemSend cl qa s
  | .steeringFire cl su => Sys2Proof.Machine.execSteeringFire cl su s
  | .sfuFire cl sfu => Sys2Proof.Machine.execSfuFire cl sfu s
  | .storePortAccess cl sp ns => Sys2Proof.Machine.execStorePortAccess cl sp ns s
  | .readStream cl sp => Sys2Proof.Machine.execReadStream cl sp s
  | .writeStream cl sp => Sys2Proof.Machine.execWriteStream cl sp s
  | .slackPass cl sp flag => Sys2Proof.Machine.execSlackPass cl sp flag s
  | .meshPortPacketClose cl mp => Sys2Proof.Machine.execMeshPortPacketClose cl mp s
  | .balanceFault cl n m k => Sys2Proof.Machine.execBalanceFault cl n m k s
  | .weaveFreeze cl => Sys2Proof.Machine.execWeaveFreeze cl s
  | .dmaTailWrite cl eng ring v => Sys2Proof.Machine.execDmaTailWrite cl eng ring v s
  | .dmaPause cl eng ring => Sys2Proof.Machine.execDmaPause cl eng ring s
  | .copy cl eng ring => Sys2Proof.Machine.execCopy cl eng ring s
  | .fill cl eng ring => Sys2Proof.Machine.execFill cl eng ring s
  | .dmaDescComplete cl eng ring => Sys2Proof.Machine.execDmaDescComplete cl eng ring s
  | .gutterTailWrite cl v => Sys2Proof.Machine.execGutterTailWrite cl v s
  | .quant cl => Sys2Proof.Machine.execQuant cl s
  | .iadd cl => Sys2Proof.Machine.execIadd cl s
  | .dequant cl => Sys2Proof.Machine.execDequant cl s
  | .pack48 cl => Sys2Proof.Machine.execPack48 cl s
  | .unpack48 cl => Sys2Proof.Machine.execUnpack48 cl s
  | .fsum cl => Sys2Proof.Machine.execFsum cl s
  | .vdot cl => Sys2Proof.Machine.execVdot cl s
  | .vadd cl => Sys2Proof.Machine.execVadd cl s
  | .vmerge cl => Sys2Proof.Machine.execVmerge cl s
  | .vread cl => Sys2Proof.Machine.execVread cl s
  | .vclr cl => Sys2Proof.Machine.execVclr cl s
  | .vaddraw cl => Sys2Proof.Machine.execVaddraw cl s
  | .gutterCmdComplete cl => Sys2Proof.Machine.execGutterCmdComplete cl s
  | .slotEnable cl slot v => Sys2Proof.Machine.execSlotEnable cl slot v s
  | .flagSetApply cl => Sys2Proof.Machine.execFlagSetApply cl s
  | .vftDataAccess cl wr => Sys2Proof.Machine.execVftDataAccess cl wr s
  | .thatcherTailWrite cl v => Sys2Proof.Machine.execThatcherTailWrite cl v s
  | .pack cl => Sys2Proof.Machine.execPack cl s
  | .unpack cl => Sys2Proof.Machine.execUnpack cl s
  | .gather cl => Sys2Proof.Machine.execGather cl s
  | .thatcherCmdComplete cl => Sys2Proof.Machine.execThatcherCmdComplete cl s
  | .skylightTailWrite cl v => Sys2Proof.Machine.execSkylightTailWrite cl v s
  | .predict cl => Sys2Proof.Machine.execPredict cl s
  | .skylightCmdComplete cl => Sys2Proof.Machine.execSkylightCmdComplete cl s
  | .retireGo b v => Sys2Proof.Machine.execRetireGo b v s
  | .retirementCopyComplete b => Sys2Proof.Machine.execRetirementCopyComplete b s
  | .ctuInvalidate cl v => Sys2Proof.Machine.execCtuInvalidate cl v s
  | .invalidationComplete cl => Sys2Proof.Machine.execInvalidationComplete cl s
  | .walkerReadResp b walk => Sys2Proof.Machine.execWalkerReadResp b walk s
  | .atsCompletion cl unit ring xl => Sys2Proof.Machine.execAtsCompletion cl unit ring xl s
  | .prgResponse cl unit ring n => Sys2Proof.Machine.execPrgResponse cl unit ring n s
  | .atsInvalidateRequest t addr n => Sys2Proof.Machine.execAtsInvalidateRequest t addr n s
  | .unitPark cl unit ring => Sys2Proof.Machine.execUnitPark cl unit ring s
  | .faultDispatch cl unit ring => Sys2Proof.Machine.execFaultDispatch cl unit ring s
  | .resume cl unit v => Sys2Proof.Machine.execResume cl unit v s
  | .preempt t v => Sys2Proof.Machine.execPreempt t v s
  | .restore t v => Sys2Proof.Machine.execRestore t v s
  | .stoppingEnd cl => Sys2Proof.Machine.execStoppingEnd cl s
  | .drainingEnd cl => Sys2Proof.Machine.execDrainingEnd cl s
  | .drainingTimeout cl => Sys2Proof.Machine.execDrainingTimeout cl s
  | .savingEnd cl => Sys2Proof.Machine.execSavingEnd cl s
  | .restoreComplete cl => Sys2Proof.Machine.execRestoreComplete cl s
  | .tkSet v => Sys2Proof.Machine.execTkSet v s
  | .timepulse => Sys2Proof.Machine.execTimepulse s
  | .ppsLost => Sys2Proof.Machine.execPpsLost s
  | .timebaseSync cl got => Sys2Proof.Machine.execTimebaseSync cl got s
  | .packetHop cl port => Sys2Proof.Machine.execPacketHop cl port s
  | .packetWeave cl => Sys2Proof.Machine.execPacketWeave cl s
  | .packetStore cl => Sys2Proof.Machine.execPacketStore cl s
  | .packetStoreReadReq cl => Sys2Proof.Machine.execPacketStoreReadReq cl s
  | .packetGutter cl => Sys2Proof.Machine.execPacketGutter cl s
  | .packetFlag cl => Sys2Proof.Machine.execPacketFlag cl s
  | .packetCoreLm cl => Sys2Proof.Machine.execPacketCoreLm cl s
  | .packetCoreLmAll cl => Sys2Proof.Machine.execPacketCoreLmAll cl s
  | .packetWeaveCtx cl => Sys2Proof.Machine.execPacketWeaveCtx cl s
  | .packetVft cl => Sys2Proof.Machine.execPacketVft cl s
  | .packetMicrocode cl => Sys2Proof.Machine.execPacketMicrocode cl s
  | .packetReadResp cl => Sys2Proof.Machine.execPacketReadResp cl s
  | .packetBay b => Sys2Proof.Machine.execPacketBay b s
  | .packetBayReadReq b => Sys2Proof.Machine.execPacketBayReadReq b s
  | .packetAck cl => Sys2Proof.Machine.execPacketAck cl s
  | .packetAckErr cl => Sys2Proof.Machine.execPacketAckErr cl s
  | .e2eLost cl => Sys2Proof.Machine.execE2eLost cl s
  | .flitReplay cl lp => Sys2Proof.Machine.execFlitReplay cl lp s
  | .linkFailing cl lp => Sys2Proof.Machine.execLinkFailing cl lp s
  | .calibrationEnd cl lp ns flag => Sys2Proof.Machine.execCalibrationEnd cl lp ns flag s
  | .routeArm cl v => Sys2Proof.Machine.execRouteArm cl v s
  | .routeInvalidate cl v => Sys2Proof.Machine.execRouteInvalidate cl v s
  | .flip cl v => Sys2Proof.Machine.execFlip cl v s
  | .epochChannelChange cl n => Sys2Proof.Machine.execEpochChannelChange cl n s
  | .routerReset cl v => Sys2Proof.Machine.execRouterReset cl v s
  | .routerResetComplete cl ns => Sys2Proof.Machine.execRouterResetComplete cl ns s
  | .rtDataAccess cl wr => Sys2Proof.Machine.execRtDataAccess cl wr s
  | .swap cl lp v => Sys2Proof.Machine.execSwap cl lp v s
  | .linkTakeOut cl lp v => Sys2Proof.Machine.execLinkTakeOut cl lp v s
  | .stepStartWrite t v => Sys2Proof.Machine.execStepStartWrite t v s
  | .stepStartInstant t => Sys2Proof.Machine.execStepStartInstant t s
  | .attemptEnd t => Sys2Proof.Machine.execAttemptEnd t s
  | .stepRetry t v => Sys2Proof.Machine.execStepRetry t v s
  | .redArm t v => Sys2Proof.Machine.execRedArm t v s
  | .redDisarm t => Sys2Proof.Machine.execRedDisarm t s
  | .redDataAccess t wr => Sys2Proof.Machine.execRedDataAccess t wr s
  | .digestGo t v => Sys2Proof.Machine.execDigestGo t v s
  | .copyComplete t red flag => Sys2Proof.Machine.execCopyComplete t red flag s
  | .dueReached t red => Sys2Proof.Machine.execDueReached t red s
  | .deadlinePassed t red => Sys2Proof.Machine.execDeadlinePassed t red s
  | .selectionAck t red => Sys2Proof.Machine.execSelectionAck t red s
  | .portTrain p v => Sys2Proof.Machine.execPortTrain p v s
  | .portTakeOut p v => Sys2Proof.Machine.execPortTakeOut p v s
  | .linkLockLoss p link => Sys2Proof.Machine.execLinkLockLoss p link s
  | .eaveRetrainEnd p link ns => Sys2Proof.Machine.execEaveRetrainEnd p link ns s
  | .sessionEnable p v => Sys2Proof.Machine.execSessionEnable p v s
  | .sessionDisable p v => Sys2Proof.Machine.execSessionDisable p v s
  | .sessDataAccess p wr => Sys2Proof.Machine.execSessDataAccess p wr s
  | .dataFrameReceive p link rx => Sys2Proof.Machine.execDataFrameReceive p link rx s
  | .ackFrameReceive p link rx => Sys2Proof.Machine.execAckFrameReceive p link rx s
  | .pfcFrameReceive p prio n => Sys2Proof.Machine.execPfcFrameReceive p prio n s
  | .pfcQuantaExpire p prio => Sys2Proof.Machine.execPfcQuantaExpire p prio s
  | .ackDelayExpire p entry => Sys2Proof.Machine.execAckDelayExpire p entry s
  | .rtoExpire p entry n => Sys2Proof.Machine.execRtoExpire p entry n s
  | .rateInterval p entry => Sys2Proof.Machine.execRateInterval p entry s
  | .postReceive p => Sys2Proof.Machine.execPostReceive p s
  | .sendDescriptorRead p => Sys2Proof.Machine.execSendDescriptorRead p s
  | .frameSend p n => Sys2Proof.Machine.execFrameSend p n s
  | .evPostWrite cl i8 v => Sys2Proof.Machine.execEvPostWrite cl i8 v s
  | .hostLinkTrain n m flag => Sys2Proof.Machine.execHostLinkTrain n m flag s
  | .hostLinkRetrain n m => Sys2Proof.Machine.execHostLinkRetrain n m s
  | .hostLinkDown => Sys2Proof.Machine.execHostLinkDown s
  | .perstNAssert => Sys2Proof.Machine.execPerstNAssert s
  | .sqDoorbell fn q v => Sys2Proof.Machine.execSqDoorbell fn q v s
  | .hibCommandStart fn q cmd => Sys2Proof.Machine.execHibCommandStart fn q cmd s
  | .cmdNop n => Sys2Proof.Machine.execCmdNop n s
  | .hostToStack n hd => Sys2Proof.Machine.execHostToStack n hd s
  | .stackToHost n => Sys2Proof.Machine.execStackToHost n s
  | .load n hd => Sys2Proof.Machine.execLoad n hd s
  | .cmdFlag n => Sys2Proof.Machine.execCmdFlag n s
  | .commandComplete n => Sys2Proof.Machine.execCommandComplete n s
  | .cqHeadWrite fn q v => Sys2Proof.Machine.execCqHeadWrite fn q v s
  | .sqEnable fn q v => Sys2Proof.Machine.execSqEnable fn q v s
  | .sqDisable fn q v => Sys2Proof.Machine.execSqDisable fn q v s
  | .cqEnable fn q v => Sys2Proof.Machine.execCqEnable fn q v s
  | .watchedLineSnoop fn q ns => Sys2Proof.Machine.execWatchedLineSnoop fn q ns s
  | .packetHost cl => Sys2Proof.Machine.execPacketHost cl s
  | .hostReadCompletion n hd => Sys2Proof.Machine.execHostReadCompletion n hd s
  | .cxlMemRead win n => Sys2Proof.Machine.execCxlMemRead win n s
  | .cxlMemWrite win n line => Sys2Proof.Machine.execCxlMemWrite win n line s
  | .biasToDevice v => Sys2Proof.Machine.execBiasToDevice v s
  | .biasToHost v => Sys2Proof.Machine.execBiasToHost v s
  | .biasFlipComplete => Sys2Proof.Machine.execBiasFlipComplete s
  | .hdmCommit win n m k => Sys2Proof.Machine.execHdmCommit win n m k s
  | .windowEnable win v => Sys2Proof.Machine.execWindowEnable win v s
  | .functionLevelReset fn => Sys2Proof.Machine.execFunctionLevelReset fn s
  | .msixUnmask fn vec => Sys2Proof.Machine.execMsixUnmask fn vec s
  | .ideStreamStop flag => Sys2Proof.Machine.execIdeStreamStop flag s
  | .registerWrite off size v => Sys2Proof.Machine.execRegisterWrite off size v s
  | .rcRead off => Sys2Proof.Machine.execRcRead off s
  | .enableWrite pg => Sys2Proof.Machine.execEnableWrite pg s
  | .consistencyCheckComplete pg => Sys2Proof.Machine.execConsistencyCheckComplete pg s
  | .disableWrite pg => Sys2Proof.Machine.execDisableWrite pg s
  | .softReset pg => Sys2Proof.Machine.execSoftReset pg s
  | .devFenceRead => Sys2Proof.Machine.execDevFenceRead s
  | .windowSelect n16 v => Sys2Proof.Machine.execWindowSelect n16 v s
  | .wmtEntryWrite wmt v => Sys2Proof.Machine.execWmtEntryWrite wmt v s
  | .commit v => Sys2Proof.Machine.execCommit v s
  | .release v => Sys2Proof.Machine.execRelease v s
  | .mapEn cl => Sys2Proof.Machine.execMapEn cl s
  | .mapDisable cl => Sys2Proof.Machine.execMapDisable cl s
  | .engineIdWrite v => Sys2Proof.Machine.execEngineIdWrite v s
  | .gableEnable t => Sys2Proof.Machine.execGableEnable t s
  | .gableDisable t => Sys2Proof.Machine.execGableDisable t s
  | .bayAdd t v => Sys2Proof.Machine.execBayAdd t v s
  | .bayRemove t v => Sys2Proof.Machine.execBayRemove t v s
  | .allotWrite t v => Sys2Proof.Machine.execAllotWrite t v s
  | .meterPeriodEnd t => Sys2Proof.Machine.execMeterPeriodEnd t s
  | .mtClose v => Sys2Proof.Machine.execMtClose v s
  | .meterRecordWrite t => Sys2Proof.Machine.execMeterRecordWrite t s
  | .mtIntervalWrite v => Sys2Proof.Machine.execMtIntervalWrite v s
  | .mtRecDataRead => Sys2Proof.Machine.execMtRecDataRead s
  | .estimateWindow b n => Sys2Proof.Machine.execEstimateWindow b n s
  | .measurementWindow b n m => Sys2Proof.Machine.execMeasurementWindow b n m s
  | .calibrationFit b ns ms => Sys2Proof.Machine.execCalibrationFit b ns ms s
  | .opportunisticControl t => Sys2Proof.Machine.execOpportunisticControl t s
  | .learnUpdate t k n m => Sys2Proof.Machine.execLearnUpdate t k n m s
  | .armingStart b => Sys2Proof.Machine.execArmingStart b s
  | .armingComplete b => Sys2Proof.Machine.execArmingComplete b s
  | .disarm b => Sys2Proof.Machine.execDisarm b s
  | .thermalTrip cl n => Sys2Proof.Machine.execThermalTrip cl n s
  | .thermalEscalate b => Sys2Proof.Machine.execThermalEscalate b s
  | .thermalRelease b ns => Sys2Proof.Machine.execThermalRelease b ns s
  | .overdraw t => Sys2Proof.Machine.execOverdraw t s
  | .thermalLatch cl n => Sys2Proof.Machine.execThermalLatch cl n s
  | .bayLatch b => Sys2Proof.Machine.execBayLatch b s
  | .relight v => Sys2Proof.Machine.execRelight v s
  | .inletSample n => Sys2Proof.Machine.execInletSample n s
  | .inputSample n => Sys2Proof.Machine.execInputSample n s
  | .inputLoss n => Sys2Proof.Machine.execInputLoss n s
  | .darkEnter v => Sys2Proof.Machine.execDarkEnter v s
  | .wake => Sys2Proof.Machine.execWake s
  | .bladeWithdraw => Sys2Proof.Machine.execBladeWithdraw s
  | .bladeInsert => Sys2Proof.Machine.execBladeInsert s
  | .rails ns => Sys2Proof.Machine.execRails ns s
  | .clocks ns => Sys2Proof.Machine.execClocks ns s
  | .ridge of => Sys2Proof.Machine.execRidge of s
  | .record => Sys2Proof.Machine.execRecord s
  | .test ns ms => Sys2Proof.Machine.execTest ns ms s
  | .mapStep => Sys2Proof.Machine.execMapStep s
  | .mapFinish => Sys2Proof.Machine.execMapFinish s
  | .mesh ns => Sys2Proof.Machine.execMesh ns s
  | .firmware of => Sys2Proof.Machine.execFirmware of s
  | .stacks ns => Sys2Proof.Machine.execStacks ns s
  | .host => Sys2Proof.Machine.execHost s
  | .eave ns => Sys2Proof.Machine.execEave ns s
  | .ready => Sys2Proof.Machine.execReady s
  | .bringupStepEnd => Sys2Proof.Machine.execBringupStepEnd s
  | .standbyPowerUp n => Sys2Proof.Machine.execStandbyPowerUp n s
  | .coldReset => Sys2Proof.Machine.execColdReset s
  | .warmReset => Sys2Proof.Machine.execWarmReset s
  | .gableReset t => Sys2Proof.Machine.execGableReset t s
  | .gableResetComplete t => Sys2Proof.Machine.execGableResetComplete t s
  | .testBay v => Sys2Proof.Machine.execTestBay v s
  | .testBayComplete ns ms => Sys2Proof.Machine.execTestBayComplete ns ms s
  | .imgErase => Sys2Proof.Machine.execImgErase s
  | .imgDataWrite v => Sys2Proof.Machine.execImgDataWrite v s
  | .microcodeSend cl => Sys2Proof.Machine.execMicrocodeSend cl s
  | .fcHeartbeat f => Sys2Proof.Machine.execFcHeartbeat f s
  | .nbrLost f => Sys2Proof.Machine.execNbrLost f s
  | .cover f flag => Sys2Proof.Machine.execCover f flag s
  | .fcReset f => Sys2Proof.Machine.execFcReset f s
  | .ctrCommit v => Sys2Proof.Machine.execCtrCommit v s
  | .reportGo v => Sys2Proof.Machine.execReportGo v s
  | .blobDataWrite v => Sys2Proof.Machine.execBlobDataWrite v s
  | .keyLoad v => Sys2Proof.Machine.execKeyLoad v s
  | .keyErase v => Sys2Proof.Machine.execKeyErase v s
  | .signingComplete => Sys2Proof.Machine.execSigningComplete s
  | .rngFail => Sys2Proof.Machine.execRngFail s
  | .getVersion => Sys2Proof.Machine.execGetVersion s
  | .getCapabilities => Sys2Proof.Machine.execGetCapabilities s
  | .negotiateAlgorithms bytes => Sys2Proof.Machine.execNegotiateAlgorithms bytes s
  | .getDigests => Sys2Proof.Machine.execGetDigests s
  | .getCertificate n m k => Sys2Proof.Machine.execGetCertificate n m k s
  | .challenge n bytes => Sys2Proof.Machine.execChallenge n bytes s
  | .getMeasurements n bytes => Sys2Proof.Machine.execGetMeasurements n bytes s
  | .keyExchange n bytes => Sys2Proof.Machine.execKeyExchange n bytes s
  | .finish n bytes => Sys2Proof.Machine.execFinish n bytes s
  | .heartbeat n => Sys2Proof.Machine.execHeartbeat n s
  | .keyUpdate n k => Sys2Proof.Machine.execKeyUpdate n k s
  | .endSession n => Sys2Proof.Machine.execEndSession n s
  | .ideKm n flag => Sys2Proof.Machine.execIdeKm n flag s
  | .errorRecordWrite pg n => Sys2Proof.Machine.execErrorRecordWrite pg n s
  | .storePatrol cl => Sys2Proof.Machine.execStorePatrol cl s
  | .stackPatrol b => Sys2Proof.Machine.execStackPatrol b s
  | .spareWireSweep cl lp n m => Sys2Proof.Machine.execSpareWireSweep cl lp n m s
  | .agingReading cl n => Sys2Proof.Machine.execAgingReading cl n s
  | .fcMark f v => Sys2Proof.Machine.execFcMark f v s
  | .setEndpointId n m => Sys2Proof.Machine.execSetEndpointId n m s
  | .getEndpointId => Sys2Proof.Machine.execGetEndpointId s
  | .getMctpVersionSupport n => Sys2Proof.Machine.execGetMctpVersionSupport n s
  | .getMessageTypeSupport => Sys2Proof.Machine.execGetMessageTypeSupport s
  | .getVendorDefinedMessageSupport n => Sys2Proof.Machine.execGetVendorDefinedMessageSupport n s
  | .mctpRead n m k => Sys2Proof.Machine.execMctpRead n m k s
  | .tapReset => Sys2Proof.Machine.execTapReset s
  | .extest => Sys2Proof.Machine.execExtest s
  | .idcode => Sys2Proof.Machine.execIdcode s
  | .samplePreload => Sys2Proof.Machine.execSamplePreload s
  | .clamp => Sys2Proof.Machine.execClamp s
  | .highz => Sys2Proof.Machine.execHighz s
  | .extestPulse => Sys2Proof.Machine.execExtestPulse s
  | .extestTrain => Sys2Proof.Machine.execExtestTrain s
  | .ebSample => Sys2Proof.Machine.execEbSample s
  | .ebExtestPulse => Sys2Proof.Machine.execEbExtestPulse s
  | .ebExtestTrain => Sys2Proof.Machine.execEbExtestTrain s
  | .bypass => Sys2Proof.Machine.execBypass s
  | .standbyPowerLoss => Sys2Proof.Machine.execStandbyPowerLoss s
  | .ridgePathLost f => Sys2Proof.Machine.execRidgePathLost f s
  | .hostReadTimeout n => Sys2Proof.Machine.execHostReadTimeout n s
  | .controllerRestart f flag => Sys2Proof.Machine.execControllerRestart f flag s
  | .softResetComplete pg => Sys2Proof.Machine.execSoftResetComplete pg s
  | .digestComplete t => Sys2Proof.Machine.execDigestComplete t s
  | .fcMarkComplete f => Sys2Proof.Machine.execFcMarkComplete f s
  | .imgEraseComplete => Sys2Proof.Machine.execImgEraseComplete s
  | .keySwapComplete => Sys2Proof.Machine.execKeySwapComplete s

end Sys2Proof.Machine
end

