-- ==== Sys2Proof/Machine/Step.lean ====
section
/-! DEFINITION. One step: the command at the front of the queue, or a nanosecond in which none waits. -/

namespace Sys2Proof.Machine

open Sys2Proof

/-- The front command is executed with the rest of the queue; with no command waiting, time passes
(log entry 33). -/
def step (s : State) : Host.Outcome State Fault Refusal :=
  match s.pending with
  | [] => .next { s with toChip := s.toChip.tick }
  | c :: rest => exec c { s with pending := rest }

/-- The command that a table word spells goes to the front of the queue. -/
def State.withFetchWord (s : State) (nbits w : Nat) : State :=
  match decodeTableWord nbits w with
  | some c => { s with pending := c :: s.pending }
  | none => s

end Sys2Proof.Machine
end

