-- ==== Sys2Proof/Laws/Map.lean ====
section
/-! SUPPORT. Sparse maps and memories: what is read after a write, and the canonical form kept by every
operation. -/

namespace Sys2Proof.Machine

open Sys2Proof

section Maps

variable {α : Type} [DecidableEq α] (d : α)

omit [DecidableEq α] in
@[simp] theorem SMap.get_nil (i : Nat) : SMap.get d [] i = d := rfl

omit [DecidableEq α] in
theorem SMap.get_cons (k : Nat) (v : α) (m : SMap α) (i : Nat) :
    SMap.get d ((k, v) :: m) i = if i = k then v else SMap.get d m i := rfl

omit [DecidableEq α] in
@[simp] theorem SMap.drop_nil (i : Nat) : SMap.drop ([] : SMap α) i = [] := rfl

omit [DecidableEq α] in
theorem SMap.get_drop (m : SMap α) (i j : Nat) :
    SMap.get d (SMap.drop m i) j = if j = i then d else SMap.get d m j := by
  induction m with
  | nil => simp
  | cons p m ih =>
    obtain ⟨k, v⟩ := p
    by_cases hk : k = i
    · have : SMap.drop ((k, v) :: m) i = SMap.drop m i := by simp [SMap.drop, hk]
      rw [this, ih, SMap.get_cons]
      by_cases hj : j = i <;> simp [hj, hk]
    · have : SMap.drop ((k, v) :: m) i = (k, v) :: SMap.drop m i := by simp [SMap.drop, hk]
      rw [this, SMap.get_cons, SMap.get_cons, ih]
      by_cases hj : j = k
      · simp [hj, hk]
      · simp [hj]

/-- A read after a write: the value written at its key, what was there at any other. -/
theorem SMap.get_set (m : SMap α) (i j : Nat) (v : α) :
    SMap.get d (SMap.set d m i v) j = if j = i then v else SMap.get d m j := by
  induction m with
  | nil => unfold SMap.set; split <;> by_cases hj : j = i <;> simp_all [SMap.get]
  | cons p m ih =>
    obtain ⟨k, x⟩ := p
    unfold SMap.set
    by_cases h1 : i < k
    · by_cases hv : v = d
      · rw [if_pos h1, if_pos hv, SMap.get_drop, hv]
      · rw [if_pos h1, if_neg hv, SMap.get_cons]
    · by_cases h2 : i = k
      · by_cases hv : v = d
        · rw [if_neg h1, if_pos h2, if_pos hv, SMap.get_drop, hv, SMap.get_cons]
          by_cases hj : j = i <;> simp_all
        · rw [if_neg h1, if_pos h2, if_neg hv, SMap.get_cons, SMap.get_cons]
          by_cases hj : j = i <;> simp_all
      · rw [if_neg h1, if_neg h2, SMap.get_cons, SMap.get_cons, ih]
        by_cases hj : j = k
        · simp [hj]; intro h; exact absurd h.symm h2
        · simp [hj]

@[simp] theorem SMap.get_set_same (m : SMap α) (i : Nat) (v : α) : SMap.get d (SMap.set d m i v) i = v := by
  simp [SMap.get_set]

@[simp] theorem SMap.get_set_other (m : SMap α) {i j : Nat} (h : j ≠ i) (v : α) :
    SMap.get d (SMap.set d m i v) j = SMap.get d m j := by
  simp [SMap.get_set, h]

omit [DecidableEq α] in
theorem SMap.get_drop_ne (e : α) (m : SMap α) {i j : Nat} (h : j ≠ i) : SMap.get e (SMap.drop m i) j = SMap.get e m j := by
  rw [SMap.get_drop, if_neg h]

/-- Another key reads as it did, whatever an unlisted key reads as. -/
theorem SMap.get_set_ne (e : α) (m : SMap α) {i j : Nat} (h : j ≠ i) (v : α) :
    SMap.get e (SMap.set d m i v) j = SMap.get e m j := by
  induction m with
  | nil => unfold SMap.set; split <;> simp [SMap.get, h]
  | cons p m ih =>
    obtain ⟨k, x⟩ := p
    unfold SMap.set
    split
    · split
      · exact SMap.get_drop_ne e _ h
      · rw [SMap.get_cons, if_neg h]
    · split
      · rename_i hk
        subst hk
        split
        · rw [SMap.get_drop_ne e _ h, SMap.get_cons, if_neg h]
        · rw [SMap.get_cons, SMap.get_cons, if_neg h, if_neg h]
      · rw [SMap.get_cons, SMap.get_cons, ih]

theorem SMap.get_upd (m : SMap α) (i j : Nat) (f : α → α) :
    SMap.get d (SMap.upd d m i f) j = if j = i then f (SMap.get d m i) else SMap.get d m j := by
  simp [SMap.upd, SMap.get_set]

@[simp] theorem SMap.get_upd_same (m : SMap α) (i : Nat) (f : α → α) :
    SMap.get d (SMap.upd d m i f) i = f (SMap.get d m i) := by simp [SMap.get_upd]

@[simp] theorem SMap.get_upd_other (m : SMap α) {i j : Nat} (h : j ≠ i) (f : α → α) :
    SMap.get d (SMap.upd d m i f) j = SMap.get d m j := by simp [SMap.get_upd, h]

/-- The keys a map lists. -/
def SMap.keys {α : Type} (m : SMap α) : List Nat := m.map (·.1)

omit [DecidableEq α] in
theorem SMap.get_unlisted (m : SMap α) (i : Nat) (h : i ∉ SMap.keys m) : SMap.get d m i = d := by
  induction m with
  | nil => rfl
  | cons p m ih =>
    obtain ⟨k, v⟩ := p
    simp only [SMap.keys, List.map_cons, List.mem_cons, not_or] at h
    rw [SMap.get_cons, if_neg h.1]
    exact ih h.2

/-- A listed value is mapped; an unlisted one stays what it was. -/
theorem SMap.get_mapVals (m : SMap α) (f : Nat → α → α) (i : Nat) :
    SMap.get d (SMap.mapVals d m f) i = if i ∈ SMap.keys m then f i (SMap.get d m i) else d := by
  induction m with
  | nil => rfl
  | cons p m ih =>
    obtain ⟨k, v⟩ := p
    have e : SMap.mapVals d ((k, v) :: m) f = SMap.set d (SMap.mapVals d m f) k (f k v) := rfl
    rw [e, SMap.get_set, SMap.get_cons]
    by_cases hk : i = k
    · subst hk; simp [SMap.keys]
    · simp only [hk, if_false, ih]
      have : i ∈ SMap.keys ((k, v) :: m) ↔ i ∈ SMap.keys m := by simp [SMap.keys, hk]
      by_cases hm : i ∈ SMap.keys m <;> simp [this, hm]

/-! ### Canonical form -/

/-- A key stands above a bound. -/
def SMap.above (lo : Option Nat) (k : Nat) : Bool := match lo with | none => true | some l => decide (l < k)

theorem SMap.wfFrom_cons (lo : Option Nat) (k : Nat) (v : α) (m : SMap α) :
    SMap.wfFrom d lo ((k, v) :: m) = (SMap.above lo k && decide (v ≠ d) && SMap.wfFrom d (some k) m) := by
  cases lo <;> simp [SMap.wfFrom, SMap.above]

theorem SMap.above_trans {lo : Option Nat} {k k' : Nat} (h : SMap.above lo k = true) (hk : k < k') :
    SMap.above lo k' = true := by
  cases lo <;> simp_all [SMap.above]; omega

/-- A filter of a canonical map is canonical. -/
theorem SMap.wfFrom_filter (p : Nat × α → Bool) (m : SMap α) :
    ∀ lo, SMap.wfFrom d lo m = true → SMap.wfFrom d lo (m.filter p) = true := by
  induction m with
  | nil => intro lo _; rfl
  | cons q m ih =>
    obtain ⟨k, v⟩ := q
    intro lo h
    rw [SMap.wfFrom_cons] at h
    simp only [Bool.and_eq_true] at h
    by_cases hp : p (k, v) = true
    · rw [List.filter_cons_of_pos hp, SMap.wfFrom_cons]
      simp [h.1.1, of_decide_eq_true h.1.2, ih (some k) h.2]
    · rw [List.filter_cons_of_neg hp]
      apply ih
      have hm := h.2
      cases m with
      | nil => rfl
      | cons r m =>
        obtain ⟨k', v'⟩ := r
        rw [SMap.wfFrom_cons] at hm ⊢
        simp only [Bool.and_eq_true] at hm ⊢
        exact ⟨⟨SMap.above_trans h.1.1 (by simpa [SMap.above] using hm.1.1), hm.1.2⟩, hm.2⟩

theorem SMap.wfFrom_set (m : SMap α) (i : Nat) (v : α) :
    ∀ lo, SMap.above lo i = true → SMap.wfFrom d lo m = true → SMap.wfFrom d lo (SMap.set d m i v) = true := by
  induction m with
  | nil =>
    intro lo ha _
    unfold SMap.set
    by_cases hv : v = d
    · rw [if_pos hv]; rfl
    · rw [if_neg hv, SMap.wfFrom_cons]; simp [ha, hv, SMap.wfFrom]
  | cons q m ih =>
    obtain ⟨k, x⟩ := q
    intro lo ha h
    have h0 := h
    rw [SMap.wfFrom_cons] at h
    simp only [Bool.and_eq_true] at h
    unfold SMap.set
    by_cases h1 : i < k
    · rw [if_pos h1]
      by_cases hv : v = d
      · rw [if_pos hv]; exact SMap.wfFrom_filter d _ _ lo h0
      · rw [if_neg hv, SMap.wfFrom_cons]
        simp only [ha, hv, ne_eq, not_false_eq_true, decide_true, Bool.and_self, Bool.true_and]
        rw [SMap.wfFrom_cons]
        simp [SMap.above, h1, of_decide_eq_true h.1.2, h.2]
    · rw [if_neg h1]
      by_cases h2 : i = k
      · rw [if_pos h2]
        by_cases hv : v = d
        · rw [if_pos hv]
          have : SMap.wfFrom d lo ((((k, x) :: m) : SMap α).filter fun p => p.1 ≠ i) = true :=
            SMap.wfFrom_filter d _ _ lo h0
          have e : (((k, x) :: m) : SMap α).filter (fun p => p.1 ≠ i) = SMap.drop m i := by
            simp [SMap.drop, h2]
          rw [e] at this; exact this
        · rw [if_neg hv, SMap.wfFrom_cons]
          subst h2
          simp [ha, hv, h.2]
      · rw [if_neg h2, SMap.wfFrom_cons]
        have : SMap.above (some k) i = true := by simp [SMap.above]; omega
        simp [h.1.1, of_decide_eq_true h.1.2, ih (some k) this h.2]

/-- A write keeps the canonical form. -/
theorem SMap.wf_set (m : SMap α) (i : Nat) (v : α) (h : SMap.wf d m = true) :
    SMap.wf d (SMap.set d m i v) = true :=
  SMap.wfFrom_set d m i v none rfl h

theorem SMap.wf_upd (m : SMap α) (i : Nat) (f : α → α) (h : SMap.wf d m = true) :
    SMap.wf d (SMap.upd d m i f) = true :=
  SMap.wf_set d m i _ h

end Maps

theorem SMap.wf_mapVals {α : Type} [DecidableEq α] (d : α) (m : SMap α) (f : Nat → α → α) :
    SMap.wf d (SMap.mapVals d m f) = true := by
  induction m with
  | nil => rfl
  | cons p m ih => exact SMap.wf_set d _ _ _ ih

/-! ### Memories -/

theorem Memory.readByte_writeByte (m : Mem) (a b : Nat) (v : Byte) :
    Memory.readByte (Memory.writeByte m a v) b = if b = a then v else Memory.readByte m b :=
  SMap.get_set 0#8 m a b v

theorem Memory.wf_writeByte (m : Mem) (a : Nat) (v : Byte) (h : Memory.wf m = true) :
    Memory.wf (Memory.writeByte m a v) = true :=
  SMap.wf_set 0#8 m a v h

/-- A write of bytes leaves every byte outside them as it was. -/
theorem Memory.readByte_write_out (bs : List Byte) :
    ∀ (m : Mem) (a b : Nat), (b < a ∨ a + bs.length ≤ b) →
      Memory.readByte (Memory.write m a bs) b = Memory.readByte m b := by
  induction bs with
  | nil => intro m a b _; rfl
  | cons x bs ih =>
    intro m a b h
    simp only [List.length_cons] at h
    rw [Memory.write, ih _ _ _ (by omega), Memory.readByte_writeByte, if_neg (by omega)]

/-- A byte written is read back. -/
theorem Memory.readByte_write_in (bs : List Byte) :
    ∀ (m : Mem) (a i : Nat) (h : i < bs.length), Memory.readByte (Memory.write m a bs) (a + i) = bs[i] := by
  induction bs with
  | nil => intro m a i h; simp at h
  | cons x bs ih =>
    intro m a i h
    rw [Memory.write]
    cases i with
    | zero => rw [Memory.readByte_write_out _ _ _ _ (by omega), Memory.readByte_writeByte]; simp
    | succ n =>
      have := ih (Memory.writeByte m a x) (a + 1) n (by simpa using h)
      rw [show a + (n + 1) = a + 1 + n by omega, this]; simp

theorem Memory.wf_write (bs : List Byte) : ∀ (m : Mem) (a : Nat), Memory.wf m = true →
    Memory.wf (Memory.write m a bs) = true := by
  induction bs with
  | nil => intro m a h; exact h
  | cons x bs ih => intro m a h; exact ih _ _ (Memory.wf_writeByte m a x h)

theorem Memory.wf_clear (m : Mem) (a n : Nat) (h : Memory.wf m = true) : Memory.wf (Memory.clear m a n) = true :=
  SMap.wfFrom_filter 0#8 _ m none h

end Sys2Proof.Machine
end

