-- ==== Sys2Proof/Laws/State.lean ====
section
/-! SUPPORT. What each update of the state leaves, field by field, and what the unit changed reads as after
it, so that no proof unfolds a record update. -/

namespace Sys2Proof.Machine

open Sys2Proof

@[simp] theorem Chip.draws_setCl (s : Chip) (i : Nat) (c : Cluster) : (s.setCl i c).draws = s.draws := rfl
@[simp] theorem Chip.out_setCl (s : Chip) (i : Nat) (c : Cluster) : (s.setCl i c).out = s.out := rfl
@[simp] theorem Chip.module_setCl (s : Chip) (i : Nat) (c : Cluster) : (s.setCl i c).module = s.module := rfl
@[simp] theorem Chip.tk_setCl (s : Chip) (i : Nat) (c : Cluster) : (s.setCl i c).tk = s.tk := rfl
@[simp] theorem Chip.dev_setCl (s : Chip) (i : Nat) (c : Cluster) : (s.setCl i c).dev = s.dev := rfl
@[simp] theorem Chip.hib_setCl (s : Chip) (i : Nat) (c : Cluster) : (s.setCl i c).hib = s.hib := rfl
@[simp] theorem Chip.meterPage_setCl (s : Chip) (i : Nat) (c : Cluster) : (s.setCl i c).meterPage = s.meterPage := rfl
@[simp] theorem Chip.powerPage_setCl (s : Chip) (i : Nat) (c : Cluster) : (s.setCl i c).powerPage = s.powerPage := rfl
@[simp] theorem Chip.sec_setCl (s : Chip) (i : Nat) (c : Cluster) : (s.setCl i c).sec = s.sec := rfl
@[simp] theorem Chip.bringup_setCl (s : Chip) (i : Nat) (c : Cluster) : (s.setCl i c).bringup = s.bringup := rfl
@[simp] theorem Chip.wmt_setCl (s : Chip) (i : Nat) (c : Cluster) : (s.setCl i c).wmt = s.wmt := rfl
@[simp] theorem Chip.committed_setCl (s : Chip) (i : Nat) (c : Cluster) : (s.setCl i c).committed = s.committed := rfl
@[simp] theorem Chip.wmtErr_setCl (s : Chip) (i : Nat) (c : Cluster) : (s.setCl i c).wmtErr = s.wmtErr := rfl
@[simp] theorem Chip.link_setCl (s : Chip) (i : Nat) (c : Cluster) : (s.setCl i c).link = s.link := rfl
@[simp] theorem Chip.fields_setCl (s : Chip) (i : Nat) (c : Cluster) : (s.setCl i c).fields = s.fields := rfl
@[simp] theorem Chip.bays_setCl (s : Chip) (i : Nat) (c : Cluster) : (s.setCl i c).bays = s.bays := rfl
@[simp] theorem Chip.gables_setCl (s : Chip) (i : Nat) (c : Cluster) : (s.setCl i c).gables = s.gables := rfl
@[simp] theorem Chip.eaves_setCl (s : Chip) (i : Nat) (c : Cluster) : (s.setCl i c).eaves = s.eaves := rfl
@[simp] theorem Chip.saved_setCl (s : Chip) (i : Nat) (c : Cluster) : (s.setCl i c).saved = s.saved := rfl

@[simp] theorem Chip.draws_modCl (s : Chip) (i : Nat) (f : Cluster → Cluster) : (s.modCl i f).draws = s.draws := rfl
@[simp] theorem Chip.out_modCl (s : Chip) (i : Nat) (f : Cluster → Cluster) : (s.modCl i f).out = s.out := rfl
@[simp] theorem Chip.module_modCl (s : Chip) (i : Nat) (f : Cluster → Cluster) : (s.modCl i f).module = s.module := rfl
@[simp] theorem Chip.tk_modCl (s : Chip) (i : Nat) (f : Cluster → Cluster) : (s.modCl i f).tk = s.tk := rfl
@[simp] theorem Chip.dev_modCl (s : Chip) (i : Nat) (f : Cluster → Cluster) : (s.modCl i f).dev = s.dev := rfl
@[simp] theorem Chip.hib_modCl (s : Chip) (i : Nat) (f : Cluster → Cluster) : (s.modCl i f).hib = s.hib := rfl
@[simp] theorem Chip.meterPage_modCl (s : Chip) (i : Nat) (f : Cluster → Cluster) : (s.modCl i f).meterPage = s.meterPage := rfl
@[simp] theorem Chip.powerPage_modCl (s : Chip) (i : Nat) (f : Cluster → Cluster) : (s.modCl i f).powerPage = s.powerPage := rfl
@[simp] theorem Chip.sec_modCl (s : Chip) (i : Nat) (f : Cluster → Cluster) : (s.modCl i f).sec = s.sec := rfl
@[simp] theorem Chip.bringup_modCl (s : Chip) (i : Nat) (f : Cluster → Cluster) : (s.modCl i f).bringup = s.bringup := rfl
@[simp] theorem Chip.wmt_modCl (s : Chip) (i : Nat) (f : Cluster → Cluster) : (s.modCl i f).wmt = s.wmt := rfl
@[simp] theorem Chip.committed_modCl (s : Chip) (i : Nat) (f : Cluster → Cluster) : (s.modCl i f).committed = s.committed := rfl
@[simp] theorem Chip.wmtErr_modCl (s : Chip) (i : Nat) (f : Cluster → Cluster) : (s.modCl i f).wmtErr = s.wmtErr := rfl
@[simp] theorem Chip.link_modCl (s : Chip) (i : Nat) (f : Cluster → Cluster) : (s.modCl i f).link = s.link := rfl
@[simp] theorem Chip.fields_modCl (s : Chip) (i : Nat) (f : Cluster → Cluster) : (s.modCl i f).fields = s.fields := rfl
@[simp] theorem Chip.bays_modCl (s : Chip) (i : Nat) (f : Cluster → Cluster) : (s.modCl i f).bays = s.bays := rfl
@[simp] theorem Chip.gables_modCl (s : Chip) (i : Nat) (f : Cluster → Cluster) : (s.modCl i f).gables = s.gables := rfl
@[simp] theorem Chip.eaves_modCl (s : Chip) (i : Nat) (f : Cluster → Cluster) : (s.modCl i f).eaves = s.eaves := rfl
@[simp] theorem Chip.saved_modCl (s : Chip) (i : Nat) (f : Cluster → Cluster) : (s.modCl i f).saved = s.saved := rfl

@[simp] theorem Chip.draws_setBay (s : Chip) (i : Nat) (b : Bay) : (s.setBay i b).draws = s.draws := rfl
@[simp] theorem Chip.out_setBay (s : Chip) (i : Nat) (b : Bay) : (s.setBay i b).out = s.out := rfl
@[simp] theorem Chip.module_setBay (s : Chip) (i : Nat) (b : Bay) : (s.setBay i b).module = s.module := rfl
@[simp] theorem Chip.tk_setBay (s : Chip) (i : Nat) (b : Bay) : (s.setBay i b).tk = s.tk := rfl
@[simp] theorem Chip.dev_setBay (s : Chip) (i : Nat) (b : Bay) : (s.setBay i b).dev = s.dev := rfl
@[simp] theorem Chip.hib_setBay (s : Chip) (i : Nat) (b : Bay) : (s.setBay i b).hib = s.hib := rfl
@[simp] theorem Chip.meterPage_setBay (s : Chip) (i : Nat) (b : Bay) : (s.setBay i b).meterPage = s.meterPage := rfl
@[simp] theorem Chip.powerPage_setBay (s : Chip) (i : Nat) (b : Bay) : (s.setBay i b).powerPage = s.powerPage := rfl
@[simp] theorem Chip.sec_setBay (s : Chip) (i : Nat) (b : Bay) : (s.setBay i b).sec = s.sec := rfl
@[simp] theorem Chip.bringup_setBay (s : Chip) (i : Nat) (b : Bay) : (s.setBay i b).bringup = s.bringup := rfl
@[simp] theorem Chip.wmt_setBay (s : Chip) (i : Nat) (b : Bay) : (s.setBay i b).wmt = s.wmt := rfl
@[simp] theorem Chip.committed_setBay (s : Chip) (i : Nat) (b : Bay) : (s.setBay i b).committed = s.committed := rfl
@[simp] theorem Chip.wmtErr_setBay (s : Chip) (i : Nat) (b : Bay) : (s.setBay i b).wmtErr = s.wmtErr := rfl
@[simp] theorem Chip.link_setBay (s : Chip) (i : Nat) (b : Bay) : (s.setBay i b).link = s.link := rfl
@[simp] theorem Chip.fields_setBay (s : Chip) (i : Nat) (b : Bay) : (s.setBay i b).fields = s.fields := rfl
@[simp] theorem Chip.clusters_setBay (s : Chip) (i : Nat) (b : Bay) : (s.setBay i b).clusters = s.clusters := rfl
@[simp] theorem Chip.gables_setBay (s : Chip) (i : Nat) (b : Bay) : (s.setBay i b).gables = s.gables := rfl
@[simp] theorem Chip.eaves_setBay (s : Chip) (i : Nat) (b : Bay) : (s.setBay i b).eaves = s.eaves := rfl
@[simp] theorem Chip.saved_setBay (s : Chip) (i : Nat) (b : Bay) : (s.setBay i b).saved = s.saved := rfl

@[simp] theorem Chip.draws_modBay (s : Chip) (i : Nat) (f : Bay → Bay) : (s.modBay i f).draws = s.draws := rfl
@[simp] theorem Chip.out_modBay (s : Chip) (i : Nat) (f : Bay → Bay) : (s.modBay i f).out = s.out := rfl
@[simp] theorem Chip.module_modBay (s : Chip) (i : Nat) (f : Bay → Bay) : (s.modBay i f).module = s.module := rfl
@[simp] theorem Chip.tk_modBay (s : Chip) (i : Nat) (f : Bay → Bay) : (s.modBay i f).tk = s.tk := rfl
@[simp] theorem Chip.dev_modBay (s : Chip) (i : Nat) (f : Bay → Bay) : (s.modBay i f).dev = s.dev := rfl
@[simp] theorem Chip.hib_modBay (s : Chip) (i : Nat) (f : Bay → Bay) : (s.modBay i f).hib = s.hib := rfl
@[simp] theorem Chip.meterPage_modBay (s : Chip) (i : Nat) (f : Bay → Bay) : (s.modBay i f).meterPage = s.meterPage := rfl
@[simp] theorem Chip.powerPage_modBay (s : Chip) (i : Nat) (f : Bay → Bay) : (s.modBay i f).powerPage = s.powerPage := rfl
@[simp] theorem Chip.sec_modBay (s : Chip) (i : Nat) (f : Bay → Bay) : (s.modBay i f).sec = s.sec := rfl
@[simp] theorem Chip.bringup_modBay (s : Chip) (i : Nat) (f : Bay → Bay) : (s.modBay i f).bringup = s.bringup := rfl
@[simp] theorem Chip.wmt_modBay (s : Chip) (i : Nat) (f : Bay → Bay) : (s.modBay i f).wmt = s.wmt := rfl
@[simp] theorem Chip.committed_modBay (s : Chip) (i : Nat) (f : Bay → Bay) : (s.modBay i f).committed = s.committed := rfl
@[simp] theorem Chip.wmtErr_modBay (s : Chip) (i : Nat) (f : Bay → Bay) : (s.modBay i f).wmtErr = s.wmtErr := rfl
@[simp] theorem Chip.link_modBay (s : Chip) (i : Nat) (f : Bay → Bay) : (s.modBay i f).link = s.link := rfl
@[simp] theorem Chip.fields_modBay (s : Chip) (i : Nat) (f : Bay → Bay) : (s.modBay i f).fields = s.fields := rfl
@[simp] theorem Chip.clusters_modBay (s : Chip) (i : Nat) (f : Bay → Bay) : (s.modBay i f).clusters = s.clusters := rfl
@[simp] theorem Chip.gables_modBay (s : Chip) (i : Nat) (f : Bay → Bay) : (s.modBay i f).gables = s.gables := rfl
@[simp] theorem Chip.eaves_modBay (s : Chip) (i : Nat) (f : Bay → Bay) : (s.modBay i f).eaves = s.eaves := rfl
@[simp] theorem Chip.saved_modBay (s : Chip) (i : Nat) (f : Bay → Bay) : (s.modBay i f).saved = s.saved := rfl

@[simp] theorem Chip.draws_modField (s : Chip) (i : Nat) (f : Field → Field) : (s.modField i f).draws = s.draws := rfl
@[simp] theorem Chip.out_modField (s : Chip) (i : Nat) (f : Field → Field) : (s.modField i f).out = s.out := rfl
@[simp] theorem Chip.module_modField (s : Chip) (i : Nat) (f : Field → Field) : (s.modField i f).module = s.module := rfl
@[simp] theorem Chip.tk_modField (s : Chip) (i : Nat) (f : Field → Field) : (s.modField i f).tk = s.tk := rfl
@[simp] theorem Chip.dev_modField (s : Chip) (i : Nat) (f : Field → Field) : (s.modField i f).dev = s.dev := rfl
@[simp] theorem Chip.hib_modField (s : Chip) (i : Nat) (f : Field → Field) : (s.modField i f).hib = s.hib := rfl
@[simp] theorem Chip.meterPage_modField (s : Chip) (i : Nat) (f : Field → Field) : (s.modField i f).meterPage = s.meterPage := rfl
@[simp] theorem Chip.powerPage_modField (s : Chip) (i : Nat) (f : Field → Field) : (s.modField i f).powerPage = s.powerPage := rfl
@[simp] theorem Chip.sec_modField (s : Chip) (i : Nat) (f : Field → Field) : (s.modField i f).sec = s.sec := rfl
@[simp] theorem Chip.bringup_modField (s : Chip) (i : Nat) (f : Field → Field) : (s.modField i f).bringup = s.bringup := rfl
@[simp] theorem Chip.wmt_modField (s : Chip) (i : Nat) (f : Field → Field) : (s.modField i f).wmt = s.wmt := rfl
@[simp] theorem Chip.committed_modField (s : Chip) (i : Nat) (f : Field → Field) : (s.modField i f).committed = s.committed := rfl
@[simp] theorem Chip.wmtErr_modField (s : Chip) (i : Nat) (f : Field → Field) : (s.modField i f).wmtErr = s.wmtErr := rfl
@[simp] theorem Chip.link_modField (s : Chip) (i : Nat) (f : Field → Field) : (s.modField i f).link = s.link := rfl
@[simp] theorem Chip.bays_modField (s : Chip) (i : Nat) (f : Field → Field) : (s.modField i f).bays = s.bays := rfl
@[simp] theorem Chip.clusters_modField (s : Chip) (i : Nat) (f : Field → Field) : (s.modField i f).clusters = s.clusters := rfl
@[simp] theorem Chip.gables_modField (s : Chip) (i : Nat) (f : Field → Field) : (s.modField i f).gables = s.gables := rfl
@[simp] theorem Chip.eaves_modField (s : Chip) (i : Nat) (f : Field → Field) : (s.modField i f).eaves = s.eaves := rfl
@[simp] theorem Chip.saved_modField (s : Chip) (i : Nat) (f : Field → Field) : (s.modField i f).saved = s.saved := rfl

@[simp] theorem Chip.draws_modGable (s : Chip) (t : Nat) (f : Gable → Gable) : (s.modGable t f).draws = s.draws := rfl
@[simp] theorem Chip.out_modGable (s : Chip) (t : Nat) (f : Gable → Gable) : (s.modGable t f).out = s.out := rfl
@[simp] theorem Chip.module_modGable (s : Chip) (t : Nat) (f : Gable → Gable) : (s.modGable t f).module = s.module := rfl
@[simp] theorem Chip.tk_modGable (s : Chip) (t : Nat) (f : Gable → Gable) : (s.modGable t f).tk = s.tk := rfl
@[simp] theorem Chip.dev_modGable (s : Chip) (t : Nat) (f : Gable → Gable) : (s.modGable t f).dev = s.dev := rfl
@[simp] theorem Chip.hib_modGable (s : Chip) (t : Nat) (f : Gable → Gable) : (s.modGable t f).hib = s.hib := rfl
@[simp] theorem Chip.meterPage_modGable (s : Chip) (t : Nat) (f : Gable → Gable) : (s.modGable t f).meterPage = s.meterPage := rfl
@[simp] theorem Chip.powerPage_modGable (s : Chip) (t : Nat) (f : Gable → Gable) : (s.modGable t f).powerPage = s.powerPage := rfl
@[simp] theorem Chip.sec_modGable (s : Chip) (t : Nat) (f : Gable → Gable) : (s.modGable t f).sec = s.sec := rfl
@[simp] theorem Chip.bringup_modGable (s : Chip) (t : Nat) (f : Gable → Gable) : (s.modGable t f).bringup = s.bringup := rfl
@[simp] theorem Chip.wmt_modGable (s : Chip) (t : Nat) (f : Gable → Gable) : (s.modGable t f).wmt = s.wmt := rfl
@[simp] theorem Chip.committed_modGable (s : Chip) (t : Nat) (f : Gable → Gable) : (s.modGable t f).committed = s.committed := rfl
@[simp] theorem Chip.wmtErr_modGable (s : Chip) (t : Nat) (f : Gable → Gable) : (s.modGable t f).wmtErr = s.wmtErr := rfl
@[simp] theorem Chip.link_modGable (s : Chip) (t : Nat) (f : Gable → Gable) : (s.modGable t f).link = s.link := rfl
@[simp] theorem Chip.fields_modGable (s : Chip) (t : Nat) (f : Gable → Gable) : (s.modGable t f).fields = s.fields := rfl
@[simp] theorem Chip.bays_modGable (s : Chip) (t : Nat) (f : Gable → Gable) : (s.modGable t f).bays = s.bays := rfl
@[simp] theorem Chip.clusters_modGable (s : Chip) (t : Nat) (f : Gable → Gable) : (s.modGable t f).clusters = s.clusters := rfl
@[simp] theorem Chip.eaves_modGable (s : Chip) (t : Nat) (f : Gable → Gable) : (s.modGable t f).eaves = s.eaves := rfl
@[simp] theorem Chip.saved_modGable (s : Chip) (t : Nat) (f : Gable → Gable) : (s.modGable t f).saved = s.saved := rfl

@[simp] theorem Chip.draws_modEave (s : Chip) (p : Nat) (f : Eave → Eave) : (s.modEave p f).draws = s.draws := rfl
@[simp] theorem Chip.out_modEave (s : Chip) (p : Nat) (f : Eave → Eave) : (s.modEave p f).out = s.out := rfl
@[simp] theorem Chip.module_modEave (s : Chip) (p : Nat) (f : Eave → Eave) : (s.modEave p f).module = s.module := rfl
@[simp] theorem Chip.tk_modEave (s : Chip) (p : Nat) (f : Eave → Eave) : (s.modEave p f).tk = s.tk := rfl
@[simp] theorem Chip.dev_modEave (s : Chip) (p : Nat) (f : Eave → Eave) : (s.modEave p f).dev = s.dev := rfl
@[simp] theorem Chip.hib_modEave (s : Chip) (p : Nat) (f : Eave → Eave) : (s.modEave p f).hib = s.hib := rfl
@[simp] theorem Chip.meterPage_modEave (s : Chip) (p : Nat) (f : Eave → Eave) : (s.modEave p f).meterPage = s.meterPage := rfl
@[simp] theorem Chip.powerPage_modEave (s : Chip) (p : Nat) (f : Eave → Eave) : (s.modEave p f).powerPage = s.powerPage := rfl
@[simp] theorem Chip.sec_modEave (s : Chip) (p : Nat) (f : Eave → Eave) : (s.modEave p f).sec = s.sec := rfl
@[simp] theorem Chip.bringup_modEave (s : Chip) (p : Nat) (f : Eave → Eave) : (s.modEave p f).bringup = s.bringup := rfl
@[simp] theorem Chip.wmt_modEave (s : Chip) (p : Nat) (f : Eave → Eave) : (s.modEave p f).wmt = s.wmt := rfl
@[simp] theorem Chip.committed_modEave (s : Chip) (p : Nat) (f : Eave → Eave) : (s.modEave p f).committed = s.committed := rfl
@[simp] theorem Chip.wmtErr_modEave (s : Chip) (p : Nat) (f : Eave → Eave) : (s.modEave p f).wmtErr = s.wmtErr := rfl
@[simp] theorem Chip.link_modEave (s : Chip) (p : Nat) (f : Eave → Eave) : (s.modEave p f).link = s.link := rfl
@[simp] theorem Chip.fields_modEave (s : Chip) (p : Nat) (f : Eave → Eave) : (s.modEave p f).fields = s.fields := rfl
@[simp] theorem Chip.bays_modEave (s : Chip) (p : Nat) (f : Eave → Eave) : (s.modEave p f).bays = s.bays := rfl
@[simp] theorem Chip.clusters_modEave (s : Chip) (p : Nat) (f : Eave → Eave) : (s.modEave p f).clusters = s.clusters := rfl
@[simp] theorem Chip.gables_modEave (s : Chip) (p : Nat) (f : Eave → Eave) : (s.modEave p f).gables = s.gables := rfl
@[simp] theorem Chip.saved_modEave (s : Chip) (p : Nat) (f : Eave → Eave) : (s.modEave p f).saved = s.saved := rfl

@[simp] theorem Chip.draws_modCore (s : Chip) (cl p : Nat) (f : Core → Core) : (s.modCore cl p f).draws = s.draws := rfl
@[simp] theorem Chip.out_modCore (s : Chip) (cl p : Nat) (f : Core → Core) : (s.modCore cl p f).out = s.out := rfl
@[simp] theorem Chip.module_modCore (s : Chip) (cl p : Nat) (f : Core → Core) : (s.modCore cl p f).module = s.module := rfl
@[simp] theorem Chip.tk_modCore (s : Chip) (cl p : Nat) (f : Core → Core) : (s.modCore cl p f).tk = s.tk := rfl
@[simp] theorem Chip.dev_modCore (s : Chip) (cl p : Nat) (f : Core → Core) : (s.modCore cl p f).dev = s.dev := rfl
@[simp] theorem Chip.hib_modCore (s : Chip) (cl p : Nat) (f : Core → Core) : (s.modCore cl p f).hib = s.hib := rfl
@[simp] theorem Chip.meterPage_modCore (s : Chip) (cl p : Nat) (f : Core → Core) : (s.modCore cl p f).meterPage = s.meterPage := rfl
@[simp] theorem Chip.powerPage_modCore (s : Chip) (cl p : Nat) (f : Core → Core) : (s.modCore cl p f).powerPage = s.powerPage := rfl
@[simp] theorem Chip.sec_modCore (s : Chip) (cl p : Nat) (f : Core → Core) : (s.modCore cl p f).sec = s.sec := rfl
@[simp] theorem Chip.bringup_modCore (s : Chip) (cl p : Nat) (f : Core → Core) : (s.modCore cl p f).bringup = s.bringup := rfl
@[simp] theorem Chip.wmt_modCore (s : Chip) (cl p : Nat) (f : Core → Core) : (s.modCore cl p f).wmt = s.wmt := rfl
@[simp] theorem Chip.committed_modCore (s : Chip) (cl p : Nat) (f : Core → Core) : (s.modCore cl p f).committed = s.committed := rfl
@[simp] theorem Chip.wmtErr_modCore (s : Chip) (cl p : Nat) (f : Core → Core) : (s.modCore cl p f).wmtErr = s.wmtErr := rfl
@[simp] theorem Chip.link_modCore (s : Chip) (cl p : Nat) (f : Core → Core) : (s.modCore cl p f).link = s.link := rfl
@[simp] theorem Chip.fields_modCore (s : Chip) (cl p : Nat) (f : Core → Core) : (s.modCore cl p f).fields = s.fields := rfl
@[simp] theorem Chip.bays_modCore (s : Chip) (cl p : Nat) (f : Core → Core) : (s.modCore cl p f).bays = s.bays := rfl
@[simp] theorem Chip.gables_modCore (s : Chip) (cl p : Nat) (f : Core → Core) : (s.modCore cl p f).gables = s.gables := rfl
@[simp] theorem Chip.eaves_modCore (s : Chip) (cl p : Nat) (f : Core → Core) : (s.modCore cl p f).eaves = s.eaves := rfl
@[simp] theorem Chip.saved_modCore (s : Chip) (cl p : Nat) (f : Core → Core) : (s.modCore cl p f).saved = s.saved := rfl

@[simp] theorem Chip.draws_modEngine (s : Chip) (cl u : Nat) (f : Engine → Engine) : (s.modEngine cl u f).draws = s.draws := rfl
@[simp] theorem Chip.out_modEngine (s : Chip) (cl u : Nat) (f : Engine → Engine) : (s.modEngine cl u f).out = s.out := rfl
@[simp] theorem Chip.module_modEngine (s : Chip) (cl u : Nat) (f : Engine → Engine) : (s.modEngine cl u f).module = s.module := rfl
@[simp] theorem Chip.tk_modEngine (s : Chip) (cl u : Nat) (f : Engine → Engine) : (s.modEngine cl u f).tk = s.tk := rfl
@[simp] theorem Chip.dev_modEngine (s : Chip) (cl u : Nat) (f : Engine → Engine) : (s.modEngine cl u f).dev = s.dev := rfl
@[simp] theorem Chip.hib_modEngine (s : Chip) (cl u : Nat) (f : Engine → Engine) : (s.modEngine cl u f).hib = s.hib := rfl
@[simp] theorem Chip.meterPage_modEngine (s : Chip) (cl u : Nat) (f : Engine → Engine) : (s.modEngine cl u f).meterPage = s.meterPage := rfl
@[simp] theorem Chip.powerPage_modEngine (s : Chip) (cl u : Nat) (f : Engine → Engine) : (s.modEngine cl u f).powerPage = s.powerPage := rfl
@[simp] theorem Chip.sec_modEngine (s : Chip) (cl u : Nat) (f : Engine → Engine) : (s.modEngine cl u f).sec = s.sec := rfl
@[simp] theorem Chip.bringup_modEngine (s : Chip) (cl u : Nat) (f : Engine → Engine) : (s.modEngine cl u f).bringup = s.bringup := rfl
@[simp] theorem Chip.wmt_modEngine (s : Chip) (cl u : Nat) (f : Engine → Engine) : (s.modEngine cl u f).wmt = s.wmt := rfl
@[simp] theorem Chip.committed_modEngine (s : Chip) (cl u : Nat) (f : Engine → Engine) : (s.modEngine cl u f).committed = s.committed := rfl
@[simp] theorem Chip.wmtErr_modEngine (s : Chip) (cl u : Nat) (f : Engine → Engine) : (s.modEngine cl u f).wmtErr = s.wmtErr := rfl
@[simp] theorem Chip.link_modEngine (s : Chip) (cl u : Nat) (f : Engine → Engine) : (s.modEngine cl u f).link = s.link := rfl
@[simp] theorem Chip.fields_modEngine (s : Chip) (cl u : Nat) (f : Engine → Engine) : (s.modEngine cl u f).fields = s.fields := rfl
@[simp] theorem Chip.bays_modEngine (s : Chip) (cl u : Nat) (f : Engine → Engine) : (s.modEngine cl u f).bays = s.bays := rfl
@[simp] theorem Chip.gables_modEngine (s : Chip) (cl u : Nat) (f : Engine → Engine) : (s.modEngine cl u f).gables = s.gables := rfl
@[simp] theorem Chip.eaves_modEngine (s : Chip) (cl u : Nat) (f : Engine → Engine) : (s.modEngine cl u f).eaves = s.eaves := rfl
@[simp] theorem Chip.saved_modEngine (s : Chip) (cl u : Nat) (f : Engine → Engine) : (s.modEngine cl u f).saved = s.saved := rfl

@[simp] theorem Chip.draws_modLinkH (s : Chip) (f : HostLink → HostLink) : (s.modLinkH f).draws = s.draws := rfl
@[simp] theorem Chip.out_modLinkH (s : Chip) (f : HostLink → HostLink) : (s.modLinkH f).out = s.out := rfl
@[simp] theorem Chip.module_modLinkH (s : Chip) (f : HostLink → HostLink) : (s.modLinkH f).module = s.module := rfl
@[simp] theorem Chip.tk_modLinkH (s : Chip) (f : HostLink → HostLink) : (s.modLinkH f).tk = s.tk := rfl
@[simp] theorem Chip.dev_modLinkH (s : Chip) (f : HostLink → HostLink) : (s.modLinkH f).dev = s.dev := rfl
@[simp] theorem Chip.hib_modLinkH (s : Chip) (f : HostLink → HostLink) : (s.modLinkH f).hib = s.hib := rfl
@[simp] theorem Chip.meterPage_modLinkH (s : Chip) (f : HostLink → HostLink) : (s.modLinkH f).meterPage = s.meterPage := rfl
@[simp] theorem Chip.powerPage_modLinkH (s : Chip) (f : HostLink → HostLink) : (s.modLinkH f).powerPage = s.powerPage := rfl
@[simp] theorem Chip.sec_modLinkH (s : Chip) (f : HostLink → HostLink) : (s.modLinkH f).sec = s.sec := rfl
@[simp] theorem Chip.bringup_modLinkH (s : Chip) (f : HostLink → HostLink) : (s.modLinkH f).bringup = s.bringup := rfl
@[simp] theorem Chip.wmt_modLinkH (s : Chip) (f : HostLink → HostLink) : (s.modLinkH f).wmt = s.wmt := rfl
@[simp] theorem Chip.committed_modLinkH (s : Chip) (f : HostLink → HostLink) : (s.modLinkH f).committed = s.committed := rfl
@[simp] theorem Chip.wmtErr_modLinkH (s : Chip) (f : HostLink → HostLink) : (s.modLinkH f).wmtErr = s.wmtErr := rfl
@[simp] theorem Chip.fields_modLinkH (s : Chip) (f : HostLink → HostLink) : (s.modLinkH f).fields = s.fields := rfl
@[simp] theorem Chip.bays_modLinkH (s : Chip) (f : HostLink → HostLink) : (s.modLinkH f).bays = s.bays := rfl
@[simp] theorem Chip.clusters_modLinkH (s : Chip) (f : HostLink → HostLink) : (s.modLinkH f).clusters = s.clusters := rfl
@[simp] theorem Chip.gables_modLinkH (s : Chip) (f : HostLink → HostLink) : (s.modLinkH f).gables = s.gables := rfl
@[simp] theorem Chip.eaves_modLinkH (s : Chip) (f : HostLink → HostLink) : (s.modLinkH f).eaves = s.eaves := rfl
@[simp] theorem Chip.saved_modLinkH (s : Chip) (f : HostLink → HostLink) : (s.modLinkH f).saved = s.saved := rfl

@[simp] theorem Chip.draws_emit (s : Chip) (o : Output) : (s.emit o).draws = s.draws := rfl
@[simp] theorem Chip.module_emit (s : Chip) (o : Output) : (s.emit o).module = s.module := rfl
@[simp] theorem Chip.tk_emit (s : Chip) (o : Output) : (s.emit o).tk = s.tk := rfl
@[simp] theorem Chip.dev_emit (s : Chip) (o : Output) : (s.emit o).dev = s.dev := rfl
@[simp] theorem Chip.hib_emit (s : Chip) (o : Output) : (s.emit o).hib = s.hib := rfl
@[simp] theorem Chip.meterPage_emit (s : Chip) (o : Output) : (s.emit o).meterPage = s.meterPage := rfl
@[simp] theorem Chip.powerPage_emit (s : Chip) (o : Output) : (s.emit o).powerPage = s.powerPage := rfl
@[simp] theorem Chip.sec_emit (s : Chip) (o : Output) : (s.emit o).sec = s.sec := rfl
@[simp] theorem Chip.bringup_emit (s : Chip) (o : Output) : (s.emit o).bringup = s.bringup := rfl
@[simp] theorem Chip.wmt_emit (s : Chip) (o : Output) : (s.emit o).wmt = s.wmt := rfl
@[simp] theorem Chip.committed_emit (s : Chip) (o : Output) : (s.emit o).committed = s.committed := rfl
@[simp] theorem Chip.wmtErr_emit (s : Chip) (o : Output) : (s.emit o).wmtErr = s.wmtErr := rfl
@[simp] theorem Chip.link_emit (s : Chip) (o : Output) : (s.emit o).link = s.link := rfl
@[simp] theorem Chip.fields_emit (s : Chip) (o : Output) : (s.emit o).fields = s.fields := rfl
@[simp] theorem Chip.bays_emit (s : Chip) (o : Output) : (s.emit o).bays = s.bays := rfl
@[simp] theorem Chip.clusters_emit (s : Chip) (o : Output) : (s.emit o).clusters = s.clusters := rfl
@[simp] theorem Chip.gables_emit (s : Chip) (o : Output) : (s.emit o).gables = s.gables := rfl
@[simp] theorem Chip.eaves_emit (s : Chip) (o : Output) : (s.emit o).eaves = s.eaves := rfl
@[simp] theorem Chip.saved_emit (s : Chip) (o : Output) : (s.emit o).saved = s.saved := rfl

/-! ### The unit changed, and the others -/

@[simp] theorem Chip.cl_setCl (s : Chip) (i j : Nat) (c : Cluster) :
    (s.setCl i c).cl j = if j = i then c else s.cl j := SMap.get_set _ _ _ _ _
@[simp] theorem Chip.cl_modCl (s : Chip) (i j : Nat) (f : Cluster → Cluster) :
    (s.modCl i f).cl j = if j = i then f (s.cl i) else s.cl j := SMap.get_set _ _ _ _ _
@[simp] theorem Chip.bay_setBay (s : Chip) (i j : Nat) (b : Bay) :
    (s.setBay i b).bay j = if j = i then b else s.bay j := SMap.get_set _ _ _ _ _
@[simp] theorem Chip.bay_modBay (s : Chip) (i j : Nat) (f : Bay → Bay) :
    (s.modBay i f).bay j = if j = i then f (s.bay i) else s.bay j := SMap.get_set _ _ _ _ _
@[simp] theorem Chip.field_modField (s : Chip) (i j : Nat) (f : Field → Field) :
    (s.modField i f).field j = if j = i then f (s.field i) else s.field j := SMap.get_upd _ _ _ _ _
@[simp] theorem Chip.gable_modGable (s : Chip) (i j : Nat) (f : Gable → Gable) :
    (s.modGable i f).gable j = if j = i then f (s.gable i) else s.gable j := SMap.get_upd _ _ _ _ _
@[simp] theorem Chip.eave_modEave (s : Chip) (i j : Nat) (f : Eave → Eave) :
    (s.modEave i f).eave j = if j = i then f (s.eave i) else s.eave j := SMap.get_upd _ _ _ _ _
@[simp] theorem Cluster.core_modCore (c : Cluster) (i j : Nat) (f : Core → Core) :
    (c.modCore i f).core j = if j = i then f (c.core i) else c.core j := SMap.get_upd _ _ _ _ _
@[simp] theorem Chip.link_modLinkH (s : Chip) (f : HostLink → HostLink) : (s.modLinkH f).link = f s.link := rfl
@[simp] theorem Chip.out_emit (s : Chip) (o : Output) : (s.emit o).out = s.out ++ [o] := rfl

/-! A family's units through another family's update. -/

@[simp] theorem Chip.bay_setCl_frame (s : Chip) (i : Nat) (c : Cluster) (n : Nat) : (s.setCl i c).bay n = s.bay n := rfl
@[simp] theorem Chip.field_setCl_frame (s : Chip) (i : Nat) (c : Cluster) (n : Nat) : (s.setCl i c).field n = s.field n := rfl
@[simp] theorem Chip.gable_setCl_frame (s : Chip) (i : Nat) (c : Cluster) (n : Nat) : (s.setCl i c).gable n = s.gable n := rfl
@[simp] theorem Chip.eave_setCl_frame (s : Chip) (i : Nat) (c : Cluster) (n : Nat) : (s.setCl i c).eave n = s.eave n := rfl
@[simp] theorem Chip.bay_modCl_frame (s : Chip) (i : Nat) (f : Cluster → Cluster) (n : Nat) : (s.modCl i f).bay n = s.bay n := rfl
@[simp] theorem Chip.field_modCl_frame (s : Chip) (i : Nat) (f : Cluster → Cluster) (n : Nat) : (s.modCl i f).field n = s.field n := rfl
@[simp] theorem Chip.gable_modCl_frame (s : Chip) (i : Nat) (f : Cluster → Cluster) (n : Nat) : (s.modCl i f).gable n = s.gable n := rfl
@[simp] theorem Chip.eave_modCl_frame (s : Chip) (i : Nat) (f : Cluster → Cluster) (n : Nat) : (s.modCl i f).eave n = s.eave n := rfl
@[simp] theorem Chip.cl_setBay_frame (s : Chip) (i : Nat) (b : Bay) (n : Nat) : (s.setBay i b).cl n = s.cl n := rfl
@[simp] theorem Chip.field_setBay_frame (s : Chip) (i : Nat) (b : Bay) (n : Nat) : (s.setBay i b).field n = s.field n := rfl
@[simp] theorem Chip.gable_setBay_frame (s : Chip) (i : Nat) (b : Bay) (n : Nat) : (s.setBay i b).gable n = s.gable n := rfl
@[simp] theorem Chip.eave_setBay_frame (s : Chip) (i : Nat) (b : Bay) (n : Nat) : (s.setBay i b).eave n = s.eave n := rfl
@[simp] theorem Chip.cl_modBay_frame (s : Chip) (i : Nat) (f : Bay → Bay) (n : Nat) : (s.modBay i f).cl n = s.cl n := rfl
@[simp] theorem Chip.field_modBay_frame (s : Chip) (i : Nat) (f : Bay → Bay) (n : Nat) : (s.modBay i f).field n = s.field n := rfl
@[simp] theorem Chip.gable_modBay_frame (s : Chip) (i : Nat) (f : Bay → Bay) (n : Nat) : (s.modBay i f).gable n = s.gable n := rfl
@[simp] theorem Chip.eave_modBay_frame (s : Chip) (i : Nat) (f : Bay → Bay) (n : Nat) : (s.modBay i f).eave n = s.eave n := rfl
@[simp] theorem Chip.cl_modField_frame (s : Chip) (i : Nat) (f : Field → Field) (n : Nat) : (s.modField i f).cl n = s.cl n := rfl
@[simp] theorem Chip.bay_modField_frame (s : Chip) (i : Nat) (f : Field → Field) (n : Nat) : (s.modField i f).bay n = s.bay n := rfl
@[simp] theorem Chip.gable_modField_frame (s : Chip) (i : Nat) (f : Field → Field) (n : Nat) : (s.modField i f).gable n = s.gable n := rfl
@[simp] theorem Chip.eave_modField_frame (s : Chip) (i : Nat) (f : Field → Field) (n : Nat) : (s.modField i f).eave n = s.eave n := rfl
@[simp] theorem Chip.cl_modGable_frame (s : Chip) (t : Nat) (f : Gable → Gable) (n : Nat) : (s.modGable t f).cl n = s.cl n := rfl
@[simp] theorem Chip.bay_modGable_frame (s : Chip) (t : Nat) (f : Gable → Gable) (n : Nat) : (s.modGable t f).bay n = s.bay n := rfl
@[simp] theorem Chip.field_modGable_frame (s : Chip) (t : Nat) (f : Gable → Gable) (n : Nat) : (s.modGable t f).field n = s.field n := rfl
@[simp] theorem Chip.eave_modGable_frame (s : Chip) (t : Nat) (f : Gable → Gable) (n : Nat) : (s.modGable t f).eave n = s.eave n := rfl
@[simp] theorem Chip.cl_modEave_frame (s : Chip) (p : Nat) (f : Eave → Eave) (n : Nat) : (s.modEave p f).cl n = s.cl n := rfl
@[simp] theorem Chip.bay_modEave_frame (s : Chip) (p : Nat) (f : Eave → Eave) (n : Nat) : (s.modEave p f).bay n = s.bay n := rfl
@[simp] theorem Chip.field_modEave_frame (s : Chip) (p : Nat) (f : Eave → Eave) (n : Nat) : (s.modEave p f).field n = s.field n := rfl
@[simp] theorem Chip.gable_modEave_frame (s : Chip) (p : Nat) (f : Eave → Eave) (n : Nat) : (s.modEave p f).gable n = s.gable n := rfl
@[simp] theorem Chip.bay_modCore_frame (s : Chip) (cl p : Nat) (f : Core → Core) (n : Nat) : (s.modCore cl p f).bay n = s.bay n := rfl
@[simp] theorem Chip.field_modCore_frame (s : Chip) (cl p : Nat) (f : Core → Core) (n : Nat) : (s.modCore cl p f).field n = s.field n := rfl
@[simp] theorem Chip.gable_modCore_frame (s : Chip) (cl p : Nat) (f : Core → Core) (n : Nat) : (s.modCore cl p f).gable n = s.gable n := rfl
@[simp] theorem Chip.eave_modCore_frame (s : Chip) (cl p : Nat) (f : Core → Core) (n : Nat) : (s.modCore cl p f).eave n = s.eave n := rfl
@[simp] theorem Chip.bay_modEngine_frame (s : Chip) (cl u : Nat) (f : Engine → Engine) (n : Nat) : (s.modEngine cl u f).bay n = s.bay n := rfl
@[simp] theorem Chip.field_modEngine_frame (s : Chip) (cl u : Nat) (f : Engine → Engine) (n : Nat) : (s.modEngine cl u f).field n = s.field n := rfl
@[simp] theorem Chip.gable_modEngine_frame (s : Chip) (cl u : Nat) (f : Engine → Engine) (n : Nat) : (s.modEngine cl u f).gable n = s.gable n := rfl
@[simp] theorem Chip.eave_modEngine_frame (s : Chip) (cl u : Nat) (f : Engine → Engine) (n : Nat) : (s.modEngine cl u f).eave n = s.eave n := rfl
@[simp] theorem Chip.cl_modLinkH_frame (s : Chip) (f : HostLink → HostLink) (n : Nat) : (s.modLinkH f).cl n = s.cl n := rfl
@[simp] theorem Chip.bay_modLinkH_frame (s : Chip) (f : HostLink → HostLink) (n : Nat) : (s.modLinkH f).bay n = s.bay n := rfl
@[simp] theorem Chip.field_modLinkH_frame (s : Chip) (f : HostLink → HostLink) (n : Nat) : (s.modLinkH f).field n = s.field n := rfl
@[simp] theorem Chip.gable_modLinkH_frame (s : Chip) (f : HostLink → HostLink) (n : Nat) : (s.modLinkH f).gable n = s.gable n := rfl
@[simp] theorem Chip.eave_modLinkH_frame (s : Chip) (f : HostLink → HostLink) (n : Nat) : (s.modLinkH f).eave n = s.eave n := rfl
@[simp] theorem Chip.cl_emit_frame (s : Chip) (o : Output) (n : Nat) : (s.emit o).cl n = s.cl n := rfl
@[simp] theorem Chip.bay_emit_frame (s : Chip) (o : Output) (n : Nat) : (s.emit o).bay n = s.bay n := rfl
@[simp] theorem Chip.field_emit_frame (s : Chip) (o : Output) (n : Nat) : (s.emit o).field n = s.field n := rfl
@[simp] theorem Chip.gable_emit_frame (s : Chip) (o : Output) (n : Nat) : (s.emit o).gable n = s.gable n := rfl
@[simp] theorem Chip.eave_emit_frame (s : Chip) (o : Output) (n : Nat) : (s.emit o).eave n = s.eave n := rfl

/-! A change of one core leaves the rest of its cluster. -/

@[simp] theorem Cluster.page_modCore (c : Cluster) (i : Nat) (f : Core → Core) : (c.modCore i f).page = c.page := rfl
@[simp] theorem Cluster.weavePage_modCore (c : Cluster) (i : Nat) (f : Core → Core) : (c.modCore i f).weavePage = c.weavePage := rfl
@[simp] theorem Cluster.weave_modCore (c : Cluster) (i : Nat) (f : Core → Core) : (c.modCore i f).weave = c.weave := rfl
@[simp] theorem Cluster.dma0_modCore (c : Cluster) (i : Nat) (f : Core → Core) : (c.modCore i f).dma0 = c.dma0 := rfl
@[simp] theorem Cluster.dma1_modCore (c : Cluster) (i : Nat) (f : Core → Core) : (c.modCore i f).dma1 = c.dma1 := rfl
@[simp] theorem Cluster.gutter_modCore (c : Cluster) (i : Nat) (f : Core → Core) : (c.modCore i f).gutter = c.gutter := rfl
@[simp] theorem Cluster.thatcher_modCore (c : Cluster) (i : Nat) (f : Core → Core) : (c.modCore i f).thatcher = c.thatcher := rfl
@[simp] theorem Cluster.skylight_modCore (c : Cluster) (i : Nat) (f : Core → Core) : (c.modCore i f).skylight = c.skylight := rfl
@[simp] theorem Cluster.ctu_modCore (c : Cluster) (i : Nat) (f : Core → Core) : (c.modCore i f).ctu = c.ctu := rfl
@[simp] theorem Cluster.router_modCore (c : Cluster) (i : Nat) (f : Core → Core) : (c.modCore i f).router = c.router := rfl
@[simp] theorem Cluster.valleys_modCore (c : Cluster) (i : Nat) (f : Core → Core) : (c.modCore i f).valleys = c.valleys := rfl
@[simp] theorem Cluster.store_modCore (c : Cluster) (i : Nat) (f : Core → Core) : (c.modCore i f).store = c.store := rfl
@[simp] theorem Cluster.storeErr_modCore (c : Cluster) (i : Nat) (f : Core → Core) : (c.modCore i f).storeErr = c.storeErr := rfl
@[simp] theorem Cluster.storeStop_modCore (c : Cluster) (i : Nat) (f : Core → Core) : (c.modCore i f).storeStop = c.storeStop := rfl
@[simp] theorem Cluster.vft_modCore (c : Cluster) (i : Nat) (f : Core → Core) : (c.modCore i f).vft = c.vft := rfl
@[simp] theorem Cluster.sets_modCore (c : Cluster) (i : Nat) (f : Core → Core) : (c.modCore i f).sets = c.sets := rfl
@[simp] theorem Cluster.deferred_modCore (c : Cluster) (i : Nat) (f : Core → Core) : (c.modCore i f).deferred = c.deferred := rfl
@[simp] theorem Cluster.hints_modCore (c : Cluster) (i : Nat) (f : Core → Core) : (c.modCore i f).hints = c.hints := rfl
@[simp] theorem Cluster.postCount_modCore (c : Cluster) (i : Nat) (f : Core → Core) : (c.modCore i f).postCount = c.postCount := rfl
@[simp] theorem Cluster.microcode_modCore (c : Cluster) (i : Nat) (f : Core → Core) : (c.modCore i f).microcode = c.microcode := rfl
@[simp] theorem Cluster.microcodeOk_modCore (c : Cluster) (i : Nat) (f : Core → Core) : (c.modCore i f).microcodeOk = c.microcodeOk := rfl
@[simp] theorem Cluster.lc_modCore (c : Cluster) (i : Nat) (f : Core → Core) : (c.modCore i f).lc = c.lc := rfl
@[simp] theorem Cluster.mapEn_modCore (c : Cluster) (i : Nat) (f : Core → Core) : (c.modCore i f).mapEn = c.mapEn := rfl
@[simp] theorem Cluster.mapDrop_modCore (c : Cluster) (i : Nat) (f : Core → Core) : (c.modCore i f).mapDrop = c.mapDrop := rfl
@[simp] theorem Cluster.locked_modCore (c : Cluster) (i : Nat) (f : Core → Core) : (c.modCore i f).locked = c.locked := rfl
@[simp] theorem Cluster.unusable_modCore (c : Cluster) (i : Nat) (f : Core → Core) : (c.modCore i f).unusable = c.unusable := rfl
@[simp] theorem Cluster.hole_modCore (c : Cluster) (i : Nat) (f : Core → Core) : (c.modCore i f).hole = c.hole := rfl
@[simp] theorem Cluster.dueHints_modCore (c : Cluster) (i : Nat) (f : Core → Core) : (c.modCore i f).dueHints = c.dueHints := rfl
@[simp] theorem Cluster.cycFrac_modCore (c : Cluster) (i : Nat) (f : Core → Core) : (c.modCore i f).cycFrac = c.cycFrac := rfl
@[simp] theorem Cluster.freq_modCore (c : Cluster) (i : Nat) (f : Core → Core) : (c.modCore i f).freq = c.freq := rfl
@[simp] theorem Cluster.stretch_modCore (c : Cluster) (i : Nat) (f : Core → Core) : (c.modCore i f).stretch = c.stretch := rfl
@[simp] theorem Cluster.temp_modCore (c : Cluster) (i : Nat) (f : Core → Core) : (c.modCore i f).temp = c.temp := rfl
@[simp] theorem Cluster.vminRaises_modCore (c : Cluster) (i : Nat) (f : Core → Core) : (c.modCore i f).vminRaises = c.vminRaises := rfl
@[simp] theorem Cluster.vminDue_modCore (c : Cluster) (i : Nat) (f : Core → Core) : (c.modCore i f).vminDue = c.vminDue := rfl
@[simp] theorem Cluster.slowdown_modCore (c : Cluster) (i : Nat) (f : Core → Core) : (c.modCore i f).slowdown = c.slowdown := rfl
@[simp] theorem Cluster.tbOff_modCore (c : Cluster) (i : Nat) (f : Core → Core) : (c.modCore i f).tbOff = c.tbOff := rfl
@[simp] theorem Cluster.tbMissed_modCore (c : Cluster) (i : Nat) (f : Core → Core) : (c.modCore i f).tbMissed = c.tbMissed := rfl
@[simp] theorem Cluster.tbFloor_modCore (c : Cluster) (i : Nat) (f : Core → Core) : (c.modCore i f).tbFloor = c.tbFloor := rfl
@[simp] theorem Cluster.tbTake_modCore (c : Cluster) (i : Nat) (f : Core → Core) : (c.modCore i f).tbTake = c.tbTake := rfl
@[simp] theorem Cluster.lastBusy_modCore (c : Cluster) (i : Nat) (f : Core → Core) : (c.modCore i f).lastBusy = c.lastBusy := rfl
@[simp] theorem Cluster.cyc_modCore (c : Cluster) (i : Nat) (f : Core → Core) : (c.modCore i f).cyc = c.cyc := rfl
@[simp] theorem Cluster.busyCyc_modCore (c : Cluster) (i : Nat) (f : Core → Core) : (c.modCore i f).busyCyc = c.busyCyc := rfl
@[simp] theorem Cluster.tensorCyc_modCore (c : Cluster) (i : Nat) (f : Core → Core) : (c.modCore i f).tensorCyc = c.tensorCyc := rfl
@[simp] theorem Cluster.sfuFires_modCore (c : Cluster) (i : Nat) (f : Core → Core) : (c.modCore i f).sfuFires = c.sfuFires := rfl
@[simp] theorem Cluster.patrolRow_modCore (c : Cluster) (i : Nat) (f : Core → Core) : (c.modCore i f).patrolRow = c.patrolRow := rfl

/-! ### Pages -/

@[simp] theorem Chip.draws_modPage (s : Chip) (pg : PageRef) (f : Page → Page) : (s.modPage pg f).draws = s.draws := by
  cases pg <;> rfl
@[simp] theorem Chip.out_modPage (s : Chip) (pg : PageRef) (f : Page → Page) : (s.modPage pg f).out = s.out := by
  cases pg <;> rfl
@[simp] theorem Chip.link_modPage (s : Chip) (pg : PageRef) (f : Page → Page) : (s.modPage pg f).link = s.link := by
  cases pg <;> rfl
@[simp] theorem Chip.wmt_modPage (s : Chip) (pg : PageRef) (f : Page → Page) : (s.modPage pg f).wmt = s.wmt := by
  cases pg <;> rfl
@[simp] theorem Chip.committed_modPage (s : Chip) (pg : PageRef) (f : Page → Page) : (s.modPage pg f).committed = s.committed := by
  cases pg <;> rfl
@[simp] theorem Chip.wmtErr_modPage (s : Chip) (pg : PageRef) (f : Page → Page) : (s.modPage pg f).wmtErr = s.wmtErr := by
  cases pg <;> rfl
@[simp] theorem Chip.module_modPage (s : Chip) (pg : PageRef) (f : Page → Page) : (s.modPage pg f).module = s.module := by
  cases pg <;> rfl

/-! ### Registers of a core -/

@[simp] theorem Core.sreg_zero (c : Core) : c.sreg 0 = 0#32 := rfl
@[simp] theorem Core.setS_zero (c : Core) (v : W32) : c.setS 0 v = c := rfl
theorem Core.sreg_setS (c : Core) (i j : Nat) (v : W32) :
    (c.setS i v).sreg j = if j = i ∧ i ≠ 0 then v else c.sreg j := by
  by_cases hi : i = 0
  · simp [hi]
  · by_cases hj : j = 0
    · simp [hj, Ne.symm hi]
    · simp [Core.setS, Core.sreg, hi, hj, SMap.get_set]
theorem Core.areg_setA (c : Core) (i j : Nat) (v : W32) :
    (c.setA i v).areg j = if j = i then v else c.areg j := SMap.get_set _ _ _ _ _
theorem Core.flag_setFlag (c : Core) (i j : Nat) (f : Flag) :
    (c.setFlag i f).flag j = if j = i then f else c.flag j := SMap.get_set _ _ _ _ _

end Sys2Proof.Machine
end

