-- ==== Sys2Proof/Safety.lean ====
section
/-! DEFINITION. What counts as a safe run, and the terms in which claims speak of commands: a command that
completes, a core that issues, and what stays as it was. -/

namespace Sys2Proof.Machine

open Sys2Proof

/-- Every waiting command is well-formed: it names units the engine has. -/
def State.wellQueued (s : State) : Prop := ∀ c ∈ s.pending, c.wf = true

/-- The command completes: `exec` answers a next state, of which `P` holds. -/
def Completes (c : Instr) (s : State) (P : State → Prop) : Prop := ∃ t, exec c s = .next t ∧ P t

/-! ### A core instruction -/

/-- The core as its instruction's fetch leaves it: a corrected error of the instruction word is counted. -/
def fetched (s : Chip) (cl p : Nat) : Core :=
  ((s.core cl p).lmScan ((s.core cl p).pc.toNat / 8) ((s.core cl p).pc.toNat / 8 + 1)).1

/-- Core `p` of cluster `cl` executes the instruction at its PC: both exist, the core issues (R90, R126), the PC lies
in local memory (R95), and the instruction's word has no uncorrectable error (R113). -/
def Issues (s : Chip) (cl p : Nat) : Prop :=
  cl < 4032 ∧ p < 136 ∧ s.canIssue cl p = true ∧ (s.core cl p).pc.toNat ≤ 0xBFF8 ∧
    ((s.core cl p).lmScan ((s.core cl p).pc.toNat / 8) ((s.core cl p).pc.toNat / 8 + 1)).2 = false

/-- The word at the PC of core `p` is instruction `i` (R96). -/
def Fetches (s : Chip) (cl p : Nat) (i : Instr) : Prop := decodeCore cl p (s.core cl p).word = some i

/-- The command of core instruction `i` completes wherever that instruction lies at the PC. -/
def Runs (cl p : Nat) (i : Instr) (s : State) (P : State → Prop) : Prop := Fetches s.toChip cl p i → Completes i s P

/-- The address after the instruction at the PC, under the active LOOP levels (R99), lies in local memory. -/
def Follows (c : Core) : Prop := (loopNext c.loops c.pc.toNat).2 ≤ 0xBFF8

/-- The core when its instruction issues: fetched, and the cycles for which the interlocks of `u` hold it behind it
(R90, R124). -/
def entered (s : Chip) (cl p : Nat) (u : Use := {}) : Core := (fetched s cl p).ready u

/-- The core after an instruction of `cyc` issue cycles with effect `e`: its cycles are counted, the results that `u`
leaves become usable in their time, and it moves to the next address in sequence (R90, R95, R99, R124). -/
def moved (e : Core) (cyc : Nat) (u : Use := {}) : Core :=
  { e.issued u cyc with
    loops := (loopNext e.loops e.pc.toNat).1
    pc := BitVec.ofNat 16 (loopNext e.loops e.pc.toNat).2
    wait := .none }

/-- The core after an instruction that jumps to `target`. -/
def jumped (e : Core) (cyc target : Nat) (u : Use := {}) : Core :=
  { e.issued u cyc with pc := BitVec.ofNat 16 target, wait := .none }

/-- Everything but the cores of cluster `cl` is as it was. -/
def OthersKept (s t : State) (cl : Nat) : Prop :=
  { t with clusters := [] } = { s with clusters := [] } ∧
  (∀ k, k ≠ cl → t.cl k = s.cl k) ∧
  { t.cl cl with cores := [] } = { s.cl cl with cores := [] }

/-- Core `p` of cluster `cl` is `c`, and everything else is as it was. -/
def OnlyCore (s t : State) (cl p : Nat) (c : Core) : Prop :=
  t.core cl p = c ∧ (∀ q, q ≠ p → t.core cl q = s.core cl q) ∧ OthersKept s t cl

/-! ### A host access -/

/-- An access to a page reaches it and nothing holds it: the HIB answers, the page is supplied and no check of it
is in progress (R32, R475, R488). -/
def Reaches (s : Chip) (pg : PageRef) : Prop :=
  s.hibOn = true ∧ s.reachable pg = true ∧ (s.page pg).check = none

/-- Every cluster but `cl` is as it was. -/
def OtherClusters (s t : State) (cl : Nat) : Prop := ∀ k, k ≠ cl → t.cl k = s.cl k

/-! ### A packet at its destination -/

/-- The one packet `k` that waited at router `cl` has been taken, and an answer of type `ptype` with `payload` is on
its way back to its source under its SEQ, on channel 9, by the port of the unit that took it (R301, R307). -/
def Answered (s t : State) (cl : Nat) (k : Packet) (ptype : Nat) (payload : List Byte) : Prop :=
  (t.router cl).arrived = [] ∧ ∃ a, (t.router cl).inbuf = (s.router cl).inbuf ++ [{ port := unitPort k.destUnit, pkt := a }] ∧
    a.ptype = ptype ∧ a.channel = 9 ∧ a.destLC = k.srcLC ∧ a.destCore = k.srcSub ∧ a.destUnit = k.srcUnit ∧
    a.seq = k.seq ∧ a.payload = payload

/-! ### A step of bring-up -/

/-- A command of step `n` is admitted: no step is in progress, the steps before it are done and it is not (R544). -/
def StepAdmitted (s : Chip) (n : Nat) : Prop :=
  Reaches s .bringup ∧ n ≤ 11 ∧ s.bringup.busy = false ∧ s.stepDone n = false ∧ ∀ k < n, s.stepDone k = true

/-- Step `n` is in progress. -/
def StepRuns (t : State) (n : Nat) : Prop := t.bringup.step = n ∧ t.bringup.state = .running

/-- The host sends: nothing holds its traffic (R437). -/
def Sent (s t : State) (os : List Output) : Prop := t.out = s.out ++ os

end Sys2Proof.Machine
end

