-- ==== Sys2Proof/Laws/Core.lean ====
section
/-! SUPPORT. What the queue of commands meets, and what the issue of a core instruction can do. -/

namespace Sys2Proof.Machine

open Sys2Proof

/-- A meaning leaves the queue of waiting commands. -/
theorem State.run_next {s t : State} {f : Chip → Eff} (h : s.run f = .next t) :
    t.pending = s.pending ∧ f s.toChip = .next t.toChip := by
  unfold State.run at h
  split at h <;> simp_all
  subst h; simp

theorem State.run_of_next {s : State} {f : Chip → Eff} {x : Chip} (h : f s.toChip = .next x) :
    s.run f = .next { s with toChip := x } := by
  unfold State.run; rw [h]

theorem State.run_onUnit {s : State} {f : Chip → Eff} {b : Bool} {x : Chip} (hb : b = true)
    (h : f s.toChip = onUnit b x) : s.run f = .next { s with toChip := x } := by
  unfold State.run; rw [h, hb]; rfl

/-- No status bit of FSTAT is new. -/
theorem Chip.flagErr_same (s : Chip) (cl : Nat) (w : W) : s.flagErr cl w w = s := by
  simp [Chip.flagErr]

/-- Cycles that pass leave a core's status, loops and PC. -/
@[simp] theorem Core.fstat_workCycles (c : Core) (n : Nat) : (c.workCycles n).fstat = c.fstat := rfl
@[simp] theorem Core.loops_workCycles (c : Core) (n : Nat) : (c.workCycles n).loops = c.loops := rfl
@[simp] theorem Core.pc_workCycles (c : Core) (n : Nat) : (c.workCycles n).pc = c.pc := rfl
@[simp] theorem Core.fstat_issued (c : Core) (u : Use) (n : Nat) : (c.issued u n).fstat = c.fstat := rfl
@[simp] theorem Core.loops_issued (c : Core) (u : Use) (n : Nat) : (c.issued u n).loops = c.loops := rfl
@[simp] theorem Core.pc_issued (c : Core) (u : Use) (n : Nat) : (c.issued u n).pc = c.pc := rfl
@[simp] theorem entered_fstat (s : Chip) (cl p : Nat) (u : Use) : (entered s cl p u).fstat = (fetched s cl p).fstat := rfl
@[simp] theorem entered_loops (s : Chip) (cl p : Nat) (u : Use) : (entered s cl p u).loops = (fetched s cl p).loops := rfl
@[simp] theorem entered_pc (s : Chip) (cl p : Nat) (u : Use) : (entered s cl p u).pc = (fetched s cl p).pc := rfl

/-- The issue of an instruction whose effect is on its own core alone. -/
theorem issue_core {op : Nat → Nat → BitVec 56 → Instr} {w : BitVec 56} {s : State} {cl p cyc : Nat} {f : Cluster → Core → Res} {u : Cluster → Core → Use} {v : Use} {e : Core}
    (hi : Issues s.toChip cl p) (hg : Fetches s.toChip cl p (op cl p w)) (hu : ∀ x, u x (fetched s.toChip cl p) = v) (hs : e.fstat = (fetched s.toChip cl p).fstat)
    (hl : e.loops = (fetched s.toChip cl p).loops) (hp : e.pc = (fetched s.toChip cl p).pc)
    (hn : Follows (fetched s.toChip cl p))
    (hf : ∀ x, f x (entered s.toChip cl p v) = okCore x p e) :
    ∃ t, s.run (fun c => coreInstr op cl p w c cyc f u) = .next t ∧ OnlyCore s t cl p (moved e cyc v) := by
  obtain ⟨h1, h2, h3, hpc, h4⟩ := hi
  refine ⟨_, State.run_onUnit (b := (cl < 4032 && p < 136)) (by simp [h1, h2]) rfl, ?_⟩
  have hb : ((s.core cl p).lmScan ((s.core cl p).pc.toNat / 8) ((s.core cl p).pc.toNat / 8 + 1)) =
      (fetched s.toChip cl p, false) := by
    rw [← h4]; rfl
  unfold Follows at hn
  have hpc' : ¬ (s.core cl p).pc.toNat > 0xBFF8 := by omega
  unfold entered at hf
  unfold Fetches at hg
  have hf0 : s.fetch cl p = .reads (fetched s.toChip cl p) (op cl p w) := by
    simp only [Chip.fetch, hpc', if_false, hb, hg, Bool.false_eq_true]
  simp only [Chip.issue, Chip.issueG, h3, hf0, ne_eq, not_true_eq_false, hu, hf, okCore, Bool.not_true, Bool.false_eq_true, if_false]
  have hn0 : (0 : Int) ≤ ((loopNext (fetched s.toChip cl p).loops (fetched s.toChip cl p).pc.toNat).2 : Int) ∧
      ((loopNext (fetched s.toChip cl p).loops (fetched s.toChip cl p).pc.toNat).2 : Int) ≤ 0xBFF8 := by
    omega
  simp only [Chip.goTo, hn0, and_self, if_true]
  have hk : (Chip.modCore ((Chip.modCore s.toChip cl p fun _ => fetched s.toChip cl p).setCl cl
      (((Chip.modCore s.toChip cl p fun _ => fetched s.toChip cl p).cl cl).modCore p fun _ => e)) cl p
        fun c => c.issued v cyc).core cl p = e.issued v cyc := by
    simp [Chip.core, Chip.modCore]
  rw [hk, Core.fstat_issued, hs, Chip.flagErr_same]
  refine ⟨?_, ?_, ?_, ?_, ?_⟩
  · simp [Chip.core, Chip.modCore, moved, hl, hp]
  · intro q hq; simp [Chip.core, Chip.modCore, hq]
  · simp [Chip.modCore, Chip.modCl, Chip.setCl]
  · intro k hk; simp [Chip.modCore, hk]
  · simp [Chip.modCore]

end Sys2Proof.Machine
end

