-- ==== Sys2Proof/Certificates/Slice0/Obligations.lean ====
section
/-! DEFINITION. The statements for the provers, from the numbered rules of the specification. -/



open Sys2Proof Sys2Proof.Machine

/-- A step takes the command at the front of the queue and executes it with the rest of the queue. With no command
waiting a nanosecond passes: the clusters pass the cycles of their clocks, ACKs that are owed and CXL.mem requests that
wait go on, an input out of range is timed, and on standby power the timekeeper counts 1 and RNG_OK reads what the
noise source's health tests left. An engine in which none of those has anything to do is otherwise as it was, and so is
one without standby power. Log entry 33. -/
def Obligations.StepRunsFrontCommandOrIdles : Prop :=
  (∀ (c : Instr) (s : State), step { s with pending := c :: s.pending } = exec c s) ∧
  (∀ s : State, s.pending = [] →
     (∃ t, step s = .next t ∧ t.pending = []) ∧
     (s.clusters = [] → (∀ q ∈ s.eaves, ∀ x ∈ q.2.sessions, x.2.ackDue = false) → s.link.memReqs = [] →
       s.module.inputBad = none →
       (s.module.standby = true → step s = .next { s with
         tk := { s.tk with now := s.tk.now + 1#64 }, sec := { s.sec with rngOk := !s.sec.rngFailed } }) ∧
       (s.module.standby = false → step s = .next s)))

/-- Every well-formed queue runs: the step answers a next state, takes exactly the front command off the queue and
leaves the rest waiting, well-formed. No command that names units the engine has ends in a fault or a refusal. -/
def Obligations.WellQueuedStepsComplete : Prop :=
  ∀ s : State, s.wellQueued → ∃ t, step s = .next t ∧ t.pending = s.pending.tail ∧ t.wellQueued

/-- s0 reads as 0 and a write to it is discarded, in every state; every other scalar register, and every address
register, reads as what was last written to it. -/
def Obligations.RegisterZero : Prop :=
  ∀ (c : Core) (v : BitVec 32), c.sreg 0 = 0#32 ∧ c.setS 0 v = c ∧
    ∀ i j, (c.setS i v).sreg j = (if j = i ∧ i ≠ 0 then v else c.sreg j) ∧
      (c.setA i v).areg j = (if j = i then v else c.areg j) ∧ (c.setA i v).sreg j = c.sreg j ∧
      (c.setS i v).areg j = c.areg j

/-- ADD to MUL: RD receives the operation of RS1 and b; every other register, the status, memory and all the rest of
the engine are as they were, but for the cycles: those of the interlock and of the issue count as work, RD becomes
usable in the operation's latency, and the core moves to the next instruction. -/
def Obligations.ScalarIntegerResults : Prop :=
  ∀ (s : State) (cl p : Nat) (w : BitVec 56), Issues s.toChip cl p → Follows (fetched s.toChip cl p) →
    reservedOk { rd := true, rs1 := true, b := true } w = true →
    let c := fetched s.toChip cl p
    let a : BitVec 32 := c.sreg (fRs1 w)
    let b : BitVec 32 := if fI w = 0 then c.sreg (fRs2 w) else BitVec.ofNat 32 w.toNat
    let rdIn (latency : Nat) (v : BitVec 32) (t : State) : Prop :=
      let u := aluUse latency w (s.cl cl) c
      OnlyCore s t cl p (moved ((entered s.toChip cl p u).setS (fRd w) v) 1 u)
    let rd := rdIn 1
    Runs cl p (.add cl p w) s (rd (a + b)) ∧
    Runs cl p (.sub cl p w) s (rd (a - b)) ∧
    Runs cl p (.and cl p w) s (rd (a &&& b)) ∧
    Runs cl p (.or cl p w) s (rd (a ||| b)) ∧
    Runs cl p (.xor cl p w) s (rd (a ^^^ b)) ∧
    Runs cl p (.shl cl p w) s (rd (a <<< (b.toNat % 32))) ∧
    Runs cl p (.shr cl p w) s (rd (a >>> (b.toNat % 32))) ∧
    Runs cl p (.sra cl p w) s (rd (a.sshiftRight (b.toNat % 32))) ∧
    Runs cl p (.slt cl p w) s (rd (if a.toInt < b.toInt then 1#32 else 0#32)) ∧
    Runs cl p (.sltu cl p w) s (rd (if a.toNat < b.toNat then 1#32 else 0#32)) ∧
    Runs cl p (.seq cl p w) s (rd (if a = b then 1#32 else 0#32)) ∧
    Runs cl p (.min cl p w) s (rd (if b.toInt < a.toInt then b else a)) ∧
    Runs cl p (.max cl p w) s (rd (if a.toInt < b.toInt then b else a)) ∧
    Runs cl p (.mul cl p w) s (rdIn 3 (a * b))

/-- FADD to FMAX: RD receives the FP32 result; INVALID is set when the operation was invalid, and no other status
bit changes; FMIN and FMAX set none. LI and the address instructions, and the conversions between integer and FP32:
the destination receives the value, and everything else is as it was. F2I sets INT_SAT and NAN_TO_ZERO under R59 and
R60. -/
def Obligations.ScalarFloatAndMoveResults : Prop :=
  (∀ (s : State) (cl p : Nat) (w : BitVec 56), Issues s.toChip cl p → Follows (fetched s.toChip cl p) →
     reservedOk { rd := true, rs1 := true, b := true } w = true →
     let c := fetched s.toChip cl p
     let a : BitVec 32 := c.sreg (fRs1 w)
     let b : BitVec 32 := opB c w
     let d : BitVec 32 := c.sreg (fRd w)
     let rdOf (u : Use) (v : BitVec 32) (inv : Bool) (t : State) : Prop := OnlyCore s t cl p
       (moved { (entered s.toChip cl p u).setS (fRd w) v with astat := c.astat ||| (if inv then 1#64 else 0#64) } 1 u)
     let rd := rdOf (aluUse 4 w (s.cl cl) c)
     Runs cl p (.fadd cl p w) s (rd (fpAdd a b).1 (fpAdd a b).2.1) ∧
     Runs cl p (.fsub cl p w) s (rd (fpAdd a (b ^^^ 0x80000000#32)).1 (fpAdd a (b ^^^ 0x80000000#32)).2.1) ∧
     Runs cl p (.fmul cl p w) s (rd (fpMul a b).1 (fpMul a b).2.1) ∧
     Runs cl p (.ffma cl p w) s (rdOf (fmaUse w (s.cl cl) c) (fpFma a b d).1 (fpFma a b d).2.1) ∧
     Runs cl p (.fmin cl p w) s (rd (fpMin a b) false) ∧
     Runs cl p (.fmax cl p w) s (rd (fpMax a b) false)) ∧
  (∀ (s : State) (cl p : Nat) (w : BitVec 56), Issues s.toChip cl p → Follows (fetched s.toChip cl p) →
     let c := fetched s.toChip cl p
     let imm : BitVec 32 := BitVec.ofNat 32 w.toNat
     let res (u : Use) (f : Core → Core) (t : State) : Prop :=
       OnlyCore s t cl p (moved (f (entered s.toChip cl p u)) 1 u)
     let reads (l : List Lock) : Use := regUse l (s.cl cl) c
     (reservedOk { rd := true, imm := true } w = true →
       Runs cl p (.li cl p w) s (res {} fun e => e.setS (fRd w) imm)) ∧
     (reservedOk { ar := true, b := true } w = true →
       Runs cl p (.aadd cl p w) s (res (reads (.a (fAr w) :: useB w))
         fun e => e.setA (fAr w) (c.areg (fAr w) + opB c w))) ∧
     (reservedOk { ar := true, rs1 := true } w = true →
       Runs cl p (.amovSa cl p w) s (res (reads [.s (fRs1 w)]) fun e => e.setA (fAr w) (c.sreg (fRs1 w)))) ∧
     (reservedOk { ar := true, rd := true } w = true →
       Runs cl p (.amovAs cl p w) s (res (reads [.a (fAr w)]) fun e => e.setS (fRd w) (c.areg (fAr w)))) ∧
     (reservedOk { ar := true, imm := true } w = true →
       Runs cl p (.ali cl p w) s (res {} fun e => e.setA (fAr w) imm)) ∧
     (reservedOk { rd := true, rs1 := true } w = true →
       Runs cl p (.f2i cl p w) s (res (cvtUse w (s.cl cl) c) fun e =>
         { e.setS (fRd w) (BitVec.ofNat 32 (encodeInt 32 (fpDecode (c.sreg (fRs1 w)))).1) with
           astat := c.astat ||| (encodeInt 32 (fpDecode (c.sreg (fRs1 w)))).2.astat }) ∧
       Runs cl p (.i2f cl p w) s (res (cvtUse w (s.cl cl) c) fun e =>
         e.setS (fRd w) (fpRound (XNum.ofInt (c.sreg (fRs1 w)).toInt)).1)))

/-- LD.B, LD.H and LD.W from local memory: RD receives the bytes read, zero-extended, little-endian; with POSTINC
the address is AR itself and AR advances by IMM. Nothing is stored. ST.B, ST.H and ST.W to local memory: the low
bytes of RD are stored little-endian at the address, every other byte of local memory is as it was, and so is
everything else but AR under POSTINC. A load or store of a word through an ACCESS store port reaches the cluster
store: the load reads its bytes and the store writes them; every other byte of the store is as it was. -/
def Obligations.LoadAndStoreResults : Prop :=
  (∀ (s : State) (cl p : Nat) (w : BitVec 56), Issues s.toChip cl p → Follows (fetched s.toChip cl p) →
     reservedOk { rd := true, ar := true, post := true, imm := true } w = true →
     (s.core cl p).lmErr = [] → (s.core cl p).qops = [] →
     let c := s.core cl p
     let a := memAddr c w
     let c1 (u : Use) : Core :=
       let e := entered s.toChip cl p u
       if fPost w = 1 then e.setA (fAr w) (c.areg (fAr w) + imm32 w) else e
     let byte (i : Nat) : Nat := (Memory.readByte c.lm (a + i)).toNat
     let rd (n v : Nat) (t : State) : Prop :=
       let u := loadUse p n w (s.cl cl) c
       OnlyCore s t cl p (moved ((c1 u).setS (fRd w) (BitVec.ofNat 32 v)) 1 u)
     (a + 1 ≤ 0xC000 → Runs cl p (.ldB cl p w) s (rd 1 (byte 0))) ∧
     (a + 2 ≤ 0xC000 → Runs cl p (.ldH cl p w) s (rd 2 (byte 0 + 256 * byte 1))) ∧
     (a + 4 ≤ 0xC000 →
       Runs cl p (.ldW cl p w) s (rd 4 (byte 0 + 256 * byte 1 + 65536 * byte 2 + 16777216 * byte 3)))) ∧
  (∀ (s : State) (cl p : Nat) (w : BitVec 56), Issues s.toChip cl p → Follows (fetched s.toChip cl p) →
     reservedOk { rd := true, ar := true, post := true, imm := true } w = true →
     (s.core cl p).lmErr = [] → (s.core cl p).qops = [] →
     let c := s.core cl p
     let a := memAddr c w
     let c1 (u : Use) : Core :=
       let e := entered s.toChip cl p u
       if fPost w = 1 then e.setA (fAr w) (c.areg (fAr w) + imm32 w) else e
     let stored (n : Nat) (t : State) : Prop :=
       (∀ i, i < n → Memory.readByte (t.core cl p).lm (a + i) = BitVec.ofNat 8 ((c.sreg (fRd w)).toNat / 256 ^ i)) ∧
       (∀ b, b < a ∨ a + n ≤ b → Memory.readByte (t.core cl p).lm b = Memory.readByte c.lm b) ∧
       let u := storeUse n w (s.cl cl) c
       OnlyCore s t cl p { moved (c1 u) 1 u with lm := (t.core cl p).lm }
     (a + 1 ≤ 0xC000 → Runs cl p (.stB cl p w) s (stored 1)) ∧
     (a + 2 ≤ 0xC000 → Runs cl p (.stH cl p w) s (stored 2)) ∧
     (a + 4 ≤ 0xC000 → Runs cl p (.stW cl p w) s (stored 4))) ∧
  (∀ (s : State) (cl p : Nat) (w : BitVec 56), Issues s.toChip cl p → Follows (fetched s.toChip cl p) →
     reservedOk { rd := true, ar := true, post := true, imm := true } w = true →
     (s.core cl p).lmErr = [] → (s.cl cl).storeErr = [] → (s.core cl p).qops = [] → ((s.cl cl).portOf p).isSome = true →
     let c := s.core cl p
     let a := memAddr c w
     let o := a - 0x1000000
     0x1000000 ≤ a → a + 4 ≤ 0x1C00000 →
     Runs cl p (.ldW cl p w) s (fun t =>
       (t.core cl p).sreg (fRd w) = (if fRd w = 0 then 0#32 else BitVec.ofNat 32 (Memory.readNat (s.cl cl).store o 4)) ∧
       (t.cl cl).store = (s.cl cl).store ∧ (t.core cl p).lm = c.lm ∧ OtherClusters s t cl) ∧
     Runs cl p (.stW cl p w) s (fun t =>
       Memory.read (t.cl cl).store o 4 = leBytes 4 (c.sreg (fRd w)).toNat ∧
       (∀ b, b < o ∨ o + 4 ≤ b → Memory.readByte (t.cl cl).store b = Memory.readByte (s.cl cl).store b) ∧
       (t.core cl p).lm = c.lm ∧ OtherClusters s t cl))

/-- J, JR and the branches: where they go, what they leave. A branch not taken goes on in sequence in one cycle, a
taken one in two. LOOP opens a level of RS1 passes over the instructions from PC + 8 to PC + IMM, a count of 0 skips
them, and the end of the body returns to its first instruction while passes remain. -/
def Obligations.ControlFlowResults : Prop :=
  (∀ (s : State) (cl p : Nat) (w : BitVec 56), Issues s.toChip cl p →
     let c := fetched s.toChip cl p
     let target : Int := c.pc.toNat + (BitVec.ofNat 32 w.toNat).toInt
     let a := c.sreg (fRs1 w)
     let b := c.sreg (fRs2 w)
     let e (l : List Lock) : Core := entered s.toChip cl p (regUse l (s.cl cl) c)
     let e2 := e [.s (fRs1 w), .s (fRs2 w)]
     let branch (i : Instr) (taken : Bool) : Prop :=
       if taken then 0 ≤ target → target ≤ 0xBFF8 → Runs cl p i s fun t => OnlyCore s t cl p (jumped e2 2 target.toNat)
       else Follows c → Runs cl p i s fun t => OnlyCore s t cl p (moved e2 1)
     (reservedOk { imm := true } w = true → w.toNat % 8 = 0 → 0 ≤ target → target ≤ 0xBFF8 →
       Runs cl p (.j cl p w) s fun t => OnlyCore s t cl p (jumped (e []) 1 target.toNat)) ∧
     (reservedOk { rs1 := true, imm := true } w = true →
       (a + BitVec.ofNat 32 w.toNat).toNat % 8 = 0 → (a + BitVec.ofNat 32 w.toNat).toNat ≤ 0xBFF8 →
       Runs cl p (.jr cl p w) s fun t => OnlyCore s t cl p (jumped (e [.s (fRs1 w)]) 2 (a + BitVec.ofNat 32 w.toNat).toNat)) ∧
     (reservedOk { rs1 := true, rs2 := true, imm := true } w = true → w.toNat % 8 = 0 →
       branch (.beq cl p w) (a = b) ∧ branch (.bne cl p w) (a ≠ b) ∧
       branch (.blt cl p w) (a.toInt < b.toInt) ∧ branch (.bge cl p w) (b.toInt ≤ a.toInt))) ∧
  ((∀ (s : State) (cl p : Nat) (w : BitVec 56), Issues s.toChip cl p →
     reservedOk { rs1 := true, imm := true } w = true → w.toNat % 8 = 0 →
     let c := fetched s.toChip cl p
     let imm : Int := (BitVec.ofNat 32 w.toNat).toInt
     let n := (c.sreg (fRs1 w)).toNat
     let e := entered s.toChip cl p (regUse [.s (fRs1 w)] (s.cl cl) c)
     8 ≤ imm → c.loops.length < 2 →
     (n ≠ 0 → c.pc.toNat + 8 ≤ 0xBFF8 → Runs cl p (.loop cl p w) s fun t => OnlyCore s t cl p
       { jumped e 1 (c.pc.toNat + 8) with
         loops := { start := c.pc.toNat + 8, last := c.pc.toNat + imm.toNat, remaining := n - 1 } :: c.loops }) ∧
     (n = 0 → (loopNext c.loops (c.pc.toNat + imm.toNat)).2 ≤ 0xBFF8 → Runs cl p (.loop cl p w) s fun t =>
       OnlyCore s t cl p { jumped e 1 (loopNext c.loops (c.pc.toNat + imm.toNat)).2 with
         loops := (loopNext c.loops (c.pc.toNat + imm.toNat)).1 })) ∧
   (∀ (l : LoopLevel) (ls : List LoopLevel) (k : Nat), l.remaining = k + 1 →
     loopNext (l :: ls) l.last = ({ l with remaining := k } :: ls, l.start)))

/-- STOP: the core stops with DONE and its PC on the next instruction, once its queue instructions have completed;
no fault is raised. CLASS and OP of the word at the PC choose the instruction: the command of another instruction
changes nothing, and a word whose CLASS or OP is unlisted stops the core with ILLEGAL. An encoding with a reserved bit that is not 0 stops the core with ILLEGAL: the instruction takes
no effect, the PC stays on it, and the cluster's CORE_STOP bit is set. A command that is not well-formed and names a
cluster or a core the engine does not have stops with `noSuchUnit`, for the core instructions of classes 0x0 to 0x4.
-/
def Obligations.CoreStops : Prop :=
  (∀ (s : State) (cl p : Nat), Issues s.toChip cl p → (s.core cl p).qops = [] → (s.core cl p).backlog = [] →
     Runs cl p (.stop cl p 0#56) s fun t =>
       (t.core cl p).run = .stopped ∧ (t.core cl p).cause = .done ∧
       (t.core cl p).pc = (s.core cl p).pc + 8#16 ∧ (t.core cl p).occ = 0 ∧
       (t.core cl p).s = (s.core cl p).s ∧ (t.core cl p).a = (s.core cl p).a ∧ (t.core cl p).lm = (s.core cl p).lm ∧
       (∀ q, q ≠ p → t.core cl q = s.core cl q) ∧ OthersKept s t cl) ∧
  (∀ (s : State) (cl p : Nat) (w : BitVec 56), Issues s.toChip cl p → ibits w 32 4 ≠ 0 →
     ∀ i ∈ [Instr.add cl p w, .li cl p w, .fadd cl p w, .ldW cl p w, .stW cl p w, .aadd cl p w, .j cl p w,
       .beq cl p w, .loop cl p w, .stop cl p w, .nop cl p w],
       Runs cl p i s fun t =>
         (t.core cl p).run = .stopped ∧ (t.core cl p).cause = .illegal ∧ (t.core cl p).pc = (s.core cl p).pc ∧
         (t.core cl p).s = (s.core cl p).s ∧ (t.core cl p).a = (s.core cl p).a ∧ (t.core cl p).lm = (s.core cl p).lm ∧
         bit (t.cl cl).page.fault 0 = true ∧ (∀ q, q ≠ p → t.core cl q = s.core cl q) ∧ OtherClusters s t cl) ∧
  (∀ (s : State) (cl p : Nat) (w : BitVec 56), Issues s.toChip cl p →
     ∀ i ∈ [Instr.add cl p w, .mul cl p w, .fadd cl p w, .ldW cl p w, .stW cl p w, .aadd cl p w, .j cl p w, .stop cl p w,
       .accClr cl p w, .cvtLm cl p w, .qsend cl p w, .qpopS cl p w, .fset cl p w, .fclr cl p w, .vfset cl p w, .nop cl p w],
       (∀ j, Fetches s.toChip cl p j → j ≠ i → exec i s = .next s) ∧
       (decodeCore cl p (s.core cl p).word = none → Completes i s fun t =>
         (t.core cl p).run = .stopped ∧ (t.core cl p).cause = .illegal ∧ (t.core cl p).pc = (s.core cl p).pc ∧
         (t.core cl p).s = (s.core cl p).s ∧ (t.core cl p).a = (s.core cl p).a ∧ (t.core cl p).lm = (s.core cl p).lm ∧
         bit (t.cl cl).page.fault 0 = true ∧ (∀ q, q ≠ p → t.core cl q = s.core cl q) ∧ OtherClusters s t cl)) ∧
  (∀ (s : State) (cl p : Nat) (w : BitVec 56), ¬ (cl < 4032 ∧ p < 136) →
     ∀ i ∈ [Instr.add cl p w, .li cl p w, .fadd cl p w, .i2f cl p w, .ldW cl p w, .stW cl p w, .aadd cl p w,
       .ali cl p w, .j cl p w, .beq cl p w, .loop cl p w, .stop cl p w],
       exec i s = .fault .noSuchUnit)

/-- TMUL.ACC and TMUL.ZERO with operand B in local memory: entry ACC_BASE + m N + n receives the blocks of row m of A
and column n of B in ascending order, from its own value or from zero; every other entry, and local memory, is as it
was. With operand B in an input queue the instruction stays in progress, with its operand A, and no entry changes;
TENSOR_INSTRUCTION_END, once the items of B are there, gives the entries the same values from the items' bytes, in
which the elements beyond K are zeros, and frees the items' queue entries. A tensor instruction whose start is a rise in a bay that is not armed is held: the
core waits, its arming starts, a HINTMISS window opens and the rise is counted; no entry changes. -/
def Obligations.TensorResults : Prop :=
  (∀ (s : State) (cl p : Nat) (w : BitVec 56), Issues s.toChip cl p → Follows (fetched s.toChip cl p) →
     riseGate cl s.toChip = false →
     (s.core cl p).lmErr = [] → (s.core cl p).accErr = [] → (s.core cl p).qops = [] →
     let c := s.core cl p
     let f := tFields w
     let k := (c.sreg f.kreg).toNat
     let aa := (c.areg f.areg).toNat
     let ba := (c.areg f.bidx).toNat
     let an := f.m * f.kb k * pairBlock f.fa
     let bn := f.n * f.kb k * pairBlock f.fb
     ibits w 0 13 = 0 → pairRate f.fa f.fb ≠ none → 1 ≤ k → k ≤ 16384 → f.base + f.m * f.n ≤ 2048 → aa + an ≤ 0xC000 →
     let result (b : List Byte) (from0 : Bool) (t : State) : Prop :=
       (∀ i, i < f.m * f.n → (t.core cl p).accAt (f.base + i) =
         (dotEntry f.fa f.fb (f.kb k) f.n (i / f.n) (i % f.n) none (Memory.read c.lm aa an) b
           (if from0 then 0#32 else c.accAt (f.base + i))).1) ∧
       (∀ e, e < f.base ∨ f.base + f.m * f.n ≤ e → (t.core cl p).accAt e = c.accAt e) ∧
       (t.core cl p).lm = c.lm ∧ (t.core cl p).s = c.s ∧ (t.core cl p).a = c.a ∧
       ∀ j, j ≠ cl → t.cl j = s.cl j
     (f.bsrc = 1 → ba + bn ≤ 0xC000 →
       Runs cl p (.tmulAcc cl p w) s (result (Memory.read c.lm ba bn) false) ∧
       Runs cl p (.tmulZero cl p w) s (result (Memory.read c.lm ba bn) true)) ∧
     (f.bsrc = 0 → f.bidx < 4 →
       let started (zero : Bool) (t : State) : Prop :=
         (t.core cl p).qops = [.tmul { queue := f.bidx, word := w, zero, k, addr := aa, a := Memory.read c.lm aa an }] ∧
         (∀ e, (t.core cl p).accAt e = c.accAt e) ∧ (t.core cl p).lm = c.lm ∧ (t.core cl p).s = c.s ∧
         (t.core cl p).a = c.a ∧ (∀ q, (t.cl cl).weave.iq q = (s.cl cl).weave.iq q) ∧ ∀ j, j ≠ cl → t.cl j = s.cl j
       Runs cl p (.tmulAcc cl p w) s (started false) ∧ Runs cl p (.tmulZero cl p w) s (started true))) ∧
  (∀ (s : State) (cl p : Nat) (j : TensorJob), cl < 4032 → p < 136 →
     s.bayRuns (clBay cl) = true → (s.core cl p).run = .running → s.coreHeld cl = false → (s.core cl p).occ = 0 →
     (s.core cl p).qops = [.tmul j] → j.cyc = 0 → j.got = [] → 1 ≤ j.k → pairRate j.f.fa j.f.fb ≠ none →
     let c := s.core cl p
     let f := j.f
     let qa := (s.cl cl).coreQueue p j.queue
     let items := (s.cl cl).weave.iq qa
     j.items ≤ items.length → (∀ i ∈ items, i.bad = false) →
     Completes (.tensorInstructionEnd cl p) s fun t =>
       (∀ i, i < f.m * f.n → (t.core cl p).accAt (f.base + i) =
         (dotEntry f.fa f.fb (f.kb j.k) f.n (i / f.n) (i % f.n) (some j.k) j.a
           ((items.take j.items).flatMap Item.bytes) (if j.zero then 0#32 else c.accAt (f.base + i))).1) ∧
       (∀ e, e < f.base ∨ f.base + f.m * f.n ≤ e → (t.core cl p).accAt e = c.accAt e) ∧
       (t.cl cl).weave.iq qa = items.drop j.items ∧ (t.core cl p).qops = [] ∧
       (t.core cl p).work = c.work + BitVec.ofNat 64 (j.lead + f.occ j.k) ∧
       (t.core cl p).lm = c.lm ∧ (t.core cl p).s = c.s ∧ (t.core cl p).a = c.a ∧ (t.core cl p).pc = c.pc ∧
       OtherClusters s t cl) ∧
  (∀ (s : State) (cl p : Nat) (w : BitVec 56), Issues s.toChip cl p → riseGate cl s.toChip = true →
     (s.core cl p).lmErr = [] → (s.core cl p).accErr = [] → (s.core cl p).qops = [] →
     let c := s.core cl p
     let f := tFields w
     let k := (c.sreg f.kreg).toNat
     ibits w 0 13 = 0 → pairRate f.fa f.fb ≠ none → 1 ≤ k → k ≤ 16384 → f.base + f.m * f.n ≤ 2048 →
     (c.areg f.areg).toNat + f.m * f.kb k * pairBlock f.fa ≤ 0xC000 →
     (f.bsrc = 1 → (c.areg f.bidx).toNat + f.n * f.kb k * pairBlock f.fb ≤ 0xC000) → (f.bsrc = 0 → f.bidx < 4) →
     ∀ i ∈ [Instr.tmulAcc cl p w, .tmulZero cl p w], Runs cl p i s fun t =>
       (t.core cl p).wait = .rise ∧ (t.core cl p).acc = c.acc ∧ (t.core cl p).pc = c.pc ∧
       (t.bay (clBay cl)).arming = true ∧
       (s.clTint cl ≠ 0 → (t.gable (s.clTint cl)).windows =
         (s.gable (s.clTint cl)).windows ++ [⟨.hintmiss, s.now, none⟩]))

/-- The accumulator instructions: ACC.CLR zeroes n entries, ACC.LD takes n words from local memory, ACC.ST stores n
entries there; every other entry and byte is as it was. Each waits for the multiplier and occupies it. CVT.ACC and
CVT.LM, rounding to nearest: the destination bytes in local memory are the conversions of the n values, every other
byte is as it was, and the stochastic generator does not advance. -/
def Obligations.AccumulatorAndConversionResults : Prop :=
  (∀ (s : State) (cl p : Nat) (w : BitVec 56), Issues s.toChip cl p → Follows (fetched s.toChip cl p) →
     (s.core cl p).lmErr = [] → (s.core cl p).accErr = [] → (s.core cl p).qops = [] →
     let c := s.core cl p
     let n := aCount c w
     let a := (c.areg (aAreg w)).toNat
     accRange c w = true →
     (accReserved w false false false = true → Runs cl p (.accClr cl p w) s fun t =>
       (∀ e, (t.core cl p).accAt e = if aBase w ≤ e ∧ e < aBase w + n then 0#32 else c.accAt e) ∧
       (t.core cl p).occ = ceilDiv n 32 - 1 ∧ OnlyCore s t cl p (t.core cl p)) ∧
     (accReserved w true false false = true → a % 4 = 0 → a + 4 * n ≤ 0xC000 →
       (Runs cl p (.accLd cl p w) s fun t =>
         (∀ i, i < n → (t.core cl p).accAt (aBase w + i) = BitVec.ofNat 32 (Memory.readNat c.lm (a + 4 * i) 4)) ∧
         (∀ e, e < aBase w ∨ aBase w + n ≤ e → (t.core cl p).accAt e = c.accAt e) ∧
         (t.core cl p).lm = c.lm ∧ OnlyCore s t cl p (t.core cl p)) ∧
       (Runs cl p (.accSt cl p w) s fun t =>
         (∀ i, i < n → Memory.read (t.core cl p).lm (a + 4 * i) 4 = leBytes 4 (c.accAt (aBase w + i)).toNat) ∧
         (∀ b, b < a ∨ a + 4 * n ≤ b → Memory.readByte (t.core cl p).lm b = Memory.readByte c.lm b) ∧
         (t.core cl p).acc = c.acc ∧ OnlyCore s t cl p (t.core cl p)))) ∧
  (∀ (s : State) (cl p : Nat) (w : BitVec 56), Issues s.toChip cl p → Follows (fetched s.toChip cl p) →
     (s.core cl p).lmErr = [] → (s.core cl p).accErr = [] → (s.core cl p).qops = [] →
     let c := s.core cl p
     let written (a : Nat) (bs : List Byte) (t : State) : Prop :=
       Memory.read (t.core cl p).lm a bs.length = bs ∧
       (∀ b, b < a ∨ a + bs.length ≤ b → Memory.readByte (t.core cl p).lm b = Memory.readByte c.lm b) ∧
       (t.core cl p).srCtr = c.srCtr ∧ (t.core cl p).acc = c.acc ∧ OnlyCore s t cl p (t.core cl p)
     (let a := (c.areg (aAreg w)).toNat
      let n := aCount c w
      let df := ibits w 32 4
      accReserved w true false true = true → ibits w 30 1 = 0 → accRange c w = true → a % 4 = 0 → n % countUnit df = 0 →
       let bs := (runEncode df c.satFp8 false [] ((List.range n).map fun i =>
         if ibits w 31 1 = 1 then XNum.ofInt (c.accAt (aBase w + i)).toInt else fpDecode (c.accAt (aBase w + i)))).1
       a + runBytes df n ≤ 0xC000 → a + bs.length ≤ 0xC000 → Runs cl p (.cvtAcc cl p w) s (written a bs)) ∧
     (let sf := ibits w 52 4
      let df := ibits w 48 4
      let src := (c.areg (ibits w 45 3)).toNat
      let dst := (c.areg (ibits w 42 3)).toNat
      let n := (c.sreg (ibits w 37 5)).toNat
      ibits w 0 37 = 0 → countOk sf df n = true →
       let bs := (runEncode df c.satFp8 false [] (runValues sf n (Memory.read c.lm src (runBytes sf n))).1).1
       src + runBytes sf n ≤ 0xC000 → dst + runBytes df n ≤ 0xC000 → dst + bs.length ≤ 0xC000 →
       Runs cl p (.cvtLm cl p w) s (written dst bs)))

/-- ACC.SEND, QSEND and QPUSH.S hand their items to the core's output queue while it has room; the items of ACC.SEND
carry no LAST. Every other queue, and local memory, is as it was. QRECV of n items that have arrived fills n × 64
bytes of local memory and frees n entries of its input queue; QPOP.S takes one item and its first word. -/
def Obligations.CoreQueueTransfers : Prop :=
  (∀ (s : State) (cl p : Nat) (w : BitVec 56), Issues s.toChip cl p → Follows (fetched s.toChip cl p) →
     (s.core cl p).lmErr = [] → (s.core cl p).accErr = [] → (s.core cl p).qops = [] → (s.core cl p).backlog = [] →
     let c := s.core cl p
     let x := s.cl cl
     let sent (q : Nat) (items : List Item) (t : State) : Prop :=
       (t.cl cl).weave.oq (x.coreQueue p q) = x.weave.oq (x.coreQueue p q) ++ items ∧
       (∀ qa, qa ≠ x.coreQueue p q → (t.cl cl).weave.oq qa = x.weave.oq qa) ∧
       (t.core cl p).lm = c.lm ∧ (t.core cl p).acc = c.acc ∧ (t.core cl p).s = c.s ∧
       OtherClusters s t cl
     (accReserved w false true false = true → accRange c w = true →
       let q := ibits w 36 1
       let items := itemsOf ((List.range (aCount c w)).flatMap fun i => leBytes 4 (c.accAt (aBase w + i)).toNat)
       (x.weave.oq (x.coreQueue p q)).length + items.length ≤ 8 →
         Runs cl p (.accSend cl p w) s (sent q items)) ∧
     (queueReserved w false true true true = true → qNum w < 2 → qAddr c w + 64 * qCount c w ≤ 0xC000 →
       (x.weave.oq (x.coreQueue p (qNum w))).length + qCount c w ≤ 8 →
       Runs cl p (.qsend cl p w) s (sent (qNum w)
         (markLast (qLast w) (itemsOf (Memory.read c.lm (qAddr c w) (64 * qCount c w)))))) ∧
     (queueReserved w true false false true = true → qNum w < 2 →
       (x.weave.oq (x.coreQueue p (qNum w))).length < 8 →
       Runs cl p (.qpushS cl p w) s (sent (qNum w)
         [{ data := (c.sreg (qReg w)).setWidth 512, last := qLast w }]))) ∧
  (∀ (s : State) (cl p : Nat) (w : BitVec 56), Issues s.toChip cl p → Follows (fetched s.toChip cl p) →
     (s.core cl p).lmErr = [] → (s.core cl p).qops = [] →
     let c := s.core cl p
     let qa := (s.cl cl).coreQueue p (qNum w)
     let items := (s.cl cl).weave.iq qa
     (queueReserved w false true true false = true → qAddr c w + 64 * qCount c w ≤ 0xC000 →
       qCount c w ≤ items.length → (∀ i ∈ items.take (qCount c w), i.bad = false) → Runs cl p (.qrecv cl p w) s fun t =>
         Memory.read (t.core cl p).lm (qAddr c w) (64 * qCount c w) = (items.take (qCount c w)).flatMap Item.bytes ∧
         (∀ b, b < qAddr c w ∨ qAddr c w + 64 * qCount c w ≤ b →
           Memory.readByte (t.core cl p).lm b = Memory.readByte c.lm b) ∧
         (t.cl cl).weave.iq qa = items.drop (qCount c w) ∧ (t.core cl p).qops = [] ∧
         OtherClusters s t cl) ∧
     (queueReserved w true false false false = true → ∀ i is, items = i :: is → i.bad = false →
       Runs cl p (.qpopS cl p w) s fun t =>
         t.core cl p = moved ((entered s.toChip cl p).setS (qReg w) (i.data.setWidth 32)) 1 ∧ (t.cl cl).weave.iq qa = is ∧
         OtherClusters s t cl))

/-- A set and a clear of a flag change its state and count, and lose nothing but what FLAG_OVERRUN and FLAG_UNDERRUN
record. -/
def Obligations.FlagSetAndClear : Prop :=
  ∀ (c : Core) (f : Nat),
    ((c.flag f).isSet = false → (c.applySet f).flag f = { isSet := true, count := 0 } ∧ (c.applySet f).fstat = c.fstat) ∧
    ((c.flag f).isSet = true → (c.flag f).count < 15 →
      (c.applySet f).flag f = { isSet := true, count := (c.flag f).count + 1 } ∧ (c.applySet f).fstat = c.fstat) ∧
    ((c.flag f).isSet = true → (c.flag f).count = 15 →
      (c.applySet f).flag f = { isSet := true, count := 15 } ∧ bit (c.applySet f).fstat 0 = true) ∧
    ((c.flag f).isSet = true → (c.flag f).count > 0 →
      (c.applyClear f).flag f = { isSet := true, count := (c.flag f).count - 1 } ∧ (c.applyClear f).fstat = c.fstat) ∧
    ((c.flag f).isSet = true → (c.flag f).count = 0 → ((c.applyClear f).flag f).isSet = false ∧
      (c.applyClear f).fstat = c.fstat) ∧
    ((c.flag f).isSet = false → ((c.applyClear f).flag f).isSet = false ∧ bit (c.applyClear f).fstat 1 = true) ∧
    ∀ g, g ≠ f → (c.applySet f).flag g = c.flag g ∧ (c.applyClear f).flag g = c.flag g

/-- FSET hands its set to the cluster's flag unit, for a core's flag or for a doorbell, of which it ignores the flag
number; FCLR clears the core's own flag; FTEST reads it; FWAIT and FWAITC go on at once on a set flag, FWAITC with one
clear, and otherwise leave the core waiting at the instruction, its issue cycle behind it. -/
def Obligations.NativeFlagInstructions : Prop :=
  ∀ (s : State) (cl p : Nat) (w : BitVec 56), Issues s.toChip cl p → Follows (fetched s.toChip cl p) →
    let c := fetched s.toChip cl p
    let e := entered s.toChip cl p
    let f := fFlag w
    let sets (g : SetTarget) : Prop := Runs cl p (.fset cl p w) s fun t =>
      (t.cl cl).sets = (s.cl cl).sets ++ [⟨.core (((s.cl cl).logical p).getD 128), g⟩] ∧
      t.core cl p = moved e 1 ∧ OtherClusters s t cl
    (flagReserved w true false = true → fTarget w < 0x80 → f < 48 → sets (.flag (64 * fTarget w + f))) ∧
    (flagReserved w true false = true → 0x80 ≤ fTarget w → fTarget w ≤ 0x8A → sets (.doorbell (fTarget w))) ∧
    (f < 48 →
    (flagReserved w false false = true →
      (Runs cl p (.fclr cl p w) s fun t =>
        t.core cl p = moved (e.applyClear f) 1 ∧ OtherClusters s t cl) ∧
      ((c.flag f).isSet = true →
        (Runs cl p (.fwait cl p w) s fun t => OnlyCore s t cl p (moved e 1)) ∧
        (Runs cl p (.fwaitc cl p w) s fun t => OnlyCore s t cl p (moved (e.applyClear f) 1))) ∧
      ((c.flag f).isSet = false →
        (Runs cl p (.fwait cl p w) s fun t => OnlyCore s t cl p { c.workCycles 1 with wait := .flag f false }) ∧
        (Runs cl p (.fwaitc cl p w) s fun t => OnlyCore s t cl p { c.workCycles 1 with wait := .flag f true }))) ∧
    (flagReserved w false true = true → Runs cl p (.ftest cl p w) s fun t => OnlyCore s t cl p
      (moved (e.setS (fRd w) (BitVec.ofNat 32 (if (c.flag f).isSet then 1 + 2 * (c.flag f).count else 0))) 1)))

/-- The virtual-flag instructions act on the native flag of the entry that the virtual ID names, in O2 mode, and
take 3 issue cycles whether they wait or not; an ID without a valid entry, or for VFCLR, VFWAIT and VFWAITC one of
another core's flag, stops the core with VFLAG_MISS, and no flag changes. -/
def Obligations.VirtualFlagInstructions : Prop :=
  ∀ (s : State) (cl p : Nat) (w : BitVec 56), Issues s.toChip cl p → Follows (fetched s.toChip cl p) →
    let c := fetched s.toChip cl p
    let e := entered s.toChip cl p
    let x := s.cl cl
    let misses (i : Instr) : Prop := Runs cl p i s fun t =>
      (t.core cl p).run = .stopped ∧ (t.core cl p).cause = .vflagMiss ∧ (t.core cl p).pc = c.pc ∧
      (∀ g, (t.core cl p).flag g = c.flag g) ∧ (t.cl cl).sets = x.sets
    c.o2 = true → ibits w 12 44 = 0 →
    (x.vflag (ibits w 0 12) = none →
      misses (.vfset cl p w) ∧ misses (.vfclr cl p w) ∧ misses (.vfwait cl p w) ∧ misses (.vfwaitc cl p w)) ∧
    ∀ own f, x.vflag (ibits w 0 12) = some (own, f) →
      (Runs cl p (.vfset cl p w) s fun t =>
        (t.cl cl).sets = x.sets ++ [⟨.core ((x.logical p).getD 128), .flag (64 * own + f)⟩] ∧
        t.core cl p = moved e 3 ∧ OtherClusters s t cl) ∧
      (x.logical p = some own →
        (Runs cl p (.vfclr cl p w) s fun t =>
          t.core cl p = moved (e.applyClear f) 3 ∧ OtherClusters s t cl) ∧
        ((c.flag f).isSet = true →
          (Runs cl p (.vfwait cl p w) s fun t => OnlyCore s t cl p (moved e 3)) ∧
          (Runs cl p (.vfwaitc cl p w) s fun t => OnlyCore s t cl p (moved (e.applyClear f) 3))) ∧
        ((c.flag f).isSet = false →
          (Runs cl p (.vfwait cl p w) s fun t => OnlyCore s t cl p { c.workCycles 3 with wait := .flag f false }) ∧
          (Runs cl p (.vfwaitc cl p w) s fun t => OnlyCore s t cl p { c.workCycles 3 with wait := .flag f true }))) ∧
      (x.logical p ≠ some own → misses (.vfclr cl p w) ∧ misses (.vfwait cl p w) ∧ misses (.vfwaitc cl p w))

/-- In a bay that runs its clusters, the end of a flag wait lets the core go on after its instruction, FWAITC with one clear: of the cycles waited, those
in which its multiplier was occupied are not wait cycles; NOP, HINT and ASCLR; the end of a tensor instruction's occupancy. -/
def Obligations.WaitEndAndSystemInstructions : Prop :=
  ∀ (s : State) (cl p : Nat), cl < 4032 → p < 136 →
    (∀ n f consume, (s.core cl p).wait = .flag f consume → ((s.core cl p).flag f).isSet = true →
      (s.core cl p).run = .running → s.coreHeld cl = false →
      s.bayRuns (clBay cl) = true → Follows (s.core cl p) →
      Completes (.flagWaitEnd cl p n) s fun t =>
        let c := if consume then ((s.core cl p).waited n).applyClear f else (s.core cl p).waited n
        OnlyCore s t cl p { c with
          loops := (loopNext c.loops c.pc.toNat).1, pc := BitVec.ofNat 16 (loopNext c.loops c.pc.toNat).2, wait := .none } ∧
        (t.core cl p).waitCycles = (s.core cl p).waitCycles + BitVec.ofNat 64 (n - min n (s.core cl p).occ) ∧
        (t.core cl p).flag f = if consume then ((s.core cl p).applyClear f).flag f else (s.core cl p).flag f) ∧
    ((s.core cl p).occ ≠ 0 → (s.core cl p).run = .running → s.coreHeld cl = false → s.bayRuns (clBay cl) = true →
      Completes (.tensorInstructionEnd cl p) s fun t =>
      (t.core cl p).occ = 0 ∧ (t.core cl p).work = (s.core cl p).work + BitVec.ofNat 64 (s.core cl p).occ ∧
      (t.core cl p).acc = (s.core cl p).acc) ∧
    (Issues s.toChip cl p → Follows (fetched s.toChip cl p) →
      let c := entered s.toChip cl p
      (Runs cl p (.nop cl p 0#56) s fun t => OnlyCore s t cl p (moved c 1)) ∧
      (∀ w, ibits w 8 48 = 0 → Runs cl p (.asclr cl p w) s fun t => OnlyCore s t cl p
        (moved { c with astat := c.astat &&& ~~~(BitVec.ofNat 64 (ibits w 0 8)) } 1)) ∧
      (∀ w, ibits w 16 16 = 0 → Runs cl p (.hint cl p w) s fun t =>
        t.core cl p = moved c 1 ∧
        ((s.cl cl).hints.length < 8 →
          (t.cl cl).hints = (s.cl cl).hints ++ [⟨s.clTime cl, ibits w 32 24, ibits w 0 16⟩]) ∧
        (8 ≤ (s.cl cl).hints.length →
          (t.cl cl).hints = (s.cl cl).hints.drop 1 ++ [⟨s.clTime cl, ibits w 32 24, ibits w 0 16⟩])))

/-- CL_CORE_CTRL on the selected core: RUN starts a stopped core, STOP stops a running one with cause HOST,
CORE_RESET puts its registers, memory and flags at their reset values, and its completion leaves it STOPPED; every
write sets O2_MODE to the written bit. No other cluster changes. The end of a core's reset, and the host's writes of
flags: SET and CLR act on the flag of the selected core under the same rules as the core's own instructions. The
data ports of the core window: a read of CL_CORE_LM_DATA sends the word at CL_CORE_LM_ADDR and one of
CL_CORE_ACC_DATA the entry at CL_CORE_ACC_ADDR; a write to a core that is STOPPED or HALTED stores; each access advances
the address, a register of the selected core. A write to a core that is RUNNING or RESETTING changes neither memory
nor entry. -/
def Obligations.HostCoreWindow : Prop :=
  (∀ (s : State) (cl p : Nat) (v : BitVec 64), cl < 4032 → Reaches s.toChip (.cluster cl) →
     (s.cl cl).selected = some p →
     let c := s.core cl p
     let run := bit v 0
     let stop := bit v 1
     let rst := bit v 3
     (run = true → stop = false → rst = false → c.run = .stopped → Completes (.coreRun cl v) s fun t =>
       t.core cl p = { c with run := .running, cause := .none, wait := .none, o2 := bit v 2 } ∧ OtherClusters s t cl) ∧
     (run = false → stop = true → rst = false → c.run = .running → Completes (.coreHostStop cl v) s fun t =>
       t.core cl p = { c with run := .stopped, cause := .host, wait := .none, o2 := bit v 2 } ∧
       bit (t.cl cl).page.fault 0 = true ∧ OtherClusters s t cl) ∧
     (run = false → stop = false → rst = true → Completes (.coreReset cl v) s fun t =>
       t.core cl p = { run := .resetting, ecc := c.ecc, work := c.work, waitCycles := c.waitCycles, o2 := bit v 2 } ∧
       OtherClusters s t cl) ∧
     (run = false → stop = false → rst = false → Completes (.o2ModeWrite cl v) s fun t =>
       t.core cl p = { c with o2 := bit v 2 } ∧ OtherClusters s t cl)) ∧
  ((∀ (s : State) (cl p : Nat), cl < 4032 → p < 136 → (s.core cl p).run = .resetting →
     Completes (.coreResetComplete cl p) s fun t =>
       OnlyCore s t cl p { s.core cl p with run := .stopped, cause := .none }) ∧
   (∀ (s : State) (cl p : Nat) (v : BitVec 64), cl < 4032 → Reaches s.toChip (.cluster cl) →
     (s.cl cl).selected = some p → fld v 0 6 ≤ 47 →
     (bit v 8 = true → bit v 9 = false → Completes (.coreFlagSet cl v) s fun t =>
       t.core cl p = (s.core cl p).applySet (fld v 0 6) ∧ OtherClusters s t cl) ∧
     (bit v 8 = false → bit v 9 = true → Completes (.coreFlagClr cl v) s fun t =>
       t.core cl p = (s.core cl p).applyClear (fld v 0 6) ∧ OtherClusters s t cl))) ∧
  (∀ (s : State) (cl p : Nat) (v : BitVec 64), cl < 4032 → Reaches s.toChip (.cluster cl) →
     (s.cl cl).selected = some p → (s.core cl p).lmErr = [] → (s.core cl p).accErr = [] →
     let c := s.core cl p
     let a := fld c.lmAddr 0 16 / 8 * 8
     let e := fld c.accAddr 0 11
     (a < 0xC000 →
       (Completes (.lmDataAccess cl none) s fun t =>
         t.out = s.out ++ [.readData (BitVec.ofNat 64 (Memory.readNat c.lm a 8))] ∧
         t.core cl p = { c with lmAddr := BitVec.ofNat 64 ((a + 8) % 65536) }) ∧
       (s.coreState cl c = 1 ∨ s.coreState cl c = 3 → Completes (.lmDataAccess cl (some v)) s fun t =>
         Memory.readNat (t.core cl p).lm a 8 = v.toNat ∧
         ∀ b, b < a ∨ a + 8 ≤ b → Memory.readByte (t.core cl p).lm b = Memory.readByte c.lm b) ∧
       (s.coreState cl c = 0 ∨ s.coreState cl c = 2 →
         Completes (.lmDataAccess cl (some v)) s fun t => (t.core cl p).lm = c.lm)) ∧
     (Completes (.accDataAccess cl none) s fun t =>
       t.out = s.out ++ [.readData (BitVec.ofNat 64 (c.accAt e).toNat)] ∧
       t.core cl p = { c with accAddr := BitVec.ofNat 64 ((e + 1) % 2048) }) ∧
     (s.coreState cl c = 1 ∨ s.coreState cl c = 3 → Completes (.accDataAccess cl (some v)) s fun t =>
       ∀ i, (t.core cl p).accAt i = if i = e then BitVec.ofNat 32 (fld v 0 32) else c.accAt i) ∧
     (s.coreState cl c = 0 ∨ s.coreState cl c = 2 →
       Completes (.accDataAccess cl (some v)) s fun t => (t.core cl p).acc = c.acc))

/-- CL_START: RUN starts every stopped core of the enabled map, STOP stops every running one with cause HOST; cores
outside the map are as they were. The engine halt rises with HALT_N low or DEV_HALT.HALT, holds every core, and
falls when nothing raises it; DEV_HALT.HALTED is set once the clusters have acknowledged, and clears with the halt. -/
def Obligations.ClusterStartAndHalt : Prop :=
  (∀ (s : State) (cl : Nat) (v : BitVec 64), cl < 4032 → Reaches s.toChip (.cluster cl) → (s.cl cl).mapEn = true →
     (bit v 0 = true → bit v 1 = false → Completes (.clusterStart cl v) s fun t =>
       (∀ l, l < 128 → (s.core cl ((s.cl cl).pcore l)).run = .stopped →
         (t.core cl ((s.cl cl).pcore l)).run = .running ∧ (t.core cl ((s.cl cl).pcore l)).cause = .none) ∧
       (∀ q, (∀ l, l < 128 → (s.cl cl).pcore l ≠ q) → t.core cl q = s.core cl q) ∧ OtherClusters s t cl) ∧
     (bit v 0 = false → bit v 1 = true → Completes (.clusterStop cl v) s fun t =>
       (∀ l, l < 128 → (s.core cl ((s.cl cl).pcore l)).run = .running →
         (t.core cl ((s.cl cl).pcore l)).run = .stopped ∧ (t.core cl ((s.cl cl).pcore l)).cause = .host) ∧
       (∀ q, (∀ l, l < 128 → (s.cl cl).pcore l ≠ q) → t.core cl q = s.core cl q) ∧ OtherClusters s t cl)) ∧
  (∀ s : State,
     (Completes .haltNFall s fun t => t.halting = true ∧ t.module.haltN = false ∧
       ∀ cl, t.coreHeld cl = true ∧ ∀ p, t.core cl p = s.core cl p) ∧
     (Completes .haltNRise s fun t => t.module.haltN = true ∧
       t.halting = (s.module.haltReg || s.module.fatalHalt || s.module.tapTakes) ∧
       (s.halting = true → t.halting = false → t.module.haltedBit = false) ∧ ∀ cl p, t.core cl p = s.core cl p) ∧
     (Reaches s.toChip .dev → s.module.standby = true →
       (Completes .devHaltSet s fun t => t.halting = true ∧ t.module.haltReg = true) ∧
       (Completes .devHaltClear s fun t => t.module.haltReg = false ∧ t.module.fatalHalt = false ∧
         t.halting = (!s.module.haltN || s.module.tapTakes))) ∧
     (s.halting = true → s.module.haltedBit = false → s.module.standby = true → Completes .haltedSet s fun t =>
       t.module.haltedBit = true ∧ t.reg .dev Off.DEV_HALT_TIME = s.now))

/-- WV_CTX_CMD: ARM of a context that is not the active one starts its check, INVALIDATE makes it invalid, SWITCH of
an idle weave makes a valid context active; an ARM or INVALIDATE of the active context, unfrozen, is refused with
0x0204. FREEZE freezes the weave. WV_CTX_DATA: a read sends the word of the image that WV_CTX_ADDR names, a write to
an image that is not valid stores it, one to a valid image is dropped and sets WRITE_DROP. An ended context switches
to NEXT once its streams are done, its SLACK ports empty and NEXT valid; until then the switch is pending. Queues and debts carry over. -/
def Obligations.WeaveContexts : Prop :=
  (∀ (s : State) (cl : Nat) (v : BitVec 64), cl < 4032 → Reaches s.toChip (.weave cl) →
     let w := (s.cl cl).weave
     let i := fld v 0 2
     (bit v 8 = true → bit v 9 = false → bit v 10 = false → w.active ≠ some i → Completes (.ctxArm cl v) s fun t =>
       (t.page (.weave cl)).check = some (.ctxArm i) ∧ (t.cl cl).weave = w ∧ OtherClusters s t cl) ∧
     (bit v 8 = true → bit v 9 = false → bit v 10 = false → w.active = some i → (s.page (.weave cl)).freeze = false →
       Completes (.ctxArm cl v) s fun t =>
         (t.page (.weave cl)).refused = true ∧ fld (t.page (.weave cl)).refusal 0 16 = 0x0204 ∧ (t.cl cl).weave = w) ∧
     (bit v 8 = false → bit v 9 = true → bit v 10 = false → w.active ≠ some i →
       Completes (.ctxInvalidate cl v) s fun t =>
         (t.cl cl).weave = { w with valid := w.valid.set i false } ∧ OtherClusters s t cl) ∧
     (bit v 8 = false → bit v 9 = false → bit v 10 = true → w.active = none → w.valid.getD i false = true →
       (s.page (.weave cl)).freeze = false → Completes (.ctxSwitch cl v) s fun t =>
         (t.cl cl).weave.active = some i ∧ (t.cl cl).weave.inq = w.inq ∧ (t.cl cl).weave.outq = w.outq ∧
         OtherClusters s t cl) ∧
     (Completes (.weaveFreeze cl) s fun t => (t.page (.weave cl)).freeze = true ∧ (t.cl cl).weave = w)) ∧
  (∀ (s : State) (cl : Nat) (v : BitVec 64), cl < 4032 → Reaches s.toChip (.weave cl) →
     let w := (s.cl cl).weave
     let i := fld (s.reg (.weave cl) Off.WV_CTX_ADDR) 0 2
     let n := fld (s.reg (.weave cl) Off.WV_CTX_ADDR) 8 9
     (w.imgErr = [] → Completes (.ctxDataAccess cl none) s fun t =>
       t.out = s.out ++ [.readData (BitVec.ofNat 64 (w.img i (8 * n) 8))] ∧ (t.cl cl).weave = w) ∧
     (w.valid.getD i false = false → Completes (.ctxDataAccess cl (some v)) s fun t =>
       (t.cl cl).weave.img i (8 * n) 8 = v.toNat ∧
       (∀ b, b < 4096 * i + 8 * n ∨ 4096 * i + 8 * n + 8 ≤ b →
         Memory.readByte (t.cl cl).weave.images b = Memory.readByte w.images b) ∧ OtherClusters s t cl) ∧
     (w.valid.getD i false = true → Completes (.ctxDataAccess cl (some v)) s fun t =>
       (t.cl cl).weave.images = w.images ∧ (t.cl cl).weave.writeDrop = true)) ∧
  (∀ (s : State) (cl ctx : Nat), cl < 4032 → s.weaveRuns cl = true →
     let w := (s.cl cl).weave
     w.active = some ctx → w.ended ctx = true →
     let next := w.img ctx 8 1 % 4
     ((List.range 8).all (fun sp => w.spDone ctx sp) = true → w.valid.getD next false = true →
       Completes (.contextEndSwitch cl) s fun t =>
         (t.cl cl).weave.active = some next ∧ (t.cl cl).weave.inq = w.inq ∧
         (t.cl cl).weave.outq = w.outq ∧ (t.cl cl).weave.debts = w.debts ∧ (t.cl cl).weave.streamPos = [] ∧
         OtherClusters s t cl) ∧
     (¬ ((List.range 8).all (fun sp => w.spDone ctx sp) = true ∧ w.valid.getD next false = true) →
       Completes (.contextEndSwitch cl) s fun t => t = s ∧ (t.cl cl).weave.endPending = true))

/-- The head item of an output queue of a special-function unit or a store port goes to its destination, a queue of
another such unit, once that has room: it leaves the one and is the last of the other. A full destination holds it.
A steering unit passes the item of the side its token selects and discards one item of the other side, or owes it a
discard; an SFU with one operand and equal formats turns one item into one. -/
def Obligations.WeaveItemsAndUnits : Prop :=
  (∀ (s : State) (cl ctx qa r d : Nat) (i : Item) (rest : List Item), cl < 4032 → s.weaveRuns cl = true →
     let w := (s.cl cl).weave
     w.active = some ctx → routeIndex qa = some r → w.dests ctx r = [d] → w.oq qa = i :: rest →
     512 ≤ qa → qa < 4 * 0x1C0 → 512 ≤ d → d < 4 * 0x1C0 → w.imgBad ctx = false → i.bad = false →
     ((w.iq d).length < 8 → Completes (.weaveItemSend cl qa) s fun t =>
       (t.cl cl).weave.oq qa = rest ∧ (t.cl cl).weave.iq d = w.iq d ++ [i] ∧
       (∀ q, q ≠ d → (t.cl cl).weave.iq q = w.iq q) ∧ (∀ q, q ≠ qa → (t.cl cl).weave.oq q = w.oq q) ∧
       OtherClusters s t cl) ∧
     (8 ≤ (w.iq d).length → Completes (.weaveItemSend cl qa) s fun t => t = s)) ∧
  (∀ (s : State) (cl ctx n : Nat) (tok i : Item) (ts is : List Item), cl < 4032 → s.weaveRuns cl = true →
     let w := (s.cl cl).weave
     w.active = some ctx → w.imgBad ctx = false → tok.bad = false → i.bad = false →
     (let u := 4 * (0x200 + n)
      let sel := tok.data.toNat % 2
      let other := u + 2 - sel
      let k := 2 * n + (1 - sel)
      n < 32 → w.img ctx (3168 + 4 * n) 1 = 1 → w.iq u = tok :: ts → w.iq (u + 1 + sel) = i :: is → (w.oq u).length < 8 →
      headBad (w.iq other) = false → SMap.get 0 w.debts k < 255 → Completes (.steeringFire cl n) s fun t =>
       (t.cl cl).weave.oq u = w.oq u ++ [i] ∧ (t.cl cl).weave.iq u = ts ∧ (t.cl cl).weave.iq (u + 1 + sel) = is ∧
       (w.iq other = [] → SMap.get 0 (t.cl cl).weave.debts k = SMap.get 0 w.debts k + 1) ∧
       (∀ j js, w.iq other = j :: js → (t.cl cl).weave.iq other = js ∧ (t.cl cl).weave.debts = w.debts)) ∧
     (let u := 4 * (0x100 + n)
      let o := 2592 + 8 * n
      let fmt := w.img ctx (o + 1) 1 % 16
      n < 16 → sfuTwo (w.img ctx o 1) = false → w.img ctx (o + 1) 1 / 16 = fmt → w.iq u = i :: is →
      (w.oq u).length < 8 → headBad (w.iq (u + 1)) = false → Completes (.sfuFire cl n) s fun t =>
       (t.cl cl).weave.iq u = is ∧
       (t.cl cl).weave.oq u = w.oq u ++ [{ last := i.last, data := packItem fmt ((itemValues fmt i).map fun x =>
         (sfuResult fmt (w.img ctx o 1) x (((itemValues fmt ({} : Item)).getD 0 .nan)) (fp32F.decode (w.img ctx (o + 4) 4))).1) }]))

/-- The streams of a store port move one item: READ from the cluster store to OQ0, WRITE from IQ0 to the store, and
SLACK through its region of the store in first-in first-out order. The store is otherwise as it was. A store port
serves the next core in ascending order from the one it served last, and another that asks spends a wait cycle. The
cycles that a unit waits raise its count; a count beyond BALANCE_LIMIT freezes the weave, sets its fault bit and
records the first fault. A mesh port's full packet is injected on its router. -/
def Obligations.WeavePorts : Prop :=
  (∀ (s : State) (cl ctx sp : Nat), cl < 4032 → sp < 8 → s.weaveRuns cl = true → (s.cl cl).storeErr = [] →
     let w := (s.cl cl).weave
     let qa := 4 * (0x180 + sp)
     let a := w.streamAddr ctx sp (w.pos sp)
     let fifo := SMap.get [] w.slack sp
     let room := w.slackAddr ctx sp (w.pos sp)
     let oldest := w.slackAddr ctx sp (w.pos sp - fifo.length)
     let storedAt (b : Nat) (i : Item) (t : State) : Prop :=
       Memory.read (t.cl cl).store b 64 = i.bytes ∧
       (∀ k, k < b ∨ b + 64 ≤ k → Memory.readByte (t.cl cl).store k = Memory.readByte (s.cl cl).store k)
     w.active = some ctx → w.imgBad ctx = false →
     (w.spMode ctx sp = 2 → w.pos sp < w.spTotal ctx sp → (w.oq qa).length < 8 → Completes (.readStream cl sp) s fun t =>
       (t.cl cl).weave.oq qa = w.oq qa ++ [Item.ofBytes (Memory.read (s.cl cl).store a 64)
         (w.spLastEn ctx sp && w.pos sp + 1 = w.spTotal ctx sp)] ∧
       (t.cl cl).weave.pos sp = w.pos sp + 1 ∧ (t.cl cl).store = (s.cl cl).store ∧ OtherClusters s t cl) ∧
     (w.spMode ctx sp = 3 → w.pos sp < w.spTotal ctx sp → ∀ i is, w.iq qa = i :: is → i.bad = false →
       Completes (.writeStream cl sp) s fun t =>
         storedAt a i t ∧ (t.cl cl).weave.iq qa = is ∧ (t.cl cl).weave.pos sp = w.pos sp + 1 ∧ OtherClusters s t cl) ∧
     (w.spMode ctx sp = 4 → fifo.length < w.spSlack ctx sp → ∀ i is, w.iq qa = i :: is → i.bad = false →
       Completes (.slackPass cl sp true) s fun t =>
         SMap.get [] (t.cl cl).weave.slack sp = fifo ++ [i.last] ∧ (t.cl cl).weave.iq qa = is ∧
         (t.cl cl).weave.pos sp = w.pos sp + 1 ∧ storedAt room i t ∧ OtherClusters s t cl) ∧
     (w.spMode ctx sp = 4 → (w.oq qa).length < 8 → ∀ last rest, fifo = last :: rest →
       Completes (.slackPass cl sp false) s fun t =>
         (t.cl cl).weave.oq qa = w.oq qa ++ [Item.ofBytes (Memory.read (s.cl cl).store oldest 64) last] ∧
         SMap.get [] (t.cl cl).weave.slack sp = rest ∧ (t.cl cl).store = (s.cl cl).store ∧ OtherClusters s t cl)) ∧
  (∀ (s : State) (cl ctx : Nat), cl < 4032 →
     let w := (s.cl cl).weave
     w.active = some ctx →
     (∀ sp a b, sp < 8 → s.bayRuns (clBay cl) = true → s.coreHeld cl = false → w.spMode ctx sp = 1 → a < b → b < 128 →
       w.img ctx (2720 + a) 1 = sp → w.img ctx (2720 + b) 1 = sp → SMap.get 0 w.portLast sp = a + 1 →
       Completes (.storePortAccess cl sp [a, b]) s fun t =>
         SMap.get 0 (t.cl cl).weave.portLast sp = b + 1 ∧
         ∀ p, (s.cl cl).resolvedCore ctx a = some p →
           (t.core cl p).waitCycles = (s.core cl p).waitCycles + 1#64) ∧
     (∀ n m k, s.weaveCounts cl = true → n ≠ 4 → 0 < k → s.unitWait cl (m / 4) = some (n, m) →
       let waited := SMap.get 0 w.waitCount (m / 4)
       (waited + k ≤ w.limit → Completes (.balanceFault cl n m k) s fun t =>
         SMap.get 0 (t.cl cl).weave.waitCount (m / 4) = waited + k ∧
         t.reg (.weave cl) Off.WV_WAIT = s.reg (.weave cl) Off.WV_WAIT + BitVec.ofNat 64 k ∧
         (t.cl cl).weave.faultFreeze = w.faultFreeze ∧ OtherClusters s t cl) ∧
       (m / 4 ∉ w.balFaulted → w.limit < waited + k →
         bit (s.reg (.weave cl) Off.WV_BAL_STATUS) 0 = false → bit (s.page (.weave cl)).fault 0 = false →
         Completes (.balanceFault cl n m k) s fun t =>
           (t.cl cl).weave.faultFreeze = true ∧ bit (t.page (.weave cl)).fault 0 = true ∧
           bit (t.reg (.weave cl) Off.WV_BAL_STATUS) 0 = true ∧
           fld (t.reg (.weave cl) Off.WV_BAL_STATUS) 4 4 = n % 16 ∧
           fld (t.reg (.weave cl) Off.WV_BAL_STATUS) 8 12 = m % 4096 ∧
           t.reg (.weave cl) Off.WV_BAL_TIME = s.clTime cl)) ∧
     (∀ mp, mp < 4 → s.weaveRuns cl = true →
       let g := SMap.get [] w.gather mp
       let ch := w.mpField ctx mp 4 1 % 16
       g ≠ [] → w.mpField ctx mp 8 2 ≤ g.length → w.mpField ctx mp 3 1 ≤ 3 → ch ≤ 7 → w.iq (4 * (0x1C0 + mp)) = [] →
       let k : Packet := {
         destLC := w.mpField ctx mp 0 2 % 4096, destCore := w.mpField ctx mp 2 1 % 128
         destUnit := w.mpField ctx mp 3 1 % 32, srcSub := mp, channel := ch, mcast := (w.mpField ctx mp 5 1).testBit 0
         mIndex := w.mpField ctx mp 6 2 % 1024, ptype := if g.any (·.last) then 1 else 0, payload := g.flatMap (·.bytes) }
       ((s.router cl).lookup { k with epoch := (s.router cl).cur }).isSome = true →
       s.mayInject cl 0 ch = true → Completes (.meshPortPacketClose cl mp) s fun t =>
         SMap.get [] (t.cl cl).weave.gather mp = [] ∧
         (t.router cl).inbuf = (s.router cl).inbuf ++ [{ port := 8, pkt := { k with
           srcLC := (s.cl cl).lc.getD 0, destLC := if k.mcast then 0 else k.destLC, tint := s.clTint cl
           epoch := (s.router cl).cur, seq := SMap.get 0 (s.router cl).seqs k.srcKey } }] ∧ OtherClusters s t cl))

/-- A COPY of one row between two places of its own store, and a FILL, that no line boundary cuts, while no other ring
of the engine holds a descriptor and the engine holds nothing of an earlier run: the
destination receives the bytes, the rest of the store is as it was, and the descriptor has finished. The oldest
command of a ring that has finished completes: HEAD advances by one, the command leaves the ring and, with DONE_EN,
its flag is handed to the flag unit. A host write of TAIL of a ring that OWNER gives to the host rings its doorbell:
TAIL takes the value while the ring can hold the entries. PAUSE of a DMA ring is set. -/
def Obligations.UnitRings : Prop :=
  (∀ (s : State) (cl u q a d : Nat) (c : BitVec 512), cl < 4032 → u < 2 → q < 4 → s.ringRuns cl u q = true →
     ((s.cl cl).engine u).list q = [{ cmd := c }] → (s.cl cl).storeErr = [] →
     locOf true (cmdFld c 8 8) = some (.store a) → locOf true (cmdFld c 16 8) = some (.store d) →
     cvtEn c = false → dRows c = 1 → 1 ≤ dLength c → d % 64 + dLength c ≤ 64 →
     (∀ r, r < 4 → r ≠ q → s.dmaActive cl u r = none ∧ s.ringHeld cl u r = 0) →
     SMap.get [] ((s.cl cl).engine u).hand q = [] →
     let moved (bs : List Byte) (t : State) : Prop :=
       Memory.read (t.cl cl).store d (dLength c) = bs ∧
       (∀ b, b < d ∨ d + dLength c ≤ b → Memory.readByte (t.cl cl).store b = Memory.readByte (s.cl cl).store b) ∧
       ((t.cl cl).engine u).list q = [{ cmd := c, progress := dLength c, finished := true }] ∧ OtherClusters s t cl
     (cmdFld c 0 1 = 1 → a % 64 + dLength c ≤ 64 →
       Completes (.copy cl u q) s (moved (Memory.read (s.cl cl).store a (dLength c)))) ∧
     (cmdFld c 0 1 = 2 → a = 0 → Completes (.fill cl u q) s
       (moved ((List.range (dLength c)).map fun k => BitVec.ofNat 8 (cmdFld c (48 + k % 8) 1))))) ∧
  (∀ (s : State) (cl u q : Nat) (a : Active) (l : List Active), cl < 4032 → s.unitIssues cl u = true →
     ((s.cl cl).engine u).list q = a :: l → a.finished = true → ((s.cl cl).engine u).parked q = none →
     let done (src : SetSource) (t : State) : Prop :=
       ((t.cl cl).engine u).list q = l ∧
       t.ringReg cl u q 2 % 65536 = (s.ringReg cl u q 2 % 65536 + 1) % 65536 ∧
       (t.cl cl).sets = (s.cl cl).sets ++
         (if a.cmd.getLsbD 8 then [⟨src, .flag (cmdFld a.cmd 2 2)⟩] else []) ∧ OtherClusters s t cl
     (u = 0 → q < 4 → Completes (.dmaDescComplete cl 0 q) s (done .dma0)) ∧
     (u = 1 → q < 4 → Completes (.dmaDescComplete cl 1 q) s (done .dma1)) ∧
     (u = 2 → q = 0 → Completes (.thatcherCmdComplete cl) s fun t => done .thatcher t ∧ (t.cl cl).thatcher.buf = []) ∧
     (u = 3 → q = 0 → Completes (.gutterCmdComplete cl) s (done .gutter)) ∧
     (u = 4 → q = 0 → Completes (.skylightCmdComplete cl) s fun t => done .skylight t ∧ (t.cl cl).skylight.buf = [])) ∧
  (∀ (s : State) (cl u q : Nat) (v : BitVec 64), cl < 4032 → Reaches s.toChip (unitPage cl u) →
     let fits := s.ringOwner cl u q = true ∧
       (v.toNat % 65536 + 65536 - s.ringReg cl u q 2) % 65536 ≤ s.ringSize cl u q
     let rung (t : State) : Prop := t.ringReg cl u q 3 = v.toNat % 65536 ∧ t.ringReg cl u q 2 = s.ringReg cl u q 2 ∧
       OtherClusters s t cl
     (u < 2 → q < 4 → fits → Completes (.dmaTailWrite cl u q v) s rung) ∧
     (u = 2 → q = 0 → fits → Completes (.thatcherTailWrite cl v) s rung) ∧
     (u = 3 → q = 0 → fits → Completes (.gutterTailWrite cl v) s rung) ∧
     (u = 4 → q = 0 → fits → Completes (.skylightTailWrite cl v) s rung) ∧
     (u < 2 → q < 4 → Completes (.dmaPause cl u q) s fun t =>
       t.ringReg cl u q 1 = s.ringReg cl u q 1 ||| 32 ∧ OtherClusters s t cl))

/-- The integer path and FSUM on one element held in the cluster's own store: the result element is written at the
destination, every other byte of the store is as it was, and the command has finished. The valley commands on one
term: VDOT adds a product and VADD a value to their valley, VMERGE another valley, VADDRAW a raw image; VREAD writes
the valley as FP32 or raw, VCLR clears it. Every other valley is as it was. -/
def Obligations.GutterAndValleyResults : Prop :=
  (∀ (s : State) (cl a b d : Nat) (c : BitVec 512), cl < 4032 → s.ringRuns cl 3 0 = true →
     (s.cl cl).gutter.list 0 = [{ cmd := c }] → (s.cl cl).gutter.hand = [] → (s.cl cl).storeErr = [] → gCount c = 1 →
     locOf false (cmdFld c 8 8) = some (.store a) → locOf false (cmdFld c 16 8) = some (.store b) →
     locOf false (cmdFld c 24 8) = some (.store d) →
     let m := (s.cl cl).store
     let result (i : Instr) (n x : Nat) : Prop := Completes i s fun t =>
       Memory.read (t.cl cl).store d n = leBytes n x ∧
       (∀ k, k < d ∨ d + n ≤ k → Memory.readByte (t.cl cl).store k = Memory.readByte m k) ∧
       (t.cl cl).gutter.list 0 = [{ cmd := c, progress := 1, finished := true }] ∧ OtherClusters s t cl
     (gOp c = 0x01 → result (.quant cl) 8
       (codeOf 64 (quantLane (gScale c) (fp32F.decode (Memory.readNat m a 4))).1)) ∧
     (gOp c = 0x02 → result (.iadd cl) 8 ((Memory.readNat m a 8 + Memory.readNat m b 8) % 2 ^ 64)) ∧
     (gOp c = 0x03 → result (.dequant cl) 4 (fp32F.encodeIeee
       (.fin (decide (signedOf 64 (Memory.readNat m a 8) < 0)) (signedOf 64 (Memory.readNat m a 8)).natAbs (gScale c))).1) ∧
     (gOp c = 0x04 → result (.pack48 cl) 6 (codeOf 48 (max (-(2 ^ 47 - 1)) (min (2 ^ 47 - 1) (signedOf 64 (Memory.readNat m a 8)))))) ∧
     (gOp c = 0x05 → result (.unpack48 cl) 8 (codeOf 64 (signedOf 48 (Memory.readNat m a 6)))) ∧
     (gOp c = 0x06 → gNsrc c = 2 → result (.fsum cl) 4
       (fpAdd (BitVec.ofNat 32 (Memory.readNat m a 4)) (BitVec.ofNat 32 (Memory.readNat m (a + gStride c) 4))).1.toNat)) ∧
  (∀ (s : State) (cl a b d : Nat) (c : BitVec 512), cl < 4032 → s.ringRuns cl 3 0 = true →
     (s.cl cl).gutter.list 0 = [{ cmd := c }] → (s.cl cl).gutter.hand = [] → (s.cl cl).storeErr = [] →
     locOf false (cmdFld c 8 8) = some (.store a) → locOf false (cmdFld c 16 8) = some (.store b) →
     locOf false (cmdFld c 24 8) = some (.store d) →
     let x := s.cl cl
     let m := x.store
     let v := gValley c
     let valley (i : Instr) (y : Valley) : Prop := Completes i s fun t =>
       (t.cl cl).valley v = y ∧ (∀ k, k ≠ v → (t.cl cl).valley k = x.valley k) ∧ (t.cl cl).store = m ∧
       ((t.cl cl).gutter.list 0).all (·.finished) = true ∧ OtherClusters s t cl
     let read (bs : List Byte) : Prop := Completes (.vread cl) s fun t =>
       Memory.read (t.cl cl).store d bs.length = bs ∧ (t.cl cl).valleys = x.valleys ∧
       ((t.cl cl).gutter.list 0).all (·.finished) = true ∧ OtherClusters s t cl
     (gOp c = 0x10 → gCount c = 1 → gFmtA c = 0 → gFmtB c = 0 →
       let p := XNum.mul (fp32F.decode (Memory.readNat m a 4)) (fp32F.decode (Memory.readNat m b 4))
       valley (.vdot cl) ((x.valley v).addTerm p.1 p.2).1) ∧
     (gOp c = 0x11 → gCount c = 1 → gFmtA c = 0 →
       valley (.vadd cl) ((x.valley v).addTerm (fp32F.decode (Memory.readNat m a 4)) false).1) ∧
     (gOp c = 0x12 → valley (.vmerge cl) ((x.valley v).merge (x.valley (gValleyB c))).1) ∧
     (gOp c = 0x14 → valley (.vclr cl) {}) ∧
     (gOp c = 0x15 → ∀ y, Valley.ofRaw (Memory.read m a 88) = some y → valley (.vaddraw cl) ((x.valley v).merge y).1) ∧
     (gOp c = 0x13 → gRaw c = true → read (leBytes 80 (x.valley v).v.toNat ++ leBytes 8 (x.valley v).special.code)) ∧
     (gOp c = 0x13 → gRaw c = false → read (leBytes 4 (x.valley v).toFp32.1.toNat)))

/-- A receive slot that the host enables with lanes that lie in the store takes its configuration and counts its
packets from 0; one that expects no packet is full at once: its flag is handed to the flag unit and ENABLE is clear.
CL_VFT_DATA reads and writes four entries of the virtual-flag table. The flag unit applies a waiting
set: a core flag takes it, a doorbell of a ring that the units own rings it by one, and a name of no flag is counted
in CL_FLAG_BAD. -/
def Obligations.SlotsAndFlagUnit : Prop :=
  (∀ (s : State) (cl n : Nat) (v : BitVec 64), cl < 4032 →
     (n < 16 → Reaches s.toChip (.gutter cl) → bit v 0 = true → bit (s.reg (.gutter cl) (Off.GT_SLOT_CFG n)) 0 = false →
       1 ≤ fld v 16 20 → fld v 36 28 ≠ 0 → fld (s.reg (.gutter cl) (Off.GT_SLOT_BASE n)) 0 24 + 8 * fld v 16 20 ≤ storeSize →
       Completes (.slotEnable cl n v) s fun t =>
         t.reg (.gutter cl) (Off.GT_SLOT_CFG n) = v &&& 0xFFFFFFFFFFFF0003#64 ∧
         t.reg (.gutter cl) (Off.GT_SLOT_COUNT n) = 0#64 ∧ OtherClusters s t cl) ∧
     (n < 16 → Reaches s.toChip (.gutter cl) → bit v 0 = true → bit (s.reg (.gutter cl) (Off.GT_SLOT_CFG n)) 0 = false →
       1 ≤ fld v 16 20 → fld v 36 28 = 0 → fld (s.reg (.gutter cl) (Off.GT_SLOT_BASE n)) 0 24 + 8 * fld v 16 20 ≤ storeSize →
       Completes (.slotEnable cl n v) s fun t =>
         bit (t.reg (.gutter cl) (Off.GT_SLOT_CFG n)) 0 = false ∧
         (t.cl cl).sets = (s.cl cl).sets ++ [⟨.gutter, .flag (fld (s.reg (.gutter cl) (Off.GT_SLOT_FLAG n)) 0 16)⟩] ∧
         OtherClusters s t cl) ∧
     (Reaches s.toChip (.cluster cl) →
       let w := fld (s.reg (.cluster cl) Off.CL_VFT_ADDR) 0 10
       (Completes (.vftDataAccess cl none) s fun t =>
         t.out = s.out ++ [.readData ((s.cl cl).vftRead w)] ∧ (t.cl cl).vft = (s.cl cl).vft ∧
         fld (t.reg (.cluster cl) Off.CL_VFT_ADDR) 0 10 = (w + 1) % 1024) ∧
       (Completes (.vftDataAccess cl (some v)) s fun t =>
         (∀ i, i < 4 → (t.cl cl).vftEntry (4 * w + i) = BitVec.ofNat 16 (fld v (16 * i) 16) &&& 0xFF3F#16) ∧
         (∀ i, i < 4 * w ∨ 4 * w + 4 ≤ i → (t.cl cl).vftEntry i = (s.cl cl).vftEntry i) ∧ OtherClusters s t cl))) ∧
  (∀ (s : State) (cl : Nat) (p : PendingSet), cl < 4032 → s.bayRuns (clBay cl) = true → (s.cl cl).sets = [p] →
     (s.cl cl).deferred = [] →
     (∀ n f, (s.cl cl).setPlace p.target = .core n f → Completes (.flagSetApply cl) s fun t =>
       t.core cl n = (s.core cl n).applySet f ∧ (t.cl cl).sets = [] ∧ OtherClusters s t cl) ∧
     (∀ u q, (s.cl cl).setPlace p.target = .ring u q → s.ringOwner cl u q = false →
       ((s.ringReg cl u q 3 + 1) % 65536 + 65536 - s.ringReg cl u q 2) % 65536 ≤ s.ringSize cl u q →
       Completes (.flagSetApply cl) s fun t =>
         t.ringReg cl u q 3 = (s.ringReg cl u q 3 + 1) % 65536 ∧ (t.cl cl).sets = [] ∧ OtherClusters s t cl) ∧
     ((s.cl cl).setPlace p.target = .bad → Completes (.flagSetApply cl) s fun t =>
       fld (t.reg (.cluster cl) Off.CL_FLAG_BAD) 0 16 = min 65535 (fld (s.reg (.cluster cl) Off.CL_FLAG_BAD) 0 16 + 1) ∧
       (t.cl cl).sets = [] ∧ (t.cl cl).cores = (s.cl cl).cores))

/-- PACK, UNPACK and GATHER between places of the cluster's own store: PACK writes the stored tile of the source
values, UNPACK the operand of the stored tile, GATHER the blocks its mask keeps; the command has finished. A PREDICT
whose inputs are all read, with no NaN bound, writes its slots, mask and counts at OUT and has finished. -/
def Obligations.ThatcherAndSkylightResults : Prop :=
  (∀ (s : State) (cl a d : Nat) (c : BitVec 512), cl < 4032 → s.ringRuns cl 2 0 = true →
     (s.cl cl).thatcher.list 0 = [{ cmd := c }] → (s.cl cl).thatcher.buf = [] → (s.cl cl).storeErr = [] →
     thatcherBad c = false →
     locOf false (cmdFld c 8 8) = some (.store a) → locOf false (cmdFld c 16 8) = some (.store d) →
     let m := (s.cl cl).store
     let source (rs : List (Nat × Nat)) : List Byte := rs.flatMap fun r => Memory.read m (a + r.1) r.2
     let wrote (i : Instr) (bs : List Byte) : Prop := Completes i s fun t =>
       Memory.read (t.cl cl).store d bs.length = bs ∧
       (∀ k, k < d ∨ d + bs.length ≤ k → Memory.readByte (t.cl cl).store k = Memory.readByte m k) ∧
       ((t.cl cl).thatcher.list 0).all (·.finished) = true ∧ OtherClusters s t cl
     (cmdFld c 0 1 = 1 → wrote (.pack cl) (packTile c (source (thRanges c []))).1.stored) ∧
     (cmdFld c 0 1 = 2 →
       let h := Memory.read m a 16
       let t0 := Tile.ofRead h (source (tileRanges h))
       let out := (if tFlag c 2 then t0.transpose else t0).operand (tFlag c 1)
       tileBad h = false → hdrMask h = tMask c → (∀ r ∈ tileRanges h, a + r.1 + r.2 ≤ storeSize) →
       d + out.length ≤ storeSize → wrote (.unpack cl) out) ∧
     (cmdFld c 0 1 = 3 → wrote (.gather cl) (source (thRanges c [])))) ∧
  (∀ (s : State) (cl d : Nat) (a : Active), cl < 4032 → s.ringRuns cl 4 0 = true →
     (s.cl cl).skylight.list 0 = [a] → a.finished = false → a.place = 0 → (s.cl cl).storeErr = [] →
     let c := a.cmd
     let buf := (s.cl cl).skylight.buf
     rangeAt ((skyInputs c).map fun x => (x.1 * 2 ^ 60, x.2)) buf.length = none →
     locOf false (cmdFld c 40 8) = some (.store d) →
     (skyClassify c buf).all (fun y => !y.bound.isNan) = true →
     let r := skyAllot (kCapA c) (kCapM c) (skyClassify c buf)
     let out := skyBytes d (kCapA c) (kCapM c) (kNblk c) r
     Completes (.predict cl) s fun t =>
       Memory.read (t.cl cl).store d out.length = out ∧
       (∀ k, k < d ∨ d + out.length ≤ k → Memory.readByte (t.cl cl).store k = Memory.readByte (s.cl cl).store k) ∧
       (t.cl cl).skylight.list 0 = [{ a with finished := true }] ∧ OtherClusters s t cl)

/-- A walk's read of its entry goes by the first case of R251 that holds: the walk goes on one level down, ends in
the TLB with the translation given to every unit that waits, or is over with the fault captured by each. ATS: a
completion that grants the access gives the unit its translation, one that does not, without PRI, is a HOST_ATS
fault; a successful PRG response releases the unit and asks again, a failed one is a HOST_PRI fault. -/
def Obligations.WalksAndAts : Prop :=
  (∀ (s : State) (b walk : Nat) (k : Walk), b < 336 → walk < 16 →
     SMap.get none (s.bay b).walks walk = some k → s.bayOk b = true → (s.cl k.cl).ctu.page.enable = true →
     (∀ w ∈ k.waiters, w.unit < 5) →
     let at_ := k.table + 8 * bits k.va (levelBits k.level).1 (levelBits k.level).2
     ∀ (s1 : Chip) (line : List Byte),
     (s.toChip.ctuCount k.cl Off.CTU_WALK_READS).walkRead b walk k (at_ / 64) = .ok s1 line →
     Completes (.walkerReadResp b walk) s fun t =>
       match walkStep (BitVec.ofNat 64 (leNat (slice line (at_ % 64) 8))) k.level k.va (s1.sameGable k.cl)
           (fun st slot => ((s1.bay st).keyFor slot (s1.clTint k.cl)).isSome) with
       | .next st off =>
         SMap.get none (t.bay b).walks walk = some { k with level := k.level - 1, stack := st, table := off }
       | .leaf e => SMap.get none (t.bay b).walks walk = none ∧
         ∀ w ∈ k.waiters, ((t.cl k.cl).engine w.unit).trans =
           some (match s1.tlbHit k.cl k.va with | some (held, _) => held | none => e)
       | .fault f => SMap.get none (t.bay b).walks walk = none ∧
         ∀ w ∈ k.waiters, ((s1.cl k.cl).engine w.unit).parked w.ring = none →
           ((s1.cl k.cl).engine w.unit).cmdAt w.ring w.place ≠ none →
           (((t.cl k.cl).engine w.unit).parked w.ring).map (·.kind) = some f) ∧
  (∀ (s : State) (cl unit ring : Nat), cl < 4032 → unit < 5 → ring < 4 → (s.cl cl).ctu.page.enable = true →
     (∀ (xl : AtsGrant) (w : Waiter), (s.cl cl).ctu.ats.find? (fun w => w.is unit ring) = some w →
       (∀ a, xl.addr = some a → (if w.write then xl.w else xl.r) = true →
         Completes (.atsCompletion cl unit ring xl) s fun t =>
           ((t.cl cl).engine unit).trans = some (hostEntry w.va a xl.log2 xl.r xl.w) ∧
           (t.cl cl).ctu.ats = (s.cl cl).ctu.ats.filter (fun w => !w.is unit ring) ∧ OtherClusters s t cl) ∧
       (xl.addr = none → bit (s.reg (.ctu cl) Off.CTU_CFG) 1 = false →
         ((s.cl cl).engine unit).parked ring = none → ((s.cl cl).engine unit).cmdAt ring w.place ≠ none →
         Completes (.atsCompletion cl unit ring xl) s fun t =>
           (((t.cl cl).engine unit).parked ring).map (·.kind) = some .hostAts ∧ OtherClusters s t cl)) ∧
     (∀ (n : Nat) (x : HostPending), (s.cl cl).ctu.phase.holds = false →
       (s.cl cl).ctu.pri.find? (fun x => x.sent && x.w.is unit ring) = some x →
       (n = 0 → Completes (.prgResponse cl unit ring n) s fun t =>
         ((t.cl cl).engine unit).parked ring = none ∧ (t.cl cl).ctu.ats = (s.cl cl).ctu.ats ++ [x.w]) ∧
       (n ≠ 0 → ((s.cl cl).engine unit).cmdAt ring x.w.place ≠ none → Completes (.prgResponse cl unit ring n) s fun t =>
         (((t.cl cl).engine unit).parked ring).map (·.kind) = some .hostPri ∧
         (t.cl cl).ctu.ats = (s.cl cl).ctu.ats)))

/-- Invalidation: no translation that overlaps the range stays in a TLB it reaches. The host's request reaches every
cluster of the gable and is answered, at once when none of them has a walk or an access of the range outstanding, and
else it waits for them; CTU_INVAL_CMD without BCAST reaches its own cluster and is BUSY until it
completes: then no translation of the range is left in a cluster it reaches. A frame retires: BM_RETIRE_CMD.GO starts the copy once step READY is done, and its end adds the frame to
the retired list and to the wear log. -/
def Obligations.InvalidationsAndRetirement : Prop :=
  ((∀ (s : State) (t addr n : Nat), 1 ≤ t → t ≤ 64 → s.link.held = false → s.link.invals = [] →
     let lo := 2 ^ 55 + addr % 2 ^ 55 / 2 ^ n * 2 ^ n
     let waits := ∃ cl, cl < 4032 ∧ s.clTint cl = t ∧ s.invalOpen cl lo (lo + 2 ^ n) = true
     Completes (.atsInvalidateRequest t addr n) s fun u =>
       (¬waits → u.out = s.out ++ [.invalDone t]) ∧
       (waits → u.out = s.out ∧ u.link.invals = [(t, lo, lo + 2 ^ n)]) ∧
       (∀ cl, s.clTint cl = t → ∀ p ∈ (u.cl cl).ctu.tlb, ∀ e, p.2 = some e → e.overlaps lo (lo + 2 ^ n) = false) ∧
       ∀ cl, s.clTint cl ≠ t → u.cl cl = s.cl cl) ∧
   (∀ (s : State) (cl : Nat) (v : BitVec 64), cl < 4032 → Reaches s.toChip (.ctu cl) →
     bit v 0 = true → bit v 1 = false → bit v 2 = false → 16 ≤ fld v 8 6 → fld v 8 6 ≤ 56 →
     let va := (s.reg (.ctu cl) Off.CTU_INVAL_VA).toNat % 2 ^ 56 / 2 ^ 16 * 2 ^ 16
     let lo := va / 2 ^ fld v 8 6 * 2 ^ fld v 8 6
     Completes (.ctuInvalidate cl v) s fun u =>
       (u.cl cl).ctu.inval = some (lo, 2 ^ fld v 8 6, false, false) ∧
       (∀ p ∈ (u.cl cl).ctu.tlb, ∀ e, p.2 = some e → e.overlaps lo (lo + 2 ^ fld v 8 6) = false) ∧
       OtherClusters s u cl) ∧
   ∀ (s : State) (cl lo n : Nat) (all bcast : Bool), cl < 4032 →
     (s.cl cl).ctu.inval = some (lo, n, all, bcast) →
     (∀ c ∈ s.invalReach cl bcast, s.invalOpen c lo (lo + n) = false) →
     Completes (.invalidationComplete cl) s fun u =>
       (u.cl cl).ctu.inval = none ∧
       ∀ c ∈ s.invalReach cl bcast, ∀ p ∈ (u.cl c).ctu.tlb, ∀ e, p.2 = some e → e.overlaps lo (lo + n) = false) ∧
  (∀ (s : State) (b : Nat), b < 336 →
     (∀ v : BitVec 64, Reaches s.toChip (.baymem b) → bit v 62 = true → (s.bay b).retiring = none →
       fld v 16 20 ∉ (s.bay b).retired → (s.bay b).retired.length < 65536 → s.wearFull = false →
       bit s.bringup.done 8 = true → Completes (.retireGo b v) s fun t =>
         (t.bay b).retiring = some (fld v 16 20) ∧ (t.bay b).stack = (s.bay b).stack ∧ ∀ k, k ≠ b → t.bay k = s.bay k) ∧
     (∀ f, (s.bay b).retiring = some f → s.bayOk b = true → s.dispatcher (bayField b) ≠ none →
       s.wearFull = false → Completes (.retirementCopyComplete b) s fun t =>
         (t.bay b).retired = (s.bay b).retired ++ [f] ∧ (t.bay b).retiring = none ∧
         t.bringup.wear = s.bringup.wear ++ [{ kind := 1, time := s.now, data := [b, f] }] ∧
         ∀ k, k ≠ b → t.bay k = s.bay k))

/-- A captured fault parks with the number of the controller that dispatches it and the page's XLATE_PARK; its record goes to the gable's fault queue and
its vector is signalled; RESUME with its TINT and FAULT_SEQ releases it, any other sets RESUME_DROP. -/
def Obligations.FaultsParkAndResume : Prop :=
  ∀ (s : State) (cl unit ring : Nat) (p : Park), cl < 4032 → unit < 5 → ring < 4 →
    let t := s.clTint cl
    ((s.cl cl).engine unit).parked ring = some p →
    (∀ f, p.capturing = true → p.kind ≠ .hostPending → s.dispatcher (clField cl) = some f → Completes (.unitPark cl unit ring) s fun u =>
      let n := SMap.get 0 (s.field f).faultCount t + 1
      ((u.cl cl).engine unit).parked ring =
        some { p with capturing := false, parked := true, seq := f * 2 ^ 24 + n % 2 ^ 24 } ∧
      SMap.get 0 (u.field f).faultCount t = n ∧ bit (u.page (unitPage cl unit)).fault (parkBit unit) = true ∧
      OtherClusters s u cl) ∧
    (p.parked = true → p.dispatched = false → p.kind ≠ .hostPending → t ≠ 0 → (s.cl cl).ctu.phase.holds = false →
      s.dispatcher (clField cl) ≠ none → p.seq ≠ 0 → s.link.held = false → s.link.vecMasked (faultVector t) = false →
      let r := s.gbRing t Off.GB_FQ_BASE Off.GB_FQ_CFG Off.GB_FQ_TAIL Off.GB_FQ_HEAD
      r.2.2 = false → Completes (.faultDispatch cl unit ring) s fun u =>
        u.out = s.out ++ [.hostWrite t (r.1 + 64 * r.2.1) (faultRecord unit ring ((s.cl cl).lc.getD 0xFFF) p),
          .vector 0 (faultVector t)] ∧
        ((u.cl cl).engine unit).parked ring = some { p with dispatched := true } ∧
        fld (u.reg (.gable t) Off.GB_FQ_TAIL) 0 16 = (fld (s.reg (.gable t) Off.GB_FQ_TAIL) 0 16 + 1) % 65536) ∧
    (∀ v : BitVec 64, Reaches s.toChip (unitPage cl unit) → (s.cl cl).ctu.phase = .none →
      fld v 0 2 = ring → (unit < 2 ∨ ring = 0) →
      (p.parked = true → p.kind ≠ .hostPending → fld v 8 7 = t → fld v 32 32 = p.seq →
        Completes (.resume cl unit v) s fun u =>
          ((u.cl cl).engine unit).parked ring = none ∧ ((u.cl cl).engine unit).trans = none ∧ OtherClusters s u cl) ∧
      (fld v 32 32 ≠ p.seq → Completes (.resume cl unit v) s fun u =>
        ((u.cl cl).engine unit).parked ring = some p ∧
        ((u.cl cl).engine unit).resumeDrop = ((s.cl cl).engine unit).resumeDrop.set ring true ∧ OtherClusters s u cl))

/-- Pre-emption: PREEMPT puts every committed cluster of an ACTIVE gable in STOPPING; STOPPING, DRAINING and SAVING
follow one another, SAVING leaves the cluster's image under its key in its stack, its store byte for byte, and the gable is DORMANT once
every cluster is SAVED. DRAINING longer than 100 us fails. RESTORE of a DORMANT gable that passes its check makes it
ACTIVE with every committed cluster RESTORING on its bays, and RESTORE_COMPLETE gives a cluster the store, valleys
and virtual flags of the image its save area reads as. -/
def Obligations.PreemptionAndRestore : Prop :=
  (∀ s : State,
     (∀ (t : Nat) (v : BitVec 64), 1 ≤ t → t ≤ 64 → Reaches s.toChip (.gable t) → bit v 0 = true → bit v 1 = false →
       let g := s.gable t
       g.saving = false → g.restoring = false → g.resetting = false → g.active = true → s.ctuOff t = false →
       s.gableLive t ≠ [] → Completes (.preempt t v) s fun u =>
         (u.gable t).saving = true ∧ ∀ cl ∈ s.gableLive t, (u.cl cl).ctu.phase = .stopping) ∧
     (∀ cl, cl < 4032 → s.savingIn cl .stopping = true → (s.cl cl).ctu.saveErr = false →
       (∀ u, u < 5 → ∀ p ∈ ((s.cl cl).engine u).park, ∀ k, p.2 = some k → k.capturing = false) →
       Completes (.stoppingEnd cl) s fun t =>
         (t.cl cl).ctu.phase = .draining ∧ (t.cl cl).ctu.ats = [] ∧ OtherClusters s t cl) ∧
     (∀ cl, cl < 4032 → s.savingIn cl .draining = true → s.drained cl = true → Completes (.drainingEnd cl) s fun t =>
       (t.cl cl).ctu = { (s.cl cl).ctu with phase := .saving } ∧ OtherClusters s t cl) ∧
     (∀ cl, cl < 4032 → s.savingIn cl .draining = true → 100000 < (s.now - (s.cl cl).ctu.drainAt).toNat →
       Completes (.drainingTimeout cl) s fun t => (t.cl cl).ctu.phase = .failed) ∧
     (∀ cl key, cl < 4032 → s.savingIn cl .saving = true → s.saveKey cl = some key →
       (s.bay (clBay cl)).copying (s.saveArea cl).1 imageSize = false → (s.cl cl).scanned.2 = false →
       Completes (.savingEnd cl) s fun t =>
         let base := (s.saveArea cl).1
         SMap.get none (t.bay (clBay cl)).images base = some (s.saved.length, key) ∧
         t.saved = s.saved ++ [(s.cl cl).scanned.1.image] ∧
         (∀ o, o < storeSize →
           Memory.readByte (t.bay (clBay cl)).stack (base + o) = Memory.readByte (s.cl cl).store o) ∧
         ((∀ k ∈ s.gableLive (s.clTint cl), k ≠ cl → (s.cl k).ctu.phase = .saved) →
           (t.cl cl).ctu.phase = .saved ∧ (t.gable (s.clTint cl)).dormant = true ∧
           (t.gable (s.clTint cl)).saving = false))) ∧
  (∀ s : State,
     (∀ (t : Nat) (v : BitVec 64), 1 ≤ t → t ≤ 64 → Reaches s.toChip (.gable t) → bit v 0 = false → bit v 1 = true →
       let g := s.gable t
       g.saving = false → g.restoring = false → g.resetting = false → g.dormant = true → s.gableLive t ≠ [] →
       Completes (.restore t v) s fun u => match s.gableVerdict t with
         | none => (u.gable t).dormant = false ∧ (u.gable t).restoring = true ∧
           (∀ b ∈ s.gableBays t, (u.bay b).tint = t) ∧ ∀ cl ∈ s.gableLive t, (u.cl cl).ctu.phase = .restoring
         | some f => (u.gable t).dormant = true ∧ (u.gable t).page.refused = true ∧
           (u.gable t).page.refusal = refusalWord f.1 f.2.1 f.2.2) ∧
     (∀ cl k key y, cl < 4032 → (s.gable (s.clTint cl)).restoring = true → (s.cl cl).ctu.phase = .restoring →
       s.saveKey cl = some key →
       let b := clBay cl
       let base := (s.saveArea cl).1
       let scan := s.toChip.stackScan b (base / 64) ((base + imageSize) / 64)
       (s.bay b).copying base imageSize = false → scan.2 = false → scan.1.imageAt b base key = some y →
       k ∈ s.gableLive (s.clTint cl) → k ≠ cl → (s.cl k).ctu.phase = .restoring →
       Completes (.restoreComplete cl) s fun t =>
         (t.cl cl).ctu.phase = .none ∧ (t.cl cl).store = y.store ∧ (t.cl cl).valleys = y.valleys ∧
         (t.cl cl).vft = y.vft ∧ OtherClusters s t cl))

/-- Time: TK_SET sets the count before step CLOCKS and is refused with 0x0701 after; an accepted pulse without ALIGN, or with
it at a multiple of 10^9, sets the trim; a lost reference is noted in every open meter period; a cluster, bay or field
node within 2 ns takes the received count, and a fourth missed sync raises TB_LOST. -/
def Obligations.TimeResults : Prop :=
  ∀ s : State,
    (∀ v : BitVec 64, Reaches s.toChip .timekeeper →
      (s.bringup.clocksStarted = false → Completes (.tkSet v) s fun t => t.tk.now = v) ∧
      (s.bringup.clocksStarted = true → Completes (.tkSet v) s fun t => t.tk.now = s.tk.now ∧
        t.tk.page.refused = true ∧ fld t.tk.page.refusal 0 16 = 0x0701)) ∧
    (∀ l : BitVec 64, s.module.standby = true → bit (s.reg .timekeeper Off.TK_PPS_CFG) 0 = true →
      bit (s.reg .timekeeper Off.TK_PPS_CFG) 1 = false ∨ ppsOffset s.tk.now.toNat = 0 → s.tk.ppsLast = some l →
      let d : Nat := (s.tk.now - l).toNat
      999999000 ≤ d → d ≤ 1000001000 → Completes .timepulse s fun t =>
        t.tk.ppsLast = some s.tk.now ∧ t.tk.now = s.tk.now ∧
        t.tk.trim = max (-200000) (min 200000 (s.tk.trim + (1000000000 - (d : Int))))) ∧
    (∀ l : BitVec 64, bit (s.reg .timekeeper Off.TK_PPS_CFG) 0 = true → s.tk.ppsLast = some l →
      2000000000 < (s.tk.now - l).toNat → Completes .ppsLost s fun t =>
        bit (t.reg .timekeeper Off.TK_PPS_STATUS) 1 = true ∧ t.tk.trim = s.tk.trim ∧
        ∀ g, (s.gable g).meter.isOpen = true → (t.gable g).meter.ppsLost = true) ∧
    (∀ cl, cl < 4032 → s.bayOk (clBay cl) = true →
      (∀ d : Int, d.natAbs ≤ 2 → (s.cl cl).tbTake = false → Completes (.timebaseSync cl (some d)) s fun t =>
        (t.cl cl).tbOff = -d ∧ (t.cl cl).tbMissed = 0 ∧ OtherClusters s t cl) ∧
      (3 ≤ (s.cl cl).tbMissed → Completes (.timebaseSync cl none) s fun t =>
        (t.cl cl).tbTake = true ∧ bit (t.cl cl).page.fault 12 = true)) ∧
    (∀ b, b < 336 → s.bayOk b = true →
      (∀ d : Int, d.natAbs ≤ 2 → (s.bay b).node.take = false → Completes (.timebaseSync (4032 + b) (some d)) s fun t =>
        (t.bay b).node.off = -d ∧ (t.bay b).node.missed = 0 ∧ ∀ k, k ≠ b → t.bay k = s.bay k) ∧
      (3 ≤ (s.bay b).node.missed → Completes (.timebaseSync (4032 + b) none) s fun t =>
        (t.bay b).node.take = true ∧ (t.bay b).node.lost = true)) ∧
    (∀ f, f < 84 → s.powered = true →
      (∀ d : Int, d.natAbs ≤ 2 → (s.field f).node.take = false → Completes (.timebaseSync (4368 + f) (some d)) s fun t =>
        (t.field f).node.off = -d ∧ (t.field f).node.missed = 0 ∧ ∀ k, k ≠ f → t.field k = s.field k) ∧
      (3 ≤ (s.field f).node.missed → Completes (.timebaseSync (4368 + f) none) s fun t =>
        (t.field f).node.take = true ∧ (t.field f).node.lost = true))

/-- PACKET_HOP: the packet a port grants moves to the neighbour's input buffer under its new escape level, or to its
delivery point; a packet without a route is discarded and counted in CL_RT_DROP. Links: a refused flit is counted,
and the packet it belongs to goes on over a quiet link, eight replays in a row make the link FAILING at both ends, and calibration brings it UP again, with a
spare for a failing wire, or OUT; a host SWAP places a spare and TAKE_OUT takes both ends OUT. -/
def Obligations.MeshHopsAndLinks : Prop :=
  (∀ (s : State) (cl port i : Nat) (k : Packet) (esc : Nat), cl < 4032 → port < 11 → (s.router cl).up = true →
     (s.router cl).inbuf = [{ port := i, pkt := k }] →
     ((s.router cl).lookup k = some ([port], esc) → ∀ nb, neighbour cl port = some nb →
       ((s.router cl).link port).state = .up → ((s.router cl).link port).noise = [] → s.hasRoom cl port k esc = true →
       s.mayEnter nb k.tint = true → Completes (.packetHop cl port) s fun t =>
         (t.router cl).inbuf = [] ∧
         (t.router nb).inbuf = (s.router nb).inbuf ++ [{ port := oppPort port, pkt := { k with esc := esc } }]) ∧
     ((s.router cl).lookup k = some ([port], esc) → k.doomed = false →
       (port = 8 → k.destUnit < 9 ∨ (3 ≤ k.ptype ∧ k.ptype ≤ 5) → Completes (.packetHop cl port) s fun t =>
         (t.router cl).inbuf = [] ∧ (t.router cl).arrived = (s.router cl).arrived ++ [{ k with esc := esc }] ∧
         OtherClusters s t cl) ∧
       (port = 9 → s.hasRoom cl port k esc = true → Completes (.packetHop cl port) s fun t =>
         (t.router cl).inbuf = [] ∧
         (t.bay (clBay cl)).arrived = (s.bay (clBay cl)).arrived ++ [(cl, { k with esc := esc })])) ∧
     ((s.router cl).lookup k = none → Completes (.packetHop cl port) s fun t =>
       (t.router cl).inbuf = [] ∧
       t.reg (.cluster cl) Off.CL_RT_DROP = s.reg (.cluster cl) Off.CL_RT_DROP + 1#64 ∧ OtherClusters s t cl)) ∧
  (∀ (s : State) (cl p nb : Nat), cl < 4032 → p < 8 → neighbour cl p = some nb →
     let l := (s.router cl).link p
     let both (t : State) (st : LinkState) : Prop :=
       ((t.router cl).link p).state = st ∧ ((t.router nb).link (oppPort p)).state = st
     (l.state = .up → l.replaying = none → Completes (.flitReplay cl p) s fun t =>
       (t.router cl).link p = { l with replays := l.replays + 1 } ∧
       t.reg (.cluster cl) Off.CL_RT_REPLAYS = s.reg (.cluster cl) Off.CL_RT_REPLAYS + 1#64 ∧ OtherClusters s t cl) ∧
     (∀ k m, l.state = .up → l.replaying = some (k, m) → l.noise = [] → s.mayEnter nb k.tint = true →
       Completes (.flitReplay cl p) s fun t =>
         (t.router nb).inbuf = (s.router nb).inbuf ++ [{ port := oppPort p, pkt := k }] ∧
         ((t.router cl).link p).replaying = none ∧ ((t.router cl).link p).replays = 0 ∧
         t.reg (.cluster cl) Off.CL_RT_REPLAYS = s.reg (.cluster cl) Off.CL_RT_REPLAYS + 1#64) ∧
     (l.state = .up → 8 ≤ l.replays → Completes (.linkFailing cl p) s fun t => both t .failing) ∧
     (l.state = .failing → Completes (.calibrationEnd cl p [] true) s fun t => both t .up) ∧
     (l.state = .failing → Completes (.calibrationEnd cl p [] false) s fun t => both t .out) ∧
     (∀ w, l.state = .failing → w < 1088 → SMap.get none l.spares (wireGroup w) = none →
       Completes (.calibrationEnd cl p [w] true) s fun t =>
         both t .up ∧ SMap.get none ((t.router cl).link p).spares (wireGroup w) = some w) ∧
     (∀ v : BitVec 64, Reaches s.toChip (.cluster cl) → bit v 3 = true → bit v 15 = false → s.wearFull = false →
       let w := fld v 4 11
       w < 1088 → SMap.get none l.spares (wireGroup w) = none → Completes (.swap cl p v) s fun t =>
         SMap.get none ((t.router cl).link p).spares (wireGroup w) = some w ∧
         t.bringup.wear = s.bringup.wear ++ [{ kind := 2, time := s.now, data := [clX cl, clY cl, p, w] }] ∧
         OtherClusters s t cl) ∧
     (∀ v : BitVec 64, Reaches s.toChip (.cluster cl) → bit v 3 = false → bit v 15 = true →
       Completes (.linkTakeOut cl p v) s fun t => both t .out))

/-- Packets for the store, the flag unit and the receive slots of a cluster, whose answer has room in the router, take
effect and are acknowledged; a
STORE packet beyond the store is refused and writes nothing; a read request is answered with the bytes. -/
def Obligations.PacketsReachStore : Prop :=
  ∀ (s : State) (cl : Nat) (k : Packet), cl < 4032 → (s.router cl).arrived = [k] → k.tint = s.clTint cl →
    (s.cl cl).storeErr = [] → s.answerRoom cl k = true →
    let m := (s.cl cl).store
    let off := k.addr % 2 ^ 24
    (k.destUnit = 1 → k.ptype ≤ 1 →
      (off + k.data.length ≤ storeSize → Completes (.packetStore cl) s fun t =>
        Memory.read (t.cl cl).store off k.data.length = k.data ∧
        (∀ b, b < off ∨ off + k.data.length ≤ b → Memory.readByte (t.cl cl).store b = Memory.readByte m b) ∧
        Answered s t cl k 4 [] ∧ OtherClusters s t cl) ∧
      (storeSize < off + k.data.length → Completes (.packetStore cl) s fun t =>
        (t.cl cl).store = m ∧ Answered s t cl k 5 [] ∧ OtherClusters s t cl)) ∧
    (k.destUnit = 1 → k.ptype = 2 →
      let n := leNat ((k.payload.drop 8).take 4)
      1 ≤ n → n ≤ 8192 → off + n ≤ storeSize → Completes (.packetStoreReadReq cl) s fun t =>
        (t.cl cl).store = m ∧ Answered s t cl k 3 (Memory.read m off n) ∧ OtherClusters s t cl) ∧
    (k.destUnit = 3 → k.ptype ≤ 1 → Completes (.packetFlag cl) s fun t =>
      (t.cl cl).sets = (s.cl cl).sets ++ (cutBytes 2 k.payload).map (fun n => ⟨.mesh, .flag n⟩) ∧
      Answered s t cl k 4 [] ∧ OtherClusters s t cl) ∧
    (k.destUnit = 2 → k.ptype ≤ 1 → k.destCore < 16 →
      let pg := PageRef.gutter cl
      let cfg := s.reg pg (Off.GT_SLOT_CFG k.destCore)
      let first := leNat (k.payload.take 8)
      let a := fld (s.reg pg (Off.GT_SLOT_BASE k.destCore)) 0 24 + 8 * first
      bit cfg 0 = true → ∀ vs, slotValues (bit cfg 1) k.payload = some vs → first + vs.length ≤ fld cfg 16 20 →
        Completes (.packetGutter cl) s fun t =>
          Memory.read (t.cl cl).store a (8 * vs.length) =
            (List.zipWith laneAdd (cutBytes 8 (Memory.read m a (8 * vs.length))) vs).flatMap (fun p => leBytes 8 p.1) ∧
          (∀ b, b < a ∨ a + 8 * vs.length ≤ b → Memory.readByte (t.cl cl).store b = Memory.readByte m b) ∧
          (t.cl cl).sets = (s.cl cl).sets ++
            (if (fld (s.reg pg (Off.GT_SLOT_COUNT k.destCore)) 0 28 + 1) % 2 ^ 28 = fld cfg 36 28
              then [⟨.gutter, .flag (fld (s.reg pg (Off.GT_SLOT_FLAG k.destCore)) 0 16)⟩] else []) ∧
          Answered s t cl k 4 [] ∧ OtherClusters s t cl)

/-- Packets for the weave, cores, context images, virtual flags and microcode of a cluster, whose answer has room in the
router, take effect and are acknowledged; one for a valid context is refused and leaves its image. A packet for a bay memory controller writes
its aligned line, or reads its lines, under its key slot, and is answered at the router it came through. -/
def Obligations.PacketsReachUnits : Prop :=
  (∀ (s : State) (cl : Nat) (k : Packet), cl < 4032 → (s.router cl).arrived = [k] → s.tintOk cl k = true →
     k.ptype ≤ 1 → s.answerRoom cl k = true →
     let x := s.cl cl
     let taken (i : Instr) (P : State → Prop) : Prop := Completes i s fun t =>
       P t ∧ Answered s t cl k 4 [] ∧ OtherClusters s t cl
     (k.destUnit = 0 →
       let m := k.destCore % 4
       let q := 4 * (0x1C0 + m)
       (SMap.get [] x.weave.delivery m).length + (itemsOf k.payload).length ≤ deliveryItems →
       taken (.packetWeave cl) fun t =>
         (t.cl cl).weave.oq q ++ SMap.get [] (t.cl cl).weave.delivery m =
           x.weave.oq q ++ SMap.get [] x.weave.delivery m ++ markLast (k.ptype = 1) (itemsOf k.payload)) ∧
     (let a := k.addr % 65536
      x.mapEn = true → a % 8 = 0 → a + k.data.length ≤ 0xC000 → (∀ p, (x.core p).lmErr = []) →
       (k.destUnit = 4 → taken (.packetCoreLm cl) fun t =>
         Memory.read (t.core cl (x.pcore k.destCore)).lm a k.data.length = k.data ∧
         ∀ p, p ≠ x.pcore k.destCore → t.core cl p = s.core cl p) ∧
       (k.destUnit = 5 → taken (.packetCoreLmAll cl) fun t =>
         ∀ c, c < 128 → Memory.read (t.core cl (x.pcore c)).lm a k.data.length = k.data)) ∧
     (k.destUnit = 6 →
       let ctx := k.addr % 4
       (x.weave.valid.getD ctx false = false → taken (.packetWeaveCtx cl) fun t =>
         ∀ p ∈ payloadWords k (bits k.addr 8 9) 512, (t.cl cl).weave.img ctx (8 * p.1) 8 = p.2.toNat) ∧
       (x.weave.valid.getD ctx false = true → Completes (.packetWeaveCtx cl) s fun t =>
         (t.cl cl).weave.images = x.weave.images ∧ Answered s t cl k 5 [])) ∧
     (k.destUnit = 7 → taken (.packetVft cl) fun t =>
       ∀ p ∈ payloadWords k (bits k.addr 0 10) 1024, ∀ i, i < 4 →
         (t.cl cl).vftEntry (4 * p.1 + i) = BitVec.ofNat 16 (fld p.2 (16 * i) 16) &&& 0xFF3F#16) ∧
     (k.destUnit = 8 → k.addr % 8 = 0 → k.addr + k.data.length ≤ 2 ^ 20 → taken (.packetMicrocode cl) fun t =>
       Memory.read (t.cl cl).microcode k.addr k.data.length = k.data)) ∧
  (∀ (s : State) (b cl : Nat) (k : Packet) (key : BitVec 512), b < 336 → (s.bay b).arrived = [(cl, k)] →
     k.tint = (s.bay b).tint → k.destUnit = 0x10 →
     let x := s.bay b
     let off := bits k.addr 0 36
     x.keyFor (bits k.addr 36 6) k.tint = some key → x.retiring = none → x.lineErr = [] →
     (s.router cl).arrived = [] → s.answerRoom cl k = true →
     (k.ptype ≤ 1 → off % 64 = 0 → k.data.length = 64 → s.windowOk k.tint off 64 = true →
       Completes (.packetBay b) s fun t =>
         Memory.read (t.bay b).stack off 64 = k.data ∧ SMap.get none (t.bay b).lineKey (off / 64) = some key ∧
         (∀ a, a < off ∨ off + 64 ≤ a → Memory.readByte (t.bay b).stack a = Memory.readByte x.stack a) ∧
         (t.bay b).arrived = [] ∧ Answered s t cl k 4 []) ∧
     (let n := leNat ((k.payload.drop 8).take 4)
      k.ptype = 2 → off % 64 = 0 → n % 64 = 0 → 1 ≤ n → n ≤ 256 → off / 256 = (off + n - 1) / 256 →
       s.windowOk k.tint off n = true → (∀ i, i < n / 64 → SMap.get none x.lineKey (off / 64 + i) = some key) →
       Completes (.packetBayReadReq b) s fun t =>
         (t.bay b).stack = x.stack ∧ (t.bay b).arrived = [] ∧ Answered s t cl k 3 (Memory.read x.stack off n)))

/-- An answer in time returns the credit of the packet it answers, an ACK_ERR counts in CL_RT_ACK_ERR, one for no packet in
CL_RT_LATE; a packet unanswered beyond CL_RT_ACK_TIMEOUT gives its credit back and raises E2E_LOST. A source channel
with nothing outstanding changes to the new epoch; a router whose reset ends is up unless it has become a hole meanwhile, with the links that retrained UP
and the others OUT, where both ends are in service. -/
def Obligations.AnswersAndEpochs : Prop :=
  (∀ (s : State) (cl : Nat), cl < 4032 →
     (∀ (k : Packet) (o : Outstanding), (s.router cl).arrived = [k] → k.tint = s.clTint cl →
       (s.router cl).outstanding = [o] → o.unit = k.destUnit → o.sub = k.destCore → o.seq = k.seq → o.leaves ≤ 1 →
       s.tooLate cl o = false →
       let back (t : State) : Prop := (t.router cl).arrived = [] ∧ (t.router cl).outstanding = [] ∧ OtherClusters s t cl
       (k.ptype = 3 → Completes (.packetReadResp cl) s back) ∧
       (k.ptype = 4 → o.channel = k.ackCh → Completes (.packetAck cl) s back) ∧
       (k.ptype = 5 → o.channel = k.ackCh → Completes (.packetAckErr cl) s fun t => back t ∧
         t.reg (.cluster cl) Off.CL_RT_ACK_ERR = s.reg (.cluster cl) Off.CL_RT_ACK_ERR + 1#64)) ∧
     (∀ k : Packet, (s.router cl).arrived = [k] → k.tint = s.clTint cl → (s.router cl).outstanding = [] → k.ptype = 4 →
       Completes (.packetAck cl) s fun t =>
         t.reg (.cluster cl) Off.CL_RT_LATE = s.reg (.cluster cl) Off.CL_RT_LATE + 1#64 ∧ (t.router cl).arrived = []) ∧
     (∀ o : Outstanding, (s.router cl).outstanding = [o] →
       fld (s.reg (.cluster cl) Off.CL_RT_ACK_TIMEOUT) 0 32 < (s.clTime cl - o.sentAt).toNat →
       Completes (.e2eLost cl) s fun t =>
         (t.router cl).outstanding = [] ∧ bit (t.cl cl).page.fault 8 = true ∧
         (∀ k, k ≠ cl → t.router k = s.router k) ∧ (o.unit ≠ 0x10 → OtherClusters s t cl))) ∧
  (∀ (s : State) (cl n : Nat), cl < 4032 →
     (n ∉ (s.router cl).busyKeys → Completes (.epochChannelChange cl n) s fun t =>
       t.router cl = { s.router cl with flipping := (s.router cl).flipping.erase n } ∧ OtherClusters s t cl) ∧
     (∀ ns : List Nat, (s.router cl).resetting = true → Completes (.routerResetComplete cl ns) s fun t =>
       (t.router cl).resetting = false ∧ (t.router cl).up = (s.bayOk (clBay cl) && !(s.cl cl).hole) ∧
       ∀ p nb, p < 8 → neighbour cl p = some nb → s.bayOk (clBay cl) = true → (s.cl cl).hole = false →
         s.inService nb = true → ((t.router cl).link p).state = if p ∈ ns then .up else .out))

/-- CL_RT_CMD and the tables: ARM starts the check of an epoch that is not current, INVALIDATE ends its validity,
FLIP makes a valid epoch current with the busy channels still to change, RESET clears an idle router, whose links are OUT meanwhile; an access to
CL_RT_DATA reads a word or writes one of an epoch that is not valid. -/
def Obligations.RouterCommands : Prop :=
  ∀ (s : State) (cl : Nat) (v : BitVec 64), cl < 4032 → Reaches s.toChip (.cluster cl) →
    let r := s.router cl
    let e := b2n (bit v 0)
    (bit v 8 = true → bit v 9 = false → bit v 10 = false → bit v 11 = false → r.epochHeld e = false →
      Completes (.routeArm cl v) s fun t =>
        (t.page (.cluster cl)).check = some (.routeArm e) ∧ t.router cl = r ∧ OtherClusters s t cl) ∧
    (bit v 8 = false → bit v 9 = true → bit v 10 = false → bit v 11 = false → r.epochHeld e = false →
      Completes (.routeInvalidate cl v) s fun t =>
        (t.router cl).valid e = false ∧ (t.router cl).valid (1 - e) = r.valid (1 - e) ∧ OtherClusters s t cl) ∧
    (bit v 8 = false → bit v 9 = false → bit v 10 = true → bit v 11 = false → r.valid e = true →
      bit s.bringup.done 6 = true → Completes (.flip cl v) s fun t =>
        t.router cl = { r with cur := e, flipping := r.busyKeys } ∧ OtherClusters s t cl) ∧
    (bit v 8 = false → bit v 9 = false → bit v 10 = false → bit v 11 = true → s.holdsFlit cl = false →
      s.sourcesBusy cl = false → Completes (.routerReset cl v) s fun t =>
        (t.router cl).up = false ∧ (t.router cl).resetting = true ∧ (t.router cl).route = [] ∧
        (t.router cl).mcast = [] ∧ (∀ i, (t.router cl).valid i = false) ∧
        ∀ p nb, p < 8 → neighbour cl p = some nb → ((t.router cl).link p).state = .out) ∧
    (let a := s.reg (.cluster cl) Off.CL_RT_ADDR
     let w := fld a 8 11
     bit a 1 = false → w < 1120 →
      (Completes (.rtDataAccess cl none) s fun t =>
        t.out = s.out ++ [.readData (r.routeWord (fld a 0 1) w)] ∧ t.router cl = r ∧
        fld (t.reg (.cluster cl) Off.CL_RT_ADDR) 8 11 = (w + 1) % 2048) ∧
      (r.valid (fld a 0 1) = false → Completes (.rtDataAccess cl (some v)) s fun t =>
        (t.router cl).routeWord (fld a 0 1) w = v ∧
        ∀ e' w', 2048 * e' + w' ≠ 2048 * fld a 0 1 + w → (t.router cl).routeWord e' w' = r.routeWord e' w') ∧
      (r.valid (fld a 0 1) = true → Completes (.rtDataAccess cl (some v)) s fun t =>
        t.router cl = { r with writeDrop := true }))

/-- GB_STEP_START arms a step for an instant at least 2 us ahead and GB_STEP_RETRY arms it again; too near an
instant is refused with 0x0101 and a step already armed or running with 0x0206. At the armed instant every STOPPED
logical core of the gable starts and the step runs; a gable in pre-emption waits. The end of an attempt records its
instant, ELAPSED and DELTA; the six stalls are 0 when ELAPSED does not exceed REPORT and otherwise sum to the
difference; the meter period counts the step once. -/
def Obligations.StepsOfAGable : Prop :=
  (∀ (s : State) (t : Nat) (v : BitVec 64), 1 ≤ t → t ≤ 64 → Reaches s.toChip (.gable t) →
     let g := s.gable t
     let refused (i : Instr) (code off : Nat) : Prop := Completes i s fun u =>
       (u.gable t).page.refused = true ∧ (u.gable t).page.refusal = refusalWord code off 0 ∧
       (u.gable t).step = g.step ∧ (u.gable t).stepAt = g.stepAt
     (s.now.toNat + 2000 ≤ v.toNat → g.step ≠ .armed → g.step ≠ .running → Completes (.stepStartWrite t v) s fun u =>
       (u.gable t).step = .armed ∧ (u.gable t).stepAt = v ∧ (u.gable t).firstStart = none ∧ (u.gable t).charged = []) ∧
     (v.toNat < s.now.toNat + 2000 → refused (.stepStartWrite t v) 0x0101 Off.GB_STEP_START) ∧
     (s.now.toNat + 2000 ≤ v.toNat → g.step = .armed ∨ g.step = .running →
       refused (.stepStartWrite t v) 0x0206 Off.GB_STEP_START) ∧
     (s.now.toNat + 2000 ≤ v.toNat → g.step ≠ .idle → Completes (.stepRetry t v) s fun u =>
       (u.gable t).step = .armed ∧ (u.gable t).stepAt = v ∧ (u.gable t).firstStart = g.firstStart ∧
       (u.gable t).charged = g.charged) ∧
     (v.toNat < s.now.toNat + 2000 → refused (.stepRetry t v) 0x0101 Off.GB_STEP_RETRY)) ∧
  (∀ (s : State) (t : Nat), 1 ≤ t → t ≤ 64 → (s.gable t).step = .armed → (s.gable t).stepAt.toNat ≤ s.now.toNat →
     (s.preempted t = false → Completes (.stepStartInstant t) s fun u =>
       (u.gable t).step = .running ∧
       (∀ cl ∈ s.gableLive t, ∀ p ∈ (s.cl cl).mappedCores, (s.core cl p).run = .stopped →
         (u.core cl p).run = .running ∧ (u.core cl p).cause = .none ∧ (u.core cl p).pc = (s.core cl p).pc) ∧
       ((s.gable t).firstStart = none → u.reg (.gable t) Off.GB_STEP_T_START = (s.gable t).stepAt)) ∧
     (s.preempted t = true → Completes (.stepStartInstant t) s fun u => u = s)) ∧
  (∀ (s : State) (t : Nat), 1 ≤ t → t ≤ 64 → (s.gable t).step = .running → s.attemptOver t = true →
     let g := s.gable t
     let f := s.gableFreq t
     let elapsed := nominal s.now.toNat f - nominal (g.firstStart.getD g.stepAt).toNat f
     let report := (s.reg (.gable t) Off.GB_STEP_REPORT).toNat
     let stall (u : State) (i : Nat) : BitVec 64 := u.reg (.gable t) (Off.GB_STALL_PREEMPT + 8 * i)
     Completes (.attemptEnd t) s fun u =>
       (u.gable t).step = .ended ∧
       u.reg (.gable t) Off.GB_STEP_ELAPSED = BitVec.ofNat 64 elapsed ∧
       u.reg (.gable t) Off.GB_STEP_T_END = s.now ∧
       u.reg (.gable t) Off.GB_STEP_DELTA = BitVec.ofInt 64 ((elapsed : Int) - report) ∧
       (elapsed ≤ report → ∀ i, i < 6 → stall u i = 0#64) ∧
       (report < elapsed →
         stall u 0 + stall u 1 + stall u 2 + stall u 3 + stall u 4 + stall u 5 = BitVec.ofNat 64 (elapsed - report)) ∧
       (g.meter.isOpen = true →
         (u.gable t).meter.steps = g.meter.steps + (if g.charged = [] then 1 else 0)) ∧
       ∀ cl p, u.core cl p = s.core cl p)

/-- The receive table: ARM from 0 starts its check with the written ATTEMPT, ARM = 0 disarms and keeps the
configuration; a configuration word is read, and written while not armed; DIGEST_CMD.GO starts a digest, which at
its end reads in the digest registers. Decisions of an armed RECV entry that waits, with no payload left to write: a copy that completes in time is
chosen at once from DUE on and held before it; DUE reached with no copy opens a FABRIC window; DEADLINE passed with
no copy makes the entry MISSING and raises its fault; an acknowledged selection word lets the FLAG
packet of DONE_FLAG go from the port that the chosen copy came to. -/
def Obligations.ReceiveTable : Prop :=
  (∀ (s : State) (t : Nat) (v : BitVec 64), 1 ≤ t → t ≤ 64 →
     let g := s.gable t
     (Reaches s.toChip (.gable t) →
       (bit v 0 = true → g.redArm = false → Completes (.redArm t v) s fun u =>
         (u.page (.gable t)).check = some .redArm ∧ (u.gable t).redAttempt = fld v 8 8 ∧ (u.gable t).red = g.red) ∧
       (g.redArm = true → Completes (.redDisarm t) s fun u =>
         (u.gable t).redArm = false ∧ (u.gable t).redMem = g.redMem ∧ (u.gable t).redAttempt = g.redAttempt) ∧
       (let w := fld (s.reg (.gable t) Off.GB_RED_ADDR) 0 4
        let e := fld (s.reg (.gable t) Off.GB_RED_ADDR) 4 10
        w < 8 →
         (Completes (.redDataAccess t none) s fun u =>
           u.out = s.out ++ [.readData (BitVec.ofNat 64 (g.redCfg e (8 * w) 8))] ∧ (u.gable t).redMem = g.redMem) ∧
         (g.redArm = false → Completes (.redDataAccess t (some v)) s fun u =>
           (u.gable t).redCfg e (8 * w) 8 = v.toNat ∧
           ∀ b, b < 128 * e + 8 * w ∨ 128 * e + 8 * w + 8 ≤ b →
             Memory.readByte (u.gable t).redMem b = Memory.readByte g.redMem b) ∧
         (g.redArm = true → Completes (.redDataAccess t (some v)) s fun u =>
           (u.gable t).redMem = g.redMem ∧ bit (u.reg (.gable t) Off.GB_RED_STATUS) 0 = true)) ∧
       (bit v 16 = true → g.redDigest = none → Completes (.digestGo t v) s fun u =>
         (u.gable t).redDigest = some (fld v 0 16))) ∧
     (∀ l, g.redDigest = some l → Completes (.digestComplete t) s fun u =>
       (u.gable t).redDigest = none ∧
       u.reg (.gable t) Off.GB_RED_DSENT_LO = BitVec.ofNat 64 (leNat (slice (g.layerDigest 2 l) 0 8)) ∧
       u.reg (.gable t) Off.GB_RED_DSENT_HI = BitVec.ofNat 64 (leNat (slice (g.layerDigest 2 l) 8 8)) ∧
       u.reg (.gable t) Off.GB_RED_DRECV_LO = BitVec.ofNat 64 (leNat (slice (g.layerDigest 1 l) 0 8)) ∧
       u.reg (.gable t) Off.GB_RED_DRECV_HI = BitVec.ofNat 64 (leNat (slice (g.layerDigest 1 l) 8 8)))) ∧
  (∀ (s : State) (t e : Nat), 1 ≤ t → t ≤ 64 → e < 1024 → s.preempted t = false →
     let g := s.gable t
     let r := g.redEntry e
     (g.redArm = true → g.redKind e = 1 → r.state = 1 →
       (∀ (b : Bool) (st : BitVec 64), (r.copy b).stamp = some st → (r.copy b).broken = false → (r.copy b).cut = false →
         r.primary.complete = false → r.backup.complete = false → st.toNat ≤ g.redDeadline e →
         (∀ q ∈ s.eaves, q.2.waiting = []) →
         (g.redDue e ≤ s.now.toNat → Completes (.copyComplete t e b) s fun u =>
           ((u.gable t).redEntry e).state = 3 ∧ ((u.gable t).redEntry e).chosen = (if b then 2 else 1) ∧
           (((u.gable t).redEntry e).copy b).complete = true) ∧
         (s.now.toNat < g.redDue e → Completes (.copyComplete t e b) s fun u =>
           ((u.gable t).redEntry e).state = 2 ∧ (((u.gable t).redEntry e).copy b).complete = true)) ∧
       (g.redDue e ≤ s.now.toNat → s.now.toNat ≤ g.redDeadline e → r.late = false → r.primary.complete = false →
         r.backup.complete = false → Completes (.dueReached t e) s fun u =>
           (u.gable t).windows = g.windows ++ [⟨.fabric, BitVec.ofNat 64 (g.redDue e), none⟩] ∧
           ((u.gable t).redEntry e).state = 1) ∧
       (g.redDeadline e < s.now.toNat → r.primary.stamp = none → r.backup.stamp = none →
         Completes (.deadlinePassed t e) s fun u =>
           ((u.gable t).redEntry e).state = 4 ∧ bit (u.gable t).page.fault 8 = true ∧
           bit (u.reg (.gable t) Off.GB_RED_STATUS) 1 = true)) ∧
     (r.sel = .written → ∀ (s1 : Chip) (bs : List Byte),
       s.toChip.portFlag (r.copy (decide (r.chosen = 2))).port t (g.redLc e) (g.redFlag e) = .ok s1 bs →
       Completes (.selectionAck t e) s fun u =>
         ((u.gable t).redEntry e).sel = .flagged ∧ u.clusters = s1.clusters))

/-- Links of a port: TRAIN puts every link that is not UP in TRAINING, TAKE_OUT takes every link OUT with PORT_OUT,
an UP link that loses lock retrains on its own, up to three times in 10 ms, and a training ends UP on the lanes of R396 or, with too few at a commanded
training, OUT. Session entries: ENABLE of an IDLE entry starts its check, DISABLE returns it to IDLE with its
configuration words and without its key; EV_SESS_DATA reads a word, and writes one while the session is not OPEN. -/
def Obligations.PortLinksAndSessions : Prop :=
  (∀ (s : State) (p : Nat), p < 32 →
     (∀ v : BitVec 64, Reaches s.toChip (.eave p) →
       (bit v 0 = true → bit v 1 = false → s.attachOk p = true → s.module.ebTakes = false →
         Completes (.portTrain p v) s fun t => ∀ l ∈ s.evLinks p,
           (t.evLink p l).state = if (s.evLink p l).state = .up then .up else .training) ∧
       (bit v 0 = false → bit v 1 = true → Completes (.portTakeOut p v) s fun t =>
         (∀ l ∈ s.evLinks p, (t.evLink p l).state = .out) ∧
         ((∃ l ∈ s.evLinks p, (s.evLink p l).state ≠ .out) → bit (t.eave p).page.fault 1 = true))) ∧
     (∀ l, l < 2 → (s.evLink p l).state = .up → s.powered = true → Completes (.linkLockLoss p l) s fun t =>
       let recent := (s.evLink p l).retrains.filter fun at_ => decide ((s.now - at_).toNat ≤ 10000000)
       (recent.length < 3 → (t.evLink p l).state = .training ∧ (t.evLink p l).own = true ∧
         (t.evLink p l).retrains = recent ++ [s.now]) ∧
       (3 ≤ recent.length → (t.evLink p l).state = .out ∧ bit (t.eave p).page.fault 1 = true)) ∧
     (∀ l ns, l < 2 → (s.evLink p l).state = .training →
       let lanes := trainedLanes (s.evMode p) l ns
       (1 ≤ lanes.length → fld (s.evReg p Off.EV_CFG) 4 4 ≤ lanes.length → Completes (.eaveRetrainEnd p l ns) s fun t =>
         (t.evLink p l).state = .up ∧ (t.evLink p l).lanes = lanes) ∧
       (lanes = [] → (s.evLink p l).own = false → Completes (.eaveRetrainEnd p l ns) s fun t =>
         (t.evLink p l).state = .out ∧ bit (t.eave p).page.fault 1 = true))) ∧
  (∀ (s : State) (p : Nat) (v : BitVec 64), p < 32 → Reaches s.toChip (.eave p) →
     let i := fld v 0 9
     (bit v 9 = true → bit v 10 = false → (s.session p i).state = 0 → Completes (.sessionEnable p v) s fun t =>
       (t.page (.eave p)).check = some (.session i) ∧ (t.eave p).sessions = (s.eave p).sessions) ∧
     (bit v 9 = false → bit v 10 = true → Completes (.sessionDisable p v) s fun t =>
       t.session p i = { words := (s.session p i).words } ∧ ∀ j, j ≠ i → t.session p j = s.session p j) ∧
     (let w := fld (s.reg (.eave p) Off.EV_SESS_ADDR) 0 3
      let e := fld (s.reg (.eave p) Off.EV_SESS_ADDR) 3 9
      w < 5 →
       (Completes (.sessDataAccess p none) s fun t =>
         t.out = s.out ++ [.readData ((s.session p e).word w)] ∧ (t.eave p).sessions = (s.eave p).sessions) ∧
       ((s.session p e).state ≠ 1 → Completes (.sessDataAccess p (some v)) s fun t =>
         (t.session p e).word w = v ∧ (∀ k, k ≠ w → (t.session p e).word k = (s.session p e).word k) ∧
         ∀ j, j ≠ e → t.session p j = s.session p j) ∧
       ((s.session p e).state = 1 → Completes (.sessDataAccess p (some v)) s fun t =>
         (t.eave p).sessions = (s.eave p).sessions)))

/-- Posts and sends: a post that reaches the port is queued and acknowledged, its descriptor, once read, starts a
send or, when R416 refuses it, raises SEND_BAD; the send whose turn it is sends its next frame under the session's
next PSN once its payload is read, and a frame due again is sent again, with the bytes before its Eave header that its
first sending had. Every received frame is counted; one that a check of R421 refuses changes no session; a
DATA frame that passes, new, not too old for the replay window and with room in the buffer, is taken into the record of its session; an ACK
that passes and is not older than the last takes the frames it covers out of flight. -/
def Obligations.EaveSendsAndReceives : Prop :=
  (∀ (s : State) (p : Nat), p < 32 →
     (∀ k rest, (s.eave p).arrived = k :: rest → s.powered = true → k.ptype = 1 → k.destUnit = 0x12 →
       (s.eave p).posts.length < 1024 → s.answerRoom (eaveCluster p) k = true → Completes (.postReceive p) s fun t =>
         (t.eave p).posts = (s.eave p).posts ++ [⟨k.srcLC, k.tint, k.addr % 2 ^ 24⟩] ∧ (t.eave p).arrived = rest ∧
         ∃ a : Packet, (t.router (eaveCluster p)).inbuf = (s.router (eaveCluster p)).inbuf ++ [{ port := 0xA, pkt := a }] ∧ a.ptype = 4 ∧
           a.seq = k.seq ∧ a.destLC = k.srcLC) ∧
     (∀ q rest (s1 : Chip) (bs : List Byte), (s.eave p).posts = q :: rest → (s.eave p).sends.length < 16 →
       s.preempted q.tint = false → s.toChip.portRead p q.tint q.lc q.desc 64 = .ok s1 bs →
       let d := BitVec.ofNat 512 (leNat bs)
       Completes (.sendDescriptorRead p) s fun t => (t.eave p).posts = rest ∧
         (s1.sendBad p q.tint d = false →
           (t.eave p).sends = (s1.eave p).sends ++ [⟨(s1.eave p).nextSend, d, q.lc, q.tint, 0⟩]) ∧
         (s1.sendBad p q.tint d = true → (t.eave p).sends = (s1.eave p).sends ∧ bit (t.eave p).page.fault 3 = true)) ∧
     (∀ n, let s0 := (s.toChip.flushAcks p).finishSends p
       let x := s0.session p n
       (∀ d (s1 : Chip) (bs : List Byte), x.inflight.find? (·.due) = none →
         (s0.eave p).sends.find? (s0.sendReady p) = some d → recFld d.desc 4 2 = x.id → x.state = 1 →
         let f := s0.nextFrame d x
         s0.portRead p x.tintOf f.lc f.src f.len = .ok s1 bs → Completes (.frameSend p n) s fun t =>
           (t.session p n).txPsn = (s1.session p n).txPsn + 1 ∧
           (t.eave p).sends = (s1.eave p).sends.erase d ++ [{ d with next := d.next + f.len }] ∧
           ∃ outer rest, (t.session p n).inflight = (s1.session p n).inflight ++ [{ f with outer }] ∧
             t.out = s1.out ++ [.frame p (s1.session p n).link (outer ++ rest)]) ∧
       (∀ f (s1 : Chip) (bs : List Byte), x.inflight.find? (·.due) = some f → s0.mayData p x f.len = true →
         s0.portRead p x.tintOf f.lc f.src f.len = .ok s1 bs → Completes (.frameSend p n) s fun t =>
           (t.session p n).inflight = ((s1.session p n).inflight.map fun g => if g.frame.psn = f.frame.psn
             then { g with sendings := g.sendings + 1, sentAt := s1.now, due := false } else g) ∧
           (t.session p n).txPsn = (s1.session p n).txPsn ∧
           ∃ outer rest, (f.outer ≠ [] → outer = f.outer) ∧
             t.out = s1.out ++ [.frame p (s1.session p n).link (outer ++ rest)]))) ∧
  (∀ (s : State) (p link : Nat) (rx : RxFrame), p < 32 → link < 2 → (s.evLink p link).state = .up → s.powered = true →
     let psn := rx.hf 8 6
     let s0 := s.toChip.drainPort p
     let s1 := (s0.count (.eave p) Off.EV_RX_FRAMES 1).count (.eave p) Off.EV_FEC_CORR rx.fecCorr
     (rx.type = 1 → Completes (.dataFrameReceive p link rx) s fun t =>
       t.evReg p Off.EV_RX_FRAMES = s0.evReg p Off.EV_RX_FRAMES + 1#64 ∧
       match s1.rxCheck p link rx with
       | .error _ => (t.eave p).sessions = (s0.eave p).sessions ∧ t.out = s0.out
       | .ok (i, plain) => (s0.session p i).rxH ≤ psn + 1023 → psn ∉ (s0.session p i).rxSeen →
         (s0.eave p).held + plain.length ≤ rxBuffer →
         (t.session p i).rxH = max (s0.session p i).rxH psn ∧ psn ∈ (t.session p i).rxSeen) ∧
     (rx.type = 2 → Completes (.ackFrameReceive p link rx) s fun t =>
       t.evReg p Off.EV_RX_FRAMES = s0.evReg p Off.EV_RX_FRAMES + 1#64 ∧
       match s1.rxCheck p link rx with
       | .error _ => (t.eave p).sessions = (s0.eave p).sessions ∧ t.out = s0.out
       | .ok (i, _) => (∀ q, (s0.session p i).lastAckPsn = some q → q < psn) →
         (t.session p i).lastAckPsn = some psn ∧ ∀ f ∈ (t.session p i).inflight, rx.covers f.frame.psn = false))

/-- Timers, rates and pause of a port, and the watch registers of a cluster. -/
def Obligations.PortTimersAndPause : Prop :=
  (∀ (s : State) (p i : Nat), p < 32 → i < 512 →
    let x := s.session p i
    x.state = 1 →
    (x.sinceAck ≠ 0 → fld (s.evReg p Off.EV_ACK_CFG) 16 16 ≤ (s.now - x.firstAt).toNat → s.mayStart p x = true → s.allows p x 0 = true →
      Completes (.ackDelayExpire p i) s fun t =>
        (t.session p i).sinceAck = 0 ∧ (t.session p i).ackPsn = x.ackPsn + 1 ∧ ∃ bs, t.out = s.out ++ [.frame p x.link bs]) ∧
    (∀ f, x.inflight = [f] → f.due = false → s.timersHold (s.eave p) x = false →
      fld (s.evReg p Off.EV_RTO) 0 32 < (s.now - f.sentAt).toNat →
      (f.sendings < fld (s.evReg p Off.EV_RTO) 32 8 → Completes (.rtoExpire p i f.frame.psn) s fun t =>
        (t.session p i).inflight = [{ f with due := true, fastResent := false }] ∧
        t.evReg p Off.EV_RTO_FIRES = s.evReg p Off.EV_RTO_FIRES + 1#64) ∧
      (fld (s.evReg p Off.EV_RTO) 32 8 ≤ f.sendings → Completes (.rtoExpire p i f.frame.psn) s fun t =>
        (t.session p i).state = 2 ∧ bit (t.eave p).page.fault 0 = true)) ∧
    (s.steady p x = true → Completes (.rateInterval p i) s fun t =>
      (t.session p i).rate = min (2000 * (s.evLink p x.link).lanes.length) (x.rate + fld (s.evReg p Off.EV_RC_CFG) 40 8))) ∧
  (∀ (s : State) (p prio n : Nat), p < 32 → prio < 8 →
    (s.powered = true → bit (s.evReg p Off.EV_PFC_CFG) (32 + prio) = true → Completes (.pfcFrameReceive p prio n) s fun t =>
      SMap.get 0 (t.eave p).paused prio = n ∧ t.evReg p Off.EV_PFC_RX = s.evReg p Off.EV_PFC_RX + 1#64) ∧
    (Completes (.pfcQuantaExpire p prio) s fun t => SMap.get 0 (t.eave p).paused prio = 0)) ∧
  ∀ (s : State) (cl i : Nat) (v : BitVec 64), cl < 4032 → i < 8 → Reaches s.toChip (.cluster cl) →
    let w := v &&& 0x80003FFFFF1FFFFF#64
    let fits := fld w 0 6 ≤ 47 ∧ fld w 42 4 ≤ 8 ∧ (fld w 24 18 + 2 ^ fld w 42 4) * 64 ≤ storeSize
    (bit w 63 = false ∨ fits → Completes (.evPostWrite cl i v) s fun t =>
      t.reg (.cluster cl) (Off.CL_EV_POST i) = w ∧ SMap.get 0 (t.cl cl).postCount i = 0 ∧ OtherClusters s t cl) ∧
    (bit w 63 = true → ¬ fits → Completes (.evPostWrite cl i v) s fun t =>
      (t.cl cl).page.refused = true ∧ (t.cl cl).page.refusal = refusalWord 0x0101 (Off.CL_EV_POST i) 0 ∧
      t.reg (.cluster cl) (Off.CL_EV_POST i) = s.reg (.cluster cl) (Off.CL_EV_POST i))

/-- The link trains to a width and speed, retrains with LINK_CHANGE and RETRAINS, goes down with its decoders and
IDE streams and without its queues, and an IDE stream stops. A vector unmasked is sent when it was pending; a
Function Level Reset returns the function's queue pages and vectors to reset and leaves those of the others. -/
def Obligations.HostLinkAndVectors : Prop :=
  (∀ (s : State),
     (∀ n m flag, s.link.up = false → s.module.standby = true → s.module.tapTakes = false → linkShape n m = true →
       Completes (.hostLinkTrain n m flag) s fun t =>
         t.link.up = true ∧ t.link.width = n ∧ t.link.speed = m ∧ t.link.cxl = (flag && decide (4 ≤ n) && decide (3 ≤ m)) ∧ t.link.queues = s.link.queues) ∧
     (∀ n m, s.link.up = true → linkShape n m = true → Completes (.hostLinkRetrain n m) s fun t =>
       t.link.up = true ∧ t.link.width = n ∧ t.link.speed = m ∧ t.link.linkChange = true ∧
       t.link.retrains = min 65535 (s.link.retrains + 1)) ∧
     (s.link.up = true → Completes .hostLinkDown s fun t =>
       t.link.up = false ∧ t.link.width = 0 ∧ t.link.ioIde = false ∧ t.link.cmIde = false ∧
       t.link.queues = s.link.queues ∧ t.link.deviceBias = s.link.deviceBias ∧
       ∀ w, (t.link.window w).committed = false) ∧
     (∀ flag, Completes (.ideStreamStop flag) s fun t =>
       t.link.ioIde = (s.link.ioIde && !flag) ∧ t.link.cmIde = (s.link.cmIde && flag) ∧ t.out = s.out)) ∧
  (∀ (s : State) (fn : Nat), fn < 65 →
     (∀ vec, vec < vectorsOf fn → s.link.held = false → Completes (.msixUnmask fn vec) s fun t =>
       t.link.vecMasked (2048 * fn + vec) = false ∧
       t.out = s.out ++ (if 2048 * fn + vec ∈ s.link.pendingVec then [.vector fn vec] else [])) ∧
     (Completes (.functionLevelReset fn) s fun t =>
       (∀ q, q < 64 → t.queue fn q = {}) ∧ (∀ v ∈ t.link.pendingVec, v / 2048 ≠ fn) ∧
       (∀ f q, f ≠ fn → q < 64 → t.queue f q = s.queue f q) ∧ t.gables = s.gables))

/-- The queue registers: SQ_TAIL within the ring is taken, beyond it sets DOORBELL_OVF and ERROR; an admitted ENABLE
starts a ring empty, a refused one records its code; a disable aborts what is in progress; a watched line is read again
from the host while CXL.cache serves, and advances the tail when its PHASE is new; else nothing happens. -/
def Obligations.QueueRegisters : Prop :=
  ∀ (s : State) (fn q : Nat) (v : BitVec 64), queueOk fn q = true →
    let p := s.queue fn q
    let reg (t : State) (off : Nat) : Nat := (t.queue fn q).reg fn off
    (p.watch fn = false →
      (sub16 (v.toNat % 65536) (p.reg fn Off.HQ_SQ_HEAD) ≤ 2 ^ p.sqLog fn → Completes (.sqDoorbell fn q v) s fun t =>
        reg t Off.HQ_SQ_TAIL = v.toNat % 65536 ∧ reg t Off.HQ_SQ_HEAD = reg s Off.HQ_SQ_HEAD) ∧
      (2 ^ p.sqLog fn < sub16 (v.toNat % 65536) (p.reg fn Off.HQ_SQ_HEAD) → Completes (.sqDoorbell fn q v) s fun t =>
        (t.queue fn q).ovf = true ∧ (t.queue fn q).error = true ∧ reg t Off.HQ_SQ_TAIL = reg s Off.HQ_SQ_TAIL)) ∧
    (Completes (.cqHeadWrite fn q v) s fun t =>
      reg t Off.HQ_CQ_HEAD = v.toNat % 65536 ∧ reg t Off.HQ_CQ_TAIL = reg s Off.HQ_CQ_TAIL) ∧
    (bit v 5 = true → bit v 4 = false → p.sqEnable = false → p.cqEnable = true →
      (4 ≤ fld v 0 4 → fld v 0 4 ≤ 12 → Completes (.sqEnable fn q v) s fun t =>
        (t.queue fn q).sqEnable = true ∧ reg t Off.HQ_SQ_HEAD = 0 ∧ reg t Off.HQ_SQ_TAIL = 0 ∧
        (t.queue fn q).error = false ∧ reg t Off.HQ_REFUSAL = 0) ∧
      (fld v 0 4 < 4 → Completes (.sqEnable fn q v) s fun t =>
        (t.queue fn q).sqEnable = false ∧ reg t Off.HQ_REFUSAL = 0x0101)) ∧
    (bit v 5 = false → p.sqEnable = true → Completes (.sqDisable fn q v) s fun t =>
      (t.queue fn q).sqEnable = false ∧
      ∀ c ∈ t.link.running, c.fn = fn → c.queue = q → c.done = true ∨ c.abort = true) ∧
    (bit v 4 = true → p.cqEnable = false → 4 ≤ fld v 0 4 → fld v 0 4 ≤ 14 →
      (if fn = 0 then 213 ≤ fld v 16 11 ∧ fld v 16 11 ≤ 2047 else 2 ≤ fld v 16 11 ∧ fld v 16 11 ≤ 63) →
      Completes (.cqEnable fn q v) s fun t =>
        (t.queue fn q).cqEnable = true ∧ reg t Off.HQ_CQ_HEAD = 0 ∧ reg t Off.HQ_CQ_TAIL = 0) ∧
    (∀ ns, s.link.cxlServes = false → Completes (.watchedLineSnoop fn q ns) s fun t => t = s) ∧
    (∀ b, s.link.cxlServes = true → p.sqEnable = true → p.error = false → p.watch fn = true →
      reg s Off.HQ_SQ_TAIL < 65536 →
      sub16 (p.reg fn Off.HQ_SQ_TAIL) (p.reg fn Off.HQ_SQ_HEAD) < 2 ^ p.sqLog fn →
      Completes (.watchedLineSnoop fn q [b]) s fun t =>
        t.out = s.out ++ [.cacheRead fn (p.reg fn Off.HQ_SQ_BASE + 64 * (reg s Off.HQ_SQ_TAIL % 2 ^ p.sqLog fn))] ∧
        reg t Off.HQ_SQ_TAIL =
          if (b % 2 = 1) = passPhase (reg s Off.HQ_SQ_TAIL) (p.sqLog fn) then (reg s Off.HQ_SQ_TAIL + 1) % 65536
          else reg s Off.HQ_SQ_TAIL)

/-- Queue commands: the next entry starts with the checks of R447, NOP ends at once, and an ended command writes its
completion entry, advances its rings and signals its vector. The transfers: HOST_TO_STACK asks the host for a line in requests the link allows, for the tint it acts in, and writes the one
returned under its key and STACK_TO_HOST sends a chunk to the host in payloads the link allows, each once its packet is answered; a LOAD and a
FLAG inject their packets at the attach router. -/
def Obligations.QueueCommands : Prop :=
  (∀ s : State,
     (∀ fn q cmd, queueOk fn q = true → s.hibStarts = true →
       rotate (some s.link.lastQueue) s.readyOrders = some (queueOrder fn q) →
       let p := s.queue fn q
       let c : HibCmd := { fn, queue := q, cmd, ix := p.started }
       c.fence = false → s.preempted c.tint = false → Completes (.hibCommandStart fn q cmd) s fun t =>
         t.out = s.out ++ [.hostRead fn (p.reg fn Off.HQ_SQ_BASE + 64 * (p.started % 2 ^ p.sqLog fn)) 64] ∧
         (t.queue fn q).started = (p.started + 1) % 65536 ∧
         ∃ d : HibCmd, t.link.running = s.link.running ++ [d] ∧ d.fn = fn ∧ d.queue = q ∧ d.cmd = cmd ∧
           d.status = (if c.bad then 1 else if s.badTint c then 2 else 0) ∧ (d.done = true ↔ d.status ≠ 0)) ∧
     (∀ n c, s.hibWorks n 0 = some c → Completes (.cmdNop n) s fun t =>
       t.hibCmd n = some { c with status := 0, done := true } ∧ t.out = s.out) ∧
     (∀ n c status, s.hibCmd n = some c → c.ended = some status → c.silent = false → s.link.held = false →
       let p := s.queue c.fn c.queue
       let tail := p.reg c.fn Off.HQ_CQ_TAIL
       let k := p.cqLog c.fn
       p.cqFull c.fn = false → p.cqEnable = true → Completes (.commandComplete n) s fun t =>
         t.link.running = s.link.running.eraseIdx n ∧
         (t.queue c.fn c.queue).reg c.fn Off.HQ_CQ_TAIL = (tail + 1) % 65536 ∧
         t.out = s.out ++ [.hostWrite c.fn (p.reg c.fn Off.HQ_CQ_BASE + 16 * (tail % 2 ^ k))
           (completionEntry c ((t.queue c.fn c.queue).reg c.fn Off.HQ_SQ_HEAD) status (passPhase tail k) s.now)] ++
           (if s.link.vecMasked (2048 * c.fn + p.vector c.fn) then [] else [.vector c.fn (p.vector c.fn)])) ∧
     (∀ n c, s.hibCmd n = some c → c.done = false → c.abort = false → c.op = 1 →
       Completes (.hostReadTimeout n) s fun t => t.hibCmd n = some { c with status := if c.status = 0 then 4 else c.status, next := c.len })) ∧
  (∀ (s : State) (n : Nat) (c : HibCmd),
     let x := s.bay c.target
     let r := s.router s.hibCluster
     let injected (t : State) (unit ch : Nat) (payload : List Byte) : Prop :=
       ∃ k : Packet, (t.router s.hibCluster).inbuf = r.inbuf ++ [{ port := 0xA, pkt := k }] ∧ k.destUnit = unit ∧ k.channel = ch ∧
         k.tint = c.tint ∧ k.srcUnit = 0x13 ∧ k.payload = payload
     (∀ (bs : List Byte) (s1 : Chip) (rs : List Byte) (seq : Nat), s.hibWorks n 1 = some c → bs.length = 64 →
       c.next + 64 ≤ c.len → (c.dev + c.next) % 64 = 0 → s.hibAttached = true →
       (s.toChip.hostGet c.tint (c.host + c.next) 64).hibWrite c.target c.key c.tint (c.dev + c.next) bs false =
         (.ok s1 rs, seq) →
       Completes (.hostToStack n (some bs)) s fun t =>
         t.hibCmd n = some { c with next := c.next + 64 } ∧ t.bays = s1.bays ∧
         Memory.read (t.bay c.target).stack (c.dev + c.next) 64 = bs ∧
         SMap.get none (t.bay c.target).lineKey ((c.dev + c.next) / 64) = x.keyFor c.key c.tint) ∧
     (∀ (s1 : Chip) (bs : List Byte) (seq : Nat), s.hibWorks n 2 = some c → c.next < c.len → s.hibAttached = true →
       let at_ := c.dev + c.next
       let len := c.len - c.next
       at_ % 256 + len ≤ 256 → s.toChip.hibRead c.target c.key c.tint at_ len false = (.ok s1 bs, seq) →
       Completes (.stackToHost n) s fun t =>
         t.hibCmd n = some { c with next := c.len } ∧ t.out = (s1.hostPut c.tint (c.host + c.next) bs).out ∧
         (∀ key, x.keyFor c.key c.tint = some key →
           (∀ l, 64 * l < at_ + len → at_ < 64 * l + 64 → SMap.get none x.lineKey l = some key) →
           bs = Memory.read x.stack at_ len)) ∧
     (s.hibWorks n 1 = some c → Completes (.hostToStack n none) s fun t =>
       t.hibCmd n = some { c with
         status := if c.status = 0 then 4 else c.status, next := c.len, done := c.waits.isEmpty }) ∧
     (∀ bs : List Byte, s.hibWorks n 3 = some c → c.len ≠ 0 → s.hibAttached = true → c.next < c.packets →
       bs.length = min c.pkt (c.len - c.next * c.pkt) → s.hibMayInject 14 = true →
       Completes (.load n (some bs)) s fun t =>
         injected t c.unit 14 (leBytes 8 (loadForm c.unit (c.dev + c.next * c.pkt)) ++ bs) ∧
         ∃ d : HibCmd, t.hibCmd n = some d ∧ d.next = c.next + 1 ∧ d.waits.length = c.waits.length + 1) ∧
     (s.hibWorks n 4 = some c → s.hibAttached = true → c.next = 0 → s.hibMayInject 11 = true →
       Completes (.cmdFlag n) s fun t =>
         injected t 3 11 (leBytes (2 * c.len) c.dev) ∧
         ∃ d : HibCmd, t.hibCmd n = some d ∧ d.next = 1 ∧ d.waits.length = 1))

/-- HOST packets whose answer has room: data is written to host memory, in payloads the link allows, and acknowledged,
an empty or longer one refused; a read request goes to the host, and the host's
answer travels back as its READ_RESP, which gives its source the credit back. HDM windows: ENABLE admits a window that passes its check, every region in host
bias; a decoder commits over exactly its enabled window; CXL.mem reads and writes, with none waiting before them, reach the line of its stack
once their packet is answered; a bias flip is BUSY until no request of its regions is with the host and then gives its regions the bias. -/
def Obligations.HostPacketsAndWindows : Prop :=
  (∀ (s : State) (cl : Nat) (k : Packet),
     let len := leNat ((k.payload.drop 8).take 4)
     let kind := leNat ((k.payload.drop 12).take 1)
     let answer (t : State) (ptype : Nat) (payload : List Byte) : Prop :=
       ∃ a : Packet, (t.router cl).inbuf = (s.router cl).inbuf ++ [{ port := 0xA, pkt := a }] ∧ a.ptype = ptype ∧ a.seq = k.seq ∧
         a.destLC = k.srcLC ∧ a.payload = payload
     (cl < 4032 → k.destUnit = 0x13 → s.link.arrived = [(cl, k)] → s.link.held = false →
       s.answerRoom cl k = true →
       (k.ptype ≤ 1 → k.data ≠ [] → k.data.length ≤ 8184 → Completes (.packetHost cl) s fun t =>
         t.out = (s.toChip.hostPut k.tint k.addr k.data).out ∧ t.link.arrived = [] ∧ answer t 4 []) ∧
       (k.ptype ≤ 1 → k.data = [] ∨ 8184 < k.data.length → Completes (.packetHost cl) s fun t =>
         t.out = s.out ∧ t.link.arrived = [] ∧ answer t 5 []) ∧
       (k.ptype = 2 → kind = 0 → 1 ≤ len → len ≤ 4096 → Completes (.packetHost cl) s fun t =>
         t.out = (s.toChip.hostGet k.tint k.addr len).out ∧ t.link.arrived = [] ∧
         t.link.reads = s.link.reads ++ [(cl, k)])) ∧
     (∀ (n : Nat) (bs : List Byte) (s1 : Chip) (home : Nat), s.link.reads[n]? = some (cl, k) → kind ≠ 2 →
       bs.length = len → k.destUnit = 0x13 → k.srcUnit ≤ 0x0D →
       let s0 := s.toChip.modLinkH fun l => { l with reads := l.reads.eraseIdx n }
       let a := s0.answerTo cl k 3 bs
       s0.carry a maxHops cl = .at s1 home 8 → s1.delivers home a = true →
       ∀ o, answered (s1.router home).outstanding a = some o → s1.tooLate home o = false →
       Completes (.hostReadCompletion n (some bs)) s fun t =>
         t.link.reads = s.link.reads.eraseIdx n ∧
         (t.router home).outstanding = takeLeaf o (s1.router home).outstanding)) ∧
  (∀ (s : State) (w : Nat), w < 4 →
     (∀ v : BitVec 64, bit v 0 = true → (s.link.window w).enable = false → Completes (.windowEnable w v) s fun t =>
       let code := (s.modLinkH fun l => l.setReg (Off.HL_WIN_CFG w) (v &&& 0x7F7F3F3F7F00#64)).windowCheck w v
       (t.link.window w).enable = decide (code = 0) ∧ (t.link.window w).code = code ∧
       (code = 0 → ∀ r ∈ t.link.deviceBias, r / 2 ^ 20 ≠ w)) ∧
     (∀ n m k, Completes (.hdmCommit w n m k) s fun t =>
       ((t.link.window w).committed = true ↔
         n = w * 2 ^ 41 ∧ m = (s.link.shape w).size ∧ (s.link.window w).enable = true ∧ k = 1) ∧
       (t.link.window w).commitErr = !(t.link.window w).committed) ∧
     (∀ n, s.memReaches w n = true → s.link.memReqs = [] → biasKey w (n / 2 ^ 21) ∉ s.link.deviceBias →
       let b := (s.link.winPlace w (n / 64 * 64)).1
       let off := (s.link.winPlace w (n / 64 * 64)).2
       let x := s.link.shape w
       (∀ (s1 : Chip) (bs : List Byte) (seq : Nat), s.toChip.hibRead b x.key x.tint off 64 true = (.ok s1 bs, seq) →
         Completes (.cxlMemRead w n) s fun t =>
           t.out = s1.out ++ [.memData (some bs)] ∧ (t.bay b).stack = (s.bay b).stack ∧
           ∀ key, (s.bay b).keyFor x.key x.tint = some key → SMap.get none (s.bay b).lineKey (off / 64) = some key →
             bs = Memory.read (s.bay b).stack off 64) ∧
       (∀ (line : BitVec 512) (s1 : Chip) (bs : List Byte) (seq : Nat),
         s.toChip.hibWrite b x.key x.tint off (leBytes 64 line.toNat) true = (.ok s1 bs, seq) →
         Completes (.cxlMemWrite w n line) s fun t =>
         t.out = s1.out ++ [.memDone] ∧ Memory.read (t.bay b).stack off 64 = leBytes 64 line.toNat ∧
         ∀ a, a < off ∨ off + 64 ≤ a → Memory.readByte (t.bay b).stack a = Memory.readByte (s.bay b).stack a)) ∧
     (∀ v : BitVec 64, fld v 0 2 = w → bit v 3 = true → s.link.biasBusy = none → 1 ≤ fld v 32 21 →
       (s.link.window w).enable = true → fld v 12 20 + fld v 32 21 ≤ (s.link.shape w).regions →
       (bit v 2 = true → Completes (.biasToDevice v) s fun t =>
         t.link.biasBusy = some (w, true, fld v 12 20, fld v 32 21) ∧ t.link.deviceBias = s.link.deviceBias) ∧
       (bit v 2 = false → Completes (.biasToHost v) s fun t =>
         t.link.biasBusy = some (w, false, fld v 12 20, fld v 32 21) ∧ t.link.deviceBias = s.link.deviceBias)) ∧
     (∀ dev first count, s.link.biasBusy = some (w, dev, first, count) → s.link.biasPending w first count = false →
       Completes .biasFlipComplete s fun t =>
       t.link.biasBusy = none ∧ ∀ i, i < count → (biasKey w (first + i) ∈ t.link.deviceBias ↔ dev = true)))

/-- A register access: an 8-byte write to SCRATCH of a page stores the value and a read returns it; a page without
supply answers a read with all ones and raises UNREACH; an access of another size or alignment
changes no page but the HIB's, and a read so returns all ones.
CTRL of every page: ENABLE starts the check, whose end records the verdict, enabling the page or leaving a refusal;
DISABLE of a page other than a gable's takes effect at once; a soft reset ends with ENABLE, FAULT_CAUSE and the
check clear, IRQ_MASK and SCRATCH as they were. -/
def Obligations.PagesAndRegisters : Prop :=
  (∀ (s : State) (off : Nat), s.hibOn = true →
     (off % 8 = 0 →
       (∀ pg, s.regPlace off = .page pg 0x040 → Reaches s.toChip pg →
         (∀ v : BitVec 64, Completes (.registerWrite off 8 v) s fun t => (t.page pg).scratch = v ∧ t.out = s.out) ∧
         (Completes (.rcRead ⟨off, 8⟩) s fun t =>
           t.out = s.out ++ [.readData (s.page pg).scratch] ∧ (t.page pg).scratch = (s.page pg).scratch)) ∧
       (∀ pg o, s.regPlace off = .page pg o → s.reachable pg = false → Completes (.rcRead ⟨off, 8⟩) s fun t =>
         t.out.getLast? = some (.readData allOnes) ∧ bit t.hib.fault 0 = true)) ∧
     (∀ size, size ≠ 8 ∨ off % 8 ≠ 0 → off < bar2Base →
       (∀ v, Completes (.registerWrite off size v) s fun t =>
         bit t.hib.fault 1 = true ∧ ∀ pg, pg ≠ .hib → t.page pg = s.page pg) ∧
       (Completes (.rcRead ⟨off, size⟩) s fun t =>
         t.out.getLast? = some (.readData allOnes) ∧ bit t.hib.fault 1 = true ∧
         ∀ pg, pg ≠ .hib → t.page pg = s.page pg))) ∧
  (∀ (s : State) (pg : PageRef), pg.ok = true →
     (Reaches s.toChip pg →
       ((s.page pg).enable = false → Completes (.enableWrite pg) s fun t =>
         (t.page pg).check = some .enable ∧ (t.page pg).enable = false) ∧
       ((∀ g, pg ≠ .gable g) → Completes (.disableWrite pg) s fun t => (t.page pg).enable = false) ∧
       (Completes (.softReset pg) s fun t => (t.page pg).check = some .softReset)) ∧
     ((s.page pg).check = some .enable → s.enableWaits pg = false → Completes (.consistencyCheckComplete pg) s fun t =>
       (t.page pg).check = none ∧
       match s.enableVerdict pg with
       | none => (t.page pg).enable = true ∧ (t.page pg).refused = false
       | some f => (t.page pg).enable = (s.page pg).enable ∧ (t.page pg).refused = true ∧
         (t.page pg).refusal = refusalWord f.1 f.2.1 f.2.2) ∧
     ((s.page pg).check = some .softReset → Completes (.softResetComplete pg) s fun t =>
       (t.page pg).check = none ∧ (t.page pg).enable = false ∧ (t.page pg).fault = 0#64 ∧
       (t.page pg).irqMask = (s.page pg).irqMask ∧ (t.page pg).scratch = (s.page pg).scratch))

/-- The Wafer Map Table and its cluster windows: an entry of a logical cluster that is not committed is written, one
of a committed cluster is dropped; COMMIT starts its check and RELEASE frees a cluster whose core map is off. The
core map of a cluster, DEV_FENCE and DEV_ENGINE_ID: MAP_EN starts its check, a disable waits for no core and is
dropped while one runs and nothing holds it; the fence reads 0; the engine ID is fixed once step EAVE has started. -/
def Obligations.MapsAndEngineId : Prop :=
  (∀ (s : State) (v : BitVec 64), Reaches s.toChip .hib →
     (∀ i, i < wmtSize →
       (s.physOf (i / 128) = none → Completes (.wmtEntryWrite i v) s fun t =>
         (∀ j, SMap.get 0#64 t.wmt j = if j = i then v else SMap.get 0#64 s.wmt j) ∧
         t.committed = s.committed ∧ t.clusters = s.clusters) ∧
       ((s.physOf (i / 128)).isSome = true → Completes (.wmtEntryWrite i v) s fun t =>
         t.wmt = s.wmt ∧ bit (t.reg .hib Off.WMT_STATUS) 13 = true)) ∧
     (bit v 16 = true → bit v 17 = false → s.physOf (fld v 0 12) = none → s.wmtErr = [] → Completes (.commit v) s fun t =>
       t.hib.check = some (.commit (fld v 0 12)) ∧ t.committed = s.committed ∧ t.wmt = s.wmt) ∧
     (∀ p, bit v 16 = false → bit v 17 = true → s.physOf (fld v 0 12) = some p →
       ((s.cl p).mapEn = false → Completes (.release v) s fun t =>
         t.physOf (fld v 0 12) = none ∧ (t.cl p).lc = none ∧ OtherClusters s t p) ∧
       ((s.cl p).mapEn = true → Completes (.release v) s fun t =>
         t.physOf (fld v 0 12) = some p ∧ t.hib.refused = true ∧ t.hib.refusal = refusalWord 0x0208 Off.WMT_CMD 0)) ∧
     (∀ n, n < 16 → Completes (.windowSelect n v) s fun t =>
       t.reg .hib (Off.CL_WINDOW_SEL n) = BitVec.ofNat 64 (fld v 0 26))) ∧
  ((∀ (s : State) (cl : Nat), cl < 4032 → Reaches s.toChip (.cluster cl) →
     ((s.cl cl).mapEn = false → Completes (.mapEn cl) s fun t =>
       (t.cl cl).page.check = some .mapEn ∧ (t.cl cl).mapEn = false ∧ OtherClusters s t cl) ∧
     ((s.cl cl).mapEn = true → (s.cl cl).anyRunning = false ∨ s.coreHeld cl = true → Completes (.mapDisable cl) s fun t =>
       (t.cl cl).mapEn = false ∧ (t.cl cl).cores = (s.cl cl).cores ∧ OtherClusters s t cl) ∧
     ((s.cl cl).mapEn = true → (s.cl cl).anyRunning = true → s.coreHeld cl = false → Completes (.mapDisable cl) s fun t =>
       (t.cl cl).mapEn = true ∧ (t.cl cl).mapDrop = true ∧ OtherClusters s t cl)) ∧
   ∀ (s : State), Reaches s.toChip .dev →
     (Completes .devFenceRead s fun t => t.out = s.out ++ [.readData 0#64] ∧ t.dev = s.dev) ∧
     (∀ v : BitVec 64, s.bringup.eaveStarted = false → Completes (.engineIdWrite v) s fun t =>
       t.reg .dev Off.DEV_ENGINE_ID = BitVec.ofNat 64 (fld v 0 11)) ∧
     (∀ v : BitVec 64, s.bringup.eaveStarted = true → Completes (.engineIdWrite v) s fun t =>
       t.reg .dev Off.DEV_ENGINE_ID = s.reg .dev Off.DEV_ENGINE_ID ∧ t.dev.refused = true ∧
       t.dev.refusal = refusalWord 0x0702 Off.DEV_ENGINE_ID 0))

/-- Gables: ENABLE starts the check, DISABLE of a quiet gable takes it off its bays and one of a busy gable is
dropped; a bay that every condition of R502 admits is added, an idle bay of the gable is removed; an allotment is
written while the gable is off or when nothing refuses it, and else keeps its value. -/
def Obligations.GableCommands : Prop :=
  ∀ (s : State) (t : Nat), 1 ≤ t → t ≤ 64 → Reaches s.toChip (.gable t) →
    let g := s.gable t
    (g.page.enable = false → Completes (.gableEnable t) s fun u =>
      (u.gable t).page.check = some .enable ∧ (u.gable t).page.enable = false) ∧
    (g.page.enable = true → s.sec.jobs = [] → s.sec.swap = none →
      (g.dormant = true ∨ s.gableQuiet t = true → Completes (.gableDisable t) s fun u =>
        (u.gable t).page.enable = false ∧ (u.gable t).keyIds = [] ∧
        ∀ b ∈ s.gableBays t, (s.bay b).tint = t → (u.bay b).tint = 0) ∧
      (g.dormant = false → s.gableQuiet t = false → Completes (.gableDisable t) s fun u =>
        (u.gable t).page.enable = true ∧ (u.gable t).disableDrop = true ∧ u.bays = s.bays)) ∧
    (∀ v : BitVec 64, g.page.enable = true → g.saving = false → g.restoring = false →
      let b := fld v 0 9
      (bit v 9 = true → bit v 10 = false → b < 336 → b ∉ s.gableCorr t → b ∉ s.gableBays t → s.bayFails t b = [] →
        bit (s.reg (.gable t) Off.GB_CFG) 0 = false → s.module.inletHi = false → Completes (.bayAdd t v) s fun u =>
          (s.needFails t (s.allot t) (s.gableBays t ++ [b]) || s.freqFails t (s.gableBays t ++ [b])) = false →
            u.maskBit (.gable t) (Off.GB_BAYS 0) b = true ∧ (u.bay b).tint = t) ∧
      (bit v 9 = false → bit v 10 = true → b ∈ s.gableBays t → (s.bay b).tint = t → s.bayBusy b = false → Completes (.bayRemove t v) s fun u =>
        u.maskBit (.gable t) (Off.GB_BAYS 0) b = false ∧ (u.bay b).tint = 0)) ∧
    (∀ v : BitVec 64, g.page.enable = false ∨ s.allotFails t (fld v 0 16) (s.gableBays t) g.active = [] →
      Completes (.allotWrite t v) s fun u => u.allot t = fld v 0 16) ∧
    (∀ v : BitVec 64, g.page.enable = true → s.allotFails t (fld v 0 16) (s.gableBays t) g.active ≠ [] →
      Completes (.allotWrite t v) s fun u => u.allot t = s.allot t ∧ (u.gable t).page.refused = true)

/-- Meters: an interval and MT_CLOSE end a period, whose record goes to be signed, and the next starts with the counts of
what has been stamped since; MT_CLOSE finds the periods that the interval has ended closed; a signed record goes
to the gable's ring with VF vector 1; MT_INTERVAL takes 60 to 86,400 s; MT_REC_DATA reads the last record. -/
def Obligations.MeterCommands : Prop :=
  (∀ (s : State) (t : Nat), 1 ≤ t → t ≤ 64 →
    let m := (s.gable t).meter
    let ended (s0 : Chip) (u : State) (reason : Nat) (e : BitVec 64) : Prop :=
      (u.gable t).meter.seq = (s0.gable t).meter.seq + 1 ∧ (u.gable t).meter.tStart = e ∧
      (u.gable t).meter.isOpen = true ∧ SignJob.meter e t (s0.meterBody t reason e) ∈ u.sec.jobs
    (m.isOpen = true → s.meterFull t = false →
      let e := (max m.tStart.toNat m.ringFreed.toNat / (m.interval * billion) + 1) * (m.interval * billion)
      m.interval ≠ 0 → e ≤ s.now.toNat → Completes (.meterPeriodEnd t) s fun u =>
        ended s.toChip u 1 (BitVec.ofNat 64 e) ∧
        (u.gable t).meter.work = (SMap.get {} (s.gable t).later 1).work) ∧
    (∀ v : BitVec 64, Reaches s.toChip .meter → fld v 0 7 = t → bit v 7 = true → m.isOpen = true →
      Completes (.mtClose v) s fun u => ended (s.toChip.intervalEnds t) u 2 s.now ∧ (u.gable t).meter.work = 0) ∧
    (∀ r rs, m.unwritten = r :: rs → s.meterFull t = false → s.link.held = false →
      let tail := fld (s.reg (.gable t) Off.GB_MR_TAIL) 0 16
      Completes (.meterRecordWrite t) s fun u =>
        u.out = s.out ++ [.hostWrite t ((s.reg (.gable t) Off.GB_MR_BASE).toNat +
          1024 * (tail % 2 ^ fld (s.reg (.gable t) Off.GB_MR_CFG) 0 4)) r] ++
          (if s.link.vecMasked (2048 * t + 1) then [] else [.vector t 1]) ∧
        (u.gable t).meter.unwritten = rs ∧
        fld (u.reg (.gable t) Off.GB_MR_TAIL) 0 16 = (tail + 1) % 65536)) ∧
  ∀ s : State, Reaches s.toChip .meter →
    (∀ v : BitVec 64, Completes (.mtIntervalWrite v) s fun t => t.reg .meter Off.MT_INTERVAL =
      if 60 ≤ fld v 0 17 ∧ fld v 0 17 ≤ 86400 then BitVec.ofNat 64 (fld v 0 17) else s.reg .meter Off.MT_INTERVAL) ∧
    (let g := fld (s.reg .meter Off.MT_SEL) 0 7
     let w := fld (s.reg .meter Off.MT_REC_ADDR) 0 7
     Completes .mtRecDataRead s fun t =>
      t.out = s.out ++ [.readData (BitVec.ofNat 64 (leNat (slice (s.gable g).meter.last (8 * w) 8)))] ∧
      fld (t.reg .meter Off.MT_REC_ADDR) 0 7 = (w + 1) % 128)

/-- Estimates and measurements: a bay's model value of the window, formed from its counters, its coefficients and the
temperature, stands in it, a fit that applies from the window on takes effect, and the estimate counts in its gable's
window and in the open meter of the tint that holds the bay, tint 0 among them; a measurement joins the windows of the
last 100 ms with the model sum of its window, and goes to that meter's energy and peak; a calibration fit over the
10,000 windows of the last 100 ms, whose model values spread enough and whose gain lies in [0.8, 1.25], gives the gain
and offset of the windows from the next on, any other keeps them and sets fault bit 4, and without all of the windows
nothing happens. Clocks under the cap: the control loop lowers an
opportunistic gable's target by 50 MHz when its forecast is above the allotment, raises it from the twentieth calm
window in a row on, within 2,000 to 3,300 MHz, and each cluster of its tint runs at the target or the highest frequency it can;
LEARN moves a quarter of the way; from the eighth window in a row above the allotment the overdraw level rises by one
a window. That windows no command
reported are operands, and that the quotients round down, is the model's (log entry 19). -/
def Obligations.PowerAndClocks : Prop :=
  (∀ (s : State) (b : Nat), b < 336 → s.bayOk b = true →
     let g := (s.bay b).tint
     let x := s.bay b
     let counted (t : State) (f : Meter → Meter) (e : Meter → Nat) : Prop :=
       (g = 0 → e t.meter0 = e (f s.meter0)) ∧
       (g ≠ 0 → (s.gable g).meter.isOpen = true → (s.gable g).meter.periodsOver s.now.toNat (s.meterFull g) = 0 →
         e (t.gable g).meter = e (f (s.gable g).meter))
     (∀ n, let w := s.lastWindow
       let m := s.modelPower b n
       Completes (.estimateWindow b n) s fun t =>
         (t.bay b).model = m ∧ (t.bay b).models.head? = some (w, m) ∧ (∀ k, k ≠ b → t.bay k = s.bay k) ∧
         (∀ w0 gain o, x.nextFit = some (w0, gain, o) → w0 ≤ w → (t.bay b).gain = gain ∧ (t.bay b).offset = o) ∧
         ((∀ f, x.nextFit = some f → w < f.1) → (t.bay b).gain = x.gain ∧ (t.bay b).offset = x.offset) ∧
         (g ≠ 0 → (t.gable g).ests.head? = some (w, t.gableEst g)) ∧
         counted t (fun m => { m with energyEst := m.energyEst + (t.bay b).estimate.toNat }) (·.energyEst)) ∧
     (∀ n k, Completes (.measurementWindow b n k) s fun t =>
       let w := s.now.toNat / 10000 - k
       (t.bay b).measured = n ∧ (t.bay b).windows = (⟨w, n, x.windowModel w⟩ :: x.windows).take 10000 ∧
       (∀ j, j ≠ b → t.bay j = s.bay j) ∧
       counted t (fun m => { m with energyMeas := m.energyMeas + 10 * n }) (·.energyMeas) ∧
       counted t (fun m => { m with peak := max m.peak (t.gableMeasured g w / 16) }) (·.peak)) ∧
     (∀ ns ms, s.dispatcher (bayField b) ≠ none →
       let ws := s.fitWindows b ns ms
       let n := ws.length
       let (sx, sy, sxx, sxy) := fitSums ws
       let den : Int := (n * sxx : Nat) - (sx * sx : Nat)
       let num : Int := (n * sxy : Nat) - (sx * sy : Nat)
       let kept (t : State) : Prop := (t.bay b).gain = x.gain ∧ (t.bay b).offset = x.offset
       (n < 10000 → Completes (.calibrationFit b ns ms) s fun t => t.toChip = s.toChip) ∧
       (10000 ≤ n → spreadOk ws = true → 0 < den → 4 * den ≤ 5 * num → 4 * num ≤ 5 * den →
         Completes (.calibrationFit b ns ms) s fun t => kept t ∧
           (t.bay b).nextFit = some (s.now.toNat / 1000 + 1, (4096 * num / den).toNat,
             ((sy : Int) * 4096 - 4096 * num / den * sx) / (40960 * n : Nat))) ∧
       (10000 ≤ n → spreadOk ws = false ∨ den ≤ 0 ∨ 5 * num < 4 * den ∨ 5 * den < 4 * num →
         Completes (.calibrationFit b ns ms) s fun t => kept t ∧ (t.bay b).nextFit = x.nextFit ∧
           bit t.powerPage.fault 4 = true))) ∧
  (∀ (s : State) (t : Nat), 1 ≤ t → t ≤ 64 → (s.gable t).active = true →
     let g := s.gable t
     let a : Int := s.allot t * 65536
     let w := s.now.toNat / 1000
     (s.gableOpp t = true → g.oppWin ≠ w + 1 →
       let f := s.gableEst t + s.learnSum t
       let calm := if 100 * f ≤ 95 * a then (if g.oppWin = w then g.calm + 1 else 1) else 0
       let target := if f > a then max 2000 (g.target - 50) else if calm ≥ 20 then min 3300 (g.target + 50) else g.target
       Completes (.opportunisticControl t) s fun u =>
         (u.gable t).target = target ∧ (u.gable t).calm = (if f > a then 0 else calm) ∧
         ∀ cl ∈ s.gableClusters t, s.clTint cl = t → (u.cl cl).freq = min target (s.topFreq cl)) ∧
     (∀ k n m cl p, let here (x : Nat × BitVec 64) : Bool := x.1 = k && decide (x.2.toNat + 20000 ≤ s.now.toNat)
       (s.gableClusters t).find? (fun c => (s.cl c).dueHints.any here) = some cl → (s.cl cl).dueHints.find? here = some p →
       Completes (.learnUpdate t k n m) s fun u =>
         let v := SMap.get 0 g.learn (k % 1024)
         SMap.get 0 (u.gable t).learn (k % 1024) = v + (s.learnH t p.2.toNat n m - s.learnQ t p.2.toNat n - v) / 4 ∧
         (u.cl cl).dueHints.length + 1 = (s.cl cl).dueHints.length) ∧
     (g.odWin ≠ w + 1 → s.gableEst t ≤ a ∨ s.gableOpp t = true ∧ g.target ≠ 2000 → Completes (.overdraw t) s fun u =>
       (u.gable t).overWin = 0 ∧ (u.gable t).odLevel = g.odLevel) ∧
     (g.odWin ≠ w + 1 → a < s.gableEst t → (s.gableOpp t = true → g.target = 2000) → Completes (.overdraw t) s fun u =>
       let n := if g.odWin = w then g.overWin + 1 else 1
       (u.gable t).overWin = n ∧
       (u.gable t).odLevel = (if n < 8 ∧ g.overdraw = false then g.odLevel else min 7 (g.odLevel + 1)) ∧
       (8 ≤ n → (u.gable t).overdraw = true ∧ (g.overdraw = false → bit u.powerPage.fault 5 = true))))

/-- Arming of a bay: the hint due within 800 ns leaves its queue and arms the bay; 800 ns after it began the arming completes and no core
of the bay waits for a rise any more; a bay whose multipliers have been idle for 10 us is disarmed. Stretching: a
sensor at 105 °C or more trips its cluster to level 4 or above; the bay escalates to the highest level of its
clusters, then by one each 100 us while a sensor is hot; twelve cool readings of 1 ms, or for the gable's level an
estimate at or below 97 % of the allotment for 100 us, let the level fall by one. -/
def Obligations.ArmingAndHeat : Prop :=
  (∀ (s : State) (b : Nat), b < 336 →
     (let ready (cl : Nat) (h : Hint) : Bool := decide (h.due ≤ (s.clTime cl).toNat + 800)
      ∀ cl h, (bayClusters b).find? (fun k => (s.cl k).hints.any (ready k)) = some cl →
       (s.cl cl).hints.find? (ready cl) = some h → (s.bay b).armed = false → Completes (.armingStart b) s fun t =>
         (t.bay b).arming = true ∧ ((s.bay b).arming = false → (t.bay b).armingAt = s.now) ∧
         (t.cl cl).hints = (s.cl cl).hints.erase h ∧
         (t.cl cl).dueHints = (s.cl cl).dueHints ++ [(h.tag, BitVec.ofNat 64 h.due)] ∧ OtherClusters s t cl) ∧
     ((s.bay b).arming = true → 800 ≤ (s.now - (s.bay b).armingAt).toNat → Completes (.armingComplete b) s fun t =>
       (t.bay b).arming = false ∧ (t.bay b).armed = true ∧ (t.bay b).armedAt = s.now ∧
       ∀ cl ∈ bayClusters b, ∀ p < 136, (t.core cl p).wait ≠ .rise) ∧
     ((s.bay b).armed = true → 10000 ≤ (s.now - (s.bay b).armedAt).toNat → (bayClusters b).any s.busyLately = false →
       Completes (.disarm b) s fun t => (t.bay b).armed = false ∧ t.clusters = s.clusters)) ∧
  ((∀ (s : State) (cl n : Nat), cl < 4032 → 840 ≤ n → s.bayOk (clBay cl) = true → Completes (.thermalTrip cl n) s fun t =>
     (t.cl cl).temp = n ∧ (t.cl cl).stretch = max (s.cl cl).stretch 4 ∧ (t.bay (clBay cl)).trip = true ∧
     t.reg .power Off.PW_TRIPS = s.reg .power Off.PW_TRIPS + 1#64) ∧
   ∀ (s : State) (b : Nat), b < 336 →
     (s.guarded (bayField b) = true →
       let top := s.topStretch b
       let lv := (s.bay b).level
       (lv < top → Completes (.thermalEscalate b) s fun t => (t.bay b).level = top ∧ (t.bay b).levelAt = s.now) ∧
       (top ≤ lv → lv ≠ 0 → ((bayClusters b).any fun cl => (s.cl cl).temp ≥ 800) = true →
         100000 ≤ (s.now - (s.bay b).levelAt).toNat → Completes (.thermalEscalate b) s fun t =>
           (t.bay b).level = min 7 (lv + 1)) ∧
       ∀ ns : List Nat, ns.length = 12 → ns.all (· < 760) = true → 1000000 ≤ (s.now - (s.bay b).hotAt).toNat →
         1000000 ≤ (s.now - (s.bay b).levelAt).toNat → Completes (.thermalRelease b ns) s fun t =>
           (t.bay b).level = max lv top - 1 ∧ (t.bay b).trip = false ∧ ∀ cl ∈ bayClusters b, (t.cl cl).stretch = 0) ∧
     (let g := (s.bay b).tint
      g ≠ 0 → s.drawLow g = true → 100000 ≤ (s.now - (s.gable g).odAt).toNat → Completes (.thermalRelease b []) s fun t =>
       (t.gable g).odLevel = (s.gable g).odLevel - 1))

/-- Latching and relight: the bay's supply goes off, its clusters lose what they hold and keep their commitment and
their marks; within a second of a relight it latches hard; PW_BAY_CMD brings a latched bay of no enabled gable up
UNTESTED, Lit where a corridor wants it and else Shaded, and refuses one that latched hard. Coolant and input: an inlet above 30 °C sets fault bit 1, above 40 °C
bit 2 and every Lit bay is Shaded; an input that has been outside 700 to 860 V for 1 ms sets bit 3; one below 650 or
above 900 V clears the wafer as a cold reset, and the 48 V bus is gone. In Dark the readings are only what the wake
comparators see. -/
def Obligations.LatchCoolantAndInput : Prop :=
  ((∀ (s : State) (b : Nat), b < 336 → (s.bay b).supplied = true → s.powered = true →
     let latched (t : State) (cause : Nat) : Prop :=
       (t.bay b).power = (if (s.bay b).relitAt.any fun r => decide ((s.now - r).toNat ≤ 1000000000)
         then .latchedHard else .latched) ∧
       (t.bay b).latchCause = cause ∧ (t.bay b).stack = [] ∧ (t.bay b).tint = (s.bay b).tint ∧
       bit t.powerPage.fault 0 = true ∧
       ∀ cl ∈ bayClusters b, (t.cl cl).cores = [] ∧ (t.cl cl).store = [] ∧ (t.cl cl).mapEn = false ∧
         (t.cl cl).lc = (s.cl cl).lc ∧ (t.cl cl).unusable = (s.cl cl).unusable ∧ (t.cl cl).hole = (s.cl cl).hole
     (Completes (.bayLatch b) s fun t => latched t 1) ∧
     ∀ cl n, cl < 4032 → clBay cl = b → 920 ≤ n → s.guarded (clField cl) = true → Completes (.thermalLatch cl n) s fun t => latched t 2) ∧
   ∀ (s : State) (v : BitVec 64), Reaches s.toChip .power → bit v 0 = true →
     let b := fld (s.reg .power Off.PW_BSEL) 0 9
     b < 336 → s.bayHeld b = false →
       ((s.bay b).power = .latched → Completes (.relight v) s fun t =>
         (t.bay b).power = (if s.wantsLit b then .lit else .shaded) ∧ (t.bay b).untested = true ∧ (t.bay b).relitAt = some s.now) ∧
       ((s.bay b).power = .latchedHard → Completes (.relight v) s fun t =>
         (t.bay b).power = .latchedHard ∧ t.powerPage.refused = true ∧
         t.powerPage.refusal = refusalWord 0x0501 Off.PW_BAY_CMD 0)) ∧
  (∀ (s : State) (n : Nat), s.module.standby = true → s.module.dark = false →
     let lost (t : State) : Prop :=
       t.module.bus48 = false ∧ t.module.input = some n ∧ bit t.powerPage.fault 3 = true ∧ t.clusters = [] ∧ t.bays = [] ∧
       t.committed = [] ∧ t.bringup.lastReset = 3 ∧ t.sec.counters = s.sec.counters ∧ t.bringup.wear = s.bringup.wear
     (Completes (.inletSample n) s fun t =>
       t.module.inlet = some n ∧ t.module.inletHi = decide (n > 3000) ∧ (n > 3000 → bit t.powerPage.fault 1 = true) ∧
       (n > 4000 → bit t.powerPage.fault 2 = true ∧ ∀ b, (s.bay b).power = .lit → (t.bay b).power = .shaded) ∧
       (n ≤ 4000 → s.module.inlet.getD 0 ≤ 4000 → t.bays = s.bays)) ∧
     (6500 ≤ n → n ≤ 9000 → Completes (.inputSample n) s fun t =>
       t.module.input = some n ∧
       (7000 ≤ n → n ≤ 8600 → t.module.bus48 = true ∧ t.module.inputBad = none ∧ t.powerPage = s.powerPage) ∧
       (n < 7000 ∨ 8600 < n → t.module.bus48 = s.module.bus48 ∧
         (s.module.inputBad = none → t.module.inputBad = some s.now ∧ t.powerPage = s.powerPage) ∧
         ∀ t0, s.module.inputBad = some t0 → t.module.inputBad = some t0 ∧
           (1000000 ≤ (s.now - t0).toNat → bit t.powerPage.fault 3 = true) ∧
           ((s.now - t0).toNat < 1000000 → t.powerPage = s.powerPage))) ∧
     (n < 6500 ∨ 9000 < n → Completes (.inputLoss n) s lost ∧ Completes (.inputSample n) s lost)) ∧
  (∀ (s : State) (n : Nat), s.module.standby = true → s.module.dark = true →
     (Completes (.inletSample n) s fun t => t.toChip = { s.toChip with module := { s.module with inlet := some n } }) ∧
     ∀ i ∈ [Instr.inputSample n, .inputLoss n], (i = .inputSample n ∨ n < 6500 ∨ 9000 < n) →
       Completes i s fun t => t.toChip = { s.toChip with module := { s.module with input := some n } })

/-- Dark and wake: PW_DARK with no gable enabled takes the wafer's supply and the host link down, and is refused
while one is enabled; an enabled wake condition brings the module back unlit, its cause in PW_WAKE_CAUSE. Supplies
and PERST_N: standby power comes up with everything at its reset value but what flash and pins hold; the last blade
withdrawn, or a lost standby rail, takes all; PERST_N resets the host link and clears BU_DONE bits 9 and 11. -/
def Obligations.DarkAndSupplies : Prop :=
  (∀ s : State,
     (∀ v : BitVec 64, Reaches s.toChip .power → bit v 0 = true →
       ((∀ p ∈ s.gables, p.2.page.enable = false) → Completes (.darkEnter v) s fun t =>
         t.module.dark = true ∧ t.clusters = [] ∧ t.bays = [] ∧ t.link.up = false ∧
         t.reg .power Off.PW_DARK = BitVec.ofNat 64 (fld v 1 4 * 2)) ∧
       ((∃ p ∈ s.gables, p.2.page.enable = true) → Completes (.darkEnter v) s fun t =>
         t.module.dark = s.module.dark ∧ t.clusters = s.clusters ∧ t.powerPage.refused = true ∧
         t.powerPage.refusal = refusalWord 0x0201 Off.PW_DARK 0)) ∧
     (s.module.standby = true → s.module.dark = true → s.wakeCause ≠ 0 → Completes .wake s fun t =>
       t.module.dark = false ∧ t.clusters = [] ∧ t.bringup.done = 0#64 ∧ t.bringup.lastReset = 4 ∧
       fld (t.reg .power Off.PW_WAKE_CAUSE) 0 4 = fld (s.reg .power Off.PW_WAKE_CAUSE) 0 4 ||| s.wakeCause)) ∧
  (∀ s : State,
     let gone (t : State) : Prop := t.clusters = [] ∧ t.bays = [] ∧ t.gables = [] ∧ t.eaves = [] ∧ t.fields = [] ∧
       t.committed = [] ∧ t.tk = {} ∧ t.bringup.done = 0#64 ∧ t.bringup.lastReset = 0 ∧
       t.bringup.record = s.bringup.record ∧ t.bringup.wear = s.bringup.wear ∧ t.sec.counters = s.sec.counters
     (s.module.standby = false → ∀ n, Completes (.standbyPowerUp n) s fun t =>
       gone t ∧ t.module.standby = true ∧ t.module.slotId = n) ∧
     (s.module.standby = true → Completes .standbyPowerLoss s fun t => gone t ∧ t.module.standby = false) ∧
     (s.module.blades = 2 → Completes .bladeWithdraw s fun t =>
       t.toChip = { s.toChip with module := { s.module with blades := 1 } }) ∧
     (s.module.blades = 1 → s.module.standby = true → Completes .bladeWithdraw s fun t =>
       gone t ∧ t.module.standby = false ∧ t.module.blades = 0) ∧
     (s.module.blades < 2 → Completes .bladeInsert s fun t =>
       t.toChip = { s.toChip with module := { s.module with blades := s.module.blades + 1 } }) ∧
     (s.module.perstN = true → Completes .perstNAssert s fun t =>
       t.module.perstN = false ∧ t.link.up = false ∧ t.bringup.done = clrBit (clrBit s.bringup.done 9) 11 ∧
       t.clusters = s.clusters ∧ t.bays = s.bays ∧ t.gables = s.gables))

/-- The start of a bring-up step that is admitted, each with what it does: RAILS, CLOCKS, RIDGE, TEST, MAP, MESH,
FIRMWARE, STACKS, HOST, EAVE and READY. Step RECORD: the first check of R556 that does not pass is met, with the entries skipped as its DETAIL; otherwise
the base and the accepted entries of the wear log are applied, the record is measured and the device key unwrapped. -/
def Obligations.BringupStepsStart : Prop :=
  (∀ s : State,
     (∀ ns, StepAdmitted s.toChip 0 → s.module.inletHi = false → s.powered = true → Completes (.rails ns) s fun t =>
       StepRuns t 0 ∧ ∀ b < 336, (t.bay b).power =
         if s.maskBit .bringup (Off.BU_RAILS 0) b = true ∧ (s.bay b).power = .unlit then
           if b ∈ ns then .latched else .shaded
         else (s.bay b).power) ∧
     (∀ ns, StepAdmitted s.toChip 1 → Completes (.clocks ns) s fun t =>
       StepRuns t 1 ∧ t.bringup.found =
         (if 4032 ∈ ns then some (2, (s.upClusters.filter fun cl => decide (cl ∉ ns)).length) else none) ∧
       ∀ cl ∈ s.upClusters, (t.cl cl).locked = decide (cl ∉ ns) ∧ (cl ∈ ns → (t.cl cl).hole = true)) ∧
     (∀ of, StepAdmitted s.toChip 2 → Completes (.ridge of) s fun t =>
       StepRuns t 2 ∧ t.bringup.found = of.map (fun f => (3, f)) ∧
       (of = none → (∀ cl ∈ s.upClusters, (t.cl cl).tbOff = 0) ∧ (∀ b, (t.bay b).node = {}) ∧ ∀ f, (t.field f).node = {})) ∧
     (∀ ns ms, StepAdmitted s.toChip 4 → Completes (.test ns ms) s fun t =>
       StepRuns t 4 ∧ t.bringup.testSkipped = s.bringup.fastOk ∧ t.bringup.testRan = !s.bringup.fastOk ∧
       (s.bringup.fastOk = true → t.clusters = s.clusters ∧ t.bringup.wear = s.bringup.wear) ∧
       (s.bringup.fastOk = false →
         (∀ k ∈ ns, k / 136 ∈ s.upClusters → (t.cl (k / 136)).coreDead (k % 136) = true) ∧
         (∀ k ∈ ms, k / 2 ∈ s.upClusters → (t.cl (k / 2)).unusable = true) ∧
         (∀ cl ∈ s.upClusters, (s.cl cl).locked = false → (t.cl cl).hole = true) ∧
         ∀ b ∈ s.upBays, (t.bay b).untested = false)) ∧
     (StepAdmitted s.toChip 5 → Completes .mapStep s fun t =>
       t.bringup.step = 5 ∧ t.bringup.state = .opened ∧ t.clusters = s.clusters) ∧
     (∀ ns, StepAdmitted s.toChip 6 → Completes (.mesh ns) s fun t =>
       StepRuns t 6 ∧ ∀ l ∈ allLinks, ((t.router l.1).link l.2).state = .up ∨ ((t.router l.1).link l.2).state = .out) ∧
     (∀ of, StepAdmitted s.toChip 7 → Completes (.firmware of) s fun t =>
       StepRuns t 7 ∧
       (s.bringup.imageSigned = false → t.bringup.found = some (9, 0) ∧ t.fields = s.fields) ∧
       (s.bringup.imageSigned = true → (s.sec.ctrOk = false ∨ s.bringup.svnHeld < s.sec.counters.getD 1 0) →
         t.bringup.found = some (10, 0) ∧ t.fields = s.fields ∧ (s.sec.ctrOk = false → bit t.sec.page.fault 2 = true)) ∧
       (s.bringup.imageSigned = true → s.sec.ctrOk = true → s.sec.counters.getD 1 0 ≤ s.bringup.svnHeld →
         t.bringup.fwMeasure = s.bringup.imageMeasure ∧ t.bringup.runningSvn = s.bringup.svnHeld ∧
         ∀ f ∈ s.upFields, of ≠ some f → (t.field f).running = true)) ∧
     (∀ ns, StepAdmitted s.toChip 8 → Completes (.stacks ns) s fun t =>
       StepRuns t 8 ∧ ∀ b ∈ s.upBays, (t.bay b).stackOk = decide (b ∉ ns)) ∧
     (StepAdmitted s.toChip 9 → s.link.up = true → s.link.cxl = true → 4 ≤ s.link.width → 3 ≤ s.link.speed →
       fld s.link.cfg 0 5 ≤ s.link.width → fld s.link.cfg 8 3 ≤ s.link.speed →
       (bit s.link.cfg 16 = true → s.link.ioIde = true ∧ s.link.cmIde = true) → Completes .host s fun t =>
         StepRuns t 9 ∧ t.link = s.link) ∧
     (∀ ns, StepAdmitted s.toChip 10 → Completes (.eave ns) s fun t =>
       StepRuns t 10 ∧ t.bringup.eaveStarted = true) ∧
     (StepAdmitted s.toChip 11 → Completes .ready s fun t => StepRuns t 11 ∧ t.clusters = s.clusters)) ∧
  (∀ s : State, StepAdmitted s.toChip 3 →
     (∀ c, s.recordFail = some c → Completes .record s fun t =>
       StepRuns t 3 ∧
       t.bringup.found = some (c, (s.bringup.entries.filter fun p => !s.wearAccepted p).length) ∧ t.clusters = s.clusters) ∧
     (s.recordFail = none → Completes .record s fun t =>
       StepRuns t 3 ∧ t.bringup.recMeasure = s.bringup.baseMeasure ∧ t.bringup.verifiedSvn = s.bringup.record.svn ∧
       (∀ p ∈ s.bringup.record.defects, p.2 = 1 ∨ p.2 = 2 → (t.cl p.1).unusable = true) ∧
       (∀ p ∈ s.bringup.record.deadCores, ∀ c < 136, p.2.getLsbD c = true → (t.cl p.1).coreDead c = true) ∧
       (∀ p ∈ s.bringup.entries, ∀ x y c, s.wearAccepted p = true → p.2.kind = 3 → p.2.data = [x, y, c] → c < 136 →
         (t.cl (clAt x y)).coreDead c = true) ∧
       (s.sec.keyReady = true → t.sec.keyReady = true) ∧
       (s.sec.keyReady = false → s.bringup.lastReset ≠ 2 → t.sec.keyReady = s.bringup.record.keyOk ∧
         (s.bringup.record.keyOk = false → bit t.sec.page.fault 0 = true))))

/-- The end of a step: what it met before, or its count below the bound, is its failure, with FAIL and DETAIL;
otherwise its BU_DONE bit is set. PF vector 0 tells. STACKS loads the tint 0 key after a cold reset, HOST turns
CXL.cache and CXL.mem on, MAP ends by MAP_FINISH. The Talnus image: an erase empties the region, a word is written
at BU_IMG_ADDR, which advances; while FIRMWARE runs both are dropped. A cluster committed after FIRMWARE receives
its microcode from its running controller over the mesh, and holds it when every packet of it was delivered there. -/
def Obligations.BringupStepsEndAndImage : Prop :=
  (∀ s : State,
     let ended (t : State) (r : Option (Nat × Nat) × Nat) : Prop :=
       t.reg .bringup Off.BU_T_STEP = s.now ∧ match r.1 with
         | some f => t.bringup.state = .failed ∧ t.bringup.fail = f.1 ∧ t.bringup.detail = f.2 ∧ t.bringup.done = s.bringup.done
         | none => t.bringup.state = .done ∧ t.bringup.fail = 0 ∧ t.bringup.detail = r.2 ∧
           t.bringup.done = setBit s.bringup.done s.bringup.step
     (s.bringup.state = .running → s.stepHeld = false → Completes .bringupStepEnd s fun t =>
       ended t s.stepResult ∧
       (s.bringup.step = 8 → s.bringup.coldStacks = true → t.bringup.coldStacks = false ∧
         t.bringup.stackFills = s.bringup.stackFills + 1 ∧
         ∀ b ∈ s.upBays, (SMap.get none (t.bay b).keys 0).map (·.tint) = some 0) ∧
       (s.bringup.step = 9 → s.bringup.found = none → t.link.cxlOn = (s.link.cxlOn || s.link.up)) ∧
       (s.link.vecMasked 0 = false → s.link.held = false → Sent s t [.vector 0 0])) ∧
     (Reaches s.toChip .bringup → s.bringup.step = 5 → s.bringup.state = .opened → Completes .mapFinish s fun t =>
       ended t (match s.committed.find? fun p => match p.2 with
           | some cl => !((s.cl cl).mapEn && (s.router cl).valid0)
           | none => false with
         | some p => some (8, p.1)
         | none => s.short s.commits, s.commits))) ∧
  ((∀ s : State, Reaches s.toChip .bringup →
     (s.imgHeld = false →
       (Completes .imgErase s fun t => t.bringup.image = [] ∧ t.bringup.imageOwn = true ∧ t.bringup.imgBusy = true) ∧
       ∀ v : BitVec 64, Completes (.imgDataWrite v) s fun t =>
         let w := fld (s.reg .bringup Off.BU_IMG_ADDR) 0 23
         SMap.get none t.bringup.image w = some v ∧ t.bringup.imgBusy = true ∧
         fld (t.reg .bringup Off.BU_IMG_ADDR) 0 23 = (w + 1) % 2 ^ 23 ∧
         ∀ k, k ≠ w → SMap.get none t.bringup.image k = SMap.get none s.bringup.image k) ∧
     (s.imgHeld = true →
       (Completes .imgErase s fun t => t.bringup.image = s.bringup.image ∧ t.bringup.imgDrop = true) ∧
       ∀ v : BitVec 64, Completes (.imgDataWrite v) s fun t =>
         t.bringup.image = s.bringup.image ∧ t.bringup.imgDrop = true)) ∧
   ∀ s : State,
     (Completes .imgEraseComplete s fun t => t.bringup = { s.bringup with imgBusy := false }) ∧
     ∀ cl l, cl < 4032 → s.stepDone 7 = true → (s.cl cl).lc = some l → (s.cl cl).microcodeOk = false →
       s.bayOk (clBay cl) = true → (s.field (clField cl)).running = true → Completes (.microcodeSend cl) s fun t =>
         t.toChip = (s.sendMicrocode l cl).1 ∧ ((s.sendMicrocode l cl).2 = true → (t.cl cl).microcodeOk = true))

/-- Cold and warm resets: both end every gable and clear BU_DONE; a cold reset loses what the wafer holds and where
logical clusters are committed, a warm one keeps the commitments, the contents of the stacks and the supply. A
gable's reset: its injection stops until the reset is complete; a gable that is off or not ACTIVE is refused; at the
end its cores read STOPPED, its packets are gone and its step is IDLE. -/
def Obligations.ResetsOfEngineAndGables : Prop :=
  (∀ s : State, Reaches s.toChip .bringup →
     (Completes .coldReset s fun t =>
       t.clusters = [] ∧ t.bays = [] ∧ t.fields = [] ∧ t.eaves = [] ∧ t.committed = [] ∧ t.wmt = [] ∧
       t.bringup.done = 0#64 ∧ t.bringup.state = .idle ∧ t.bringup.lastReset = 1 ∧ t.bringup.coldStacks = true ∧
       t.sec.keyReady = false ∧ t.sec.counters = s.sec.counters ∧ t.bringup.wear = s.bringup.wear) ∧
     (Completes .warmReset s fun t =>
       t.bringup.done = 0#64 ∧ t.bringup.state = .idle ∧ t.bringup.lastReset = 2 ∧ t.eaves = [] ∧ t.fields = [] ∧
       t.committed = s.committed ∧ t.wmt = s.wmt ∧ t.sec.keyReady = s.sec.keyReady ∧
       (∀ cl, (t.cl cl).lc = (s.cl cl).lc ∧ (t.cl cl).cores = [] ∧ (t.cl cl).store = [] ∧ (t.cl cl).mapEn = false) ∧
       ∀ b, (t.bay b).stack = (s.bay b).stack ∧ (t.bay b).lineKey = (s.bay b).lineKey ∧
         (t.bay b).images = (s.bay b).images ∧
         (t.bay b).power = if (s.bay b).supplied then .shaded else (s.bay b).power)) ∧
  (∀ (s : State) (t : Nat), 1 ≤ t → t ≤ 64 →
     let g := s.gable t
     (Reaches s.toChip .bringup →
       (g.page.enable = true → g.dormant = false → g.saving = false → g.restoring = false → Completes (.gableReset t) s fun u =>
         (u.gable t).resetting = true ∧ u.clusters = s.clusters) ∧
       (g.page.enable = false → Completes (.gableReset t) s fun u =>
         (u.gable t).resetting = g.resetting ∧ u.bringup.page.refusal = refusalWord 0x0301 Off.BU_RESET_CMD 0) ∧
       (g.page.enable = true → (g.dormant || g.saving || g.restoring) = true → Completes (.gableReset t) s fun u =>
         (u.gable t).resetting = g.resetting ∧ u.bringup.page.refusal = refusalWord 0x0201 Off.BU_RESET_CMD 0)) ∧
     (g.resetting = true → Completes (.gableResetComplete t) s fun u =>
       (u.gable t).resetting = false ∧ (u.gable t).step = .idle ∧
       ∀ cl ∈ s.gableClusters t, ∀ p, (u.core cl p).run = .stopped))

/-- BU_TEST_BAY: a Shaded bay of no gable is tested, one of a gable refused; the test marks the cores and clusters
that failed, and a bay none of whose clusters failed is tested and passes. Field controllers: a running one counts
its heartbeat; one that finds its partner standing reports NBR_LOST and takes the interim cover; COVER and FC_RESET
of FC_CTRL; a restart that the ROM verifies runs again; a lost Ridge path is ENGINE-FATAL. -/
def Obligations.BayTestsAndControllers : Prop :=
  ((∀ (s : State) (v : BitVec 64), Reaches s.toChip .bringup → s.bringup.testBay = none → bit v 9 = true → fld v 0 9 < 336 →
     let b := fld v 0 9
     (s.bayHeld b = false → (s.bay b).power = .shaded → Completes (.testBay v) s fun t =>
       t.bringup.testBay = some b ∧ t.bringup.testResult = 0 ∧ t.bays = s.bays) ∧
     (s.bayHeld b = true → Completes (.testBay v) s fun t =>
       t.bringup.testBay = none ∧ t.bringup.page.refusal = refusalWord 0x0201 Off.BU_TEST_BAY 0) ∧
     (s.bayHeld b = false → (s.bay b).power ≠ .shaded → Completes (.testBay v) s fun t =>
       t.bringup.testBay = none ∧ t.bringup.page.refusal = refusalWord 0x0301 Off.BU_TEST_BAY 0)) ∧
   ∀ (s : State) (b : Nat) (ns : TestFails) (ms : List LinkFail), s.bringup.testBay = some b → s.bayOk b = true →
     Completes (.testBayComplete ns ms) s fun t =>
       t.bringup.testBay = none ∧
       (∀ k ∈ ns.cores, k / 136 ∈ bayClusters b → (t.cl (k / 136)).coreDead (k % 136) = true) ∧
       (∀ k ∈ ns.clusters, k / 2 ∈ bayClusters b → (t.cl (k / 2)).unusable = true) ∧
       ((∀ k ∈ ns.clusters, k / 2 ∉ bayClusters b) → t.bringup.testResult = 1 ∧ (t.bay b).untested = false) ∧
       ((∃ k ∈ ns.clusters, k / 2 ∈ bayClusters b) → t.bringup.testResult = 2 ∧ (t.bay b).untested = (s.bay b).untested)) ∧
  (∀ (s : State) (f : Nat), f < 84 →
     (s.reachable (.field f) = true → (s.field f).running = true →
       (Completes (.fcHeartbeat f) s fun t =>
         t.field f = { s.field f with heartbeat := (s.field f).heartbeat + 1#32 } ∧ ∀ k, k ≠ f → t.field k = s.field k) ∧
       (Completes (.nbrLost f) s fun t =>
         (t.field f).nbrLost = true ∧ (t.field f).interim = true ∧ bit (t.field f).page.fault 0 = true ∧
         (partner f ≠ f → (t.field (partner f)).running = false))) ∧
     (Reaches s.toChip (.field f) →
       (∀ flag, Completes (.cover f flag) s fun t =>
         (t.field f).cover = flag ∧ (t.field f).covering = (flag && (s.field f).running) ∧
         (t.field f).running = (s.field f).running ∧
         (flag = false → (s.field f).cover = true → (s.field (partner f)).running = true → (t.field f).interim = false)) ∧
       (partner f ≠ f → (s.field (partner f)).covering = true → Completes (.fcReset f) s fun t =>
         (t.field f).restarting = true ∧ (t.field f).running = false ∧ (t.field f).cover = (s.field f).cover) ∧
       (partner f ≠ f → (s.field (partner f)).covering = false → Completes (.fcReset f) s fun t =>
         (t.field f).restarting = (s.field f).restarting ∧ (t.field f).page.refusal = refusalWord 0x0201 Off.FC_CTRL 0)) ∧
     ((s.field f).restarting = true →
       (Completes (.controllerRestart f true) s fun t =>
         (t.field f).restarting = false ∧ (t.field f).running = true ∧ (t.field f).romFail = false) ∧
       (Completes (.controllerRestart f false) s fun t =>
         (t.field f).restarting = false ∧ (t.field f).running = false ∧ (t.field f).romFail = true ∧
         bit (t.field f).page.fault 1 = true)) ∧
     (s.module.standby = true → Completes (.ridgePathLost f) s fun t =>
       bit t.dev.fault 1 = true ∧ (bit s.dev.fault 1 = false → t.halting = true)))

/-- Counters, blob and reports of the SEC block: a COMMIT in range moves a counter and one out of range is refused
with 0x0101; a blob word is written at SEC_BLOB_ADDR, which advances; a report of an enabled gable goes to the
signing engine, one of a gable that is off is refused with 0x0301, one while another is in progress is dropped; a
failed noise source is an ENGINE-FATAL error. Keys: LOAD sends the blob to the signing engine and reads BUSY; ERASE
of a stack slot other than 0 clears it in the bays named, of a session its key; the swap of a loaded stack key ends
with every supplied controller of its bays holding it. SIGNING_COMPLETE: the first job that does not wait for the
noise source is done and counted. A report stands in SEC_REP_DATA with a signature of 512 bytes; a meter record
joins its gable's records to be written; a key load is judged with its opened blob, and is refused or, accepted,
extends KEYLOG; an SPDM answer goes out on a link that is up. -/
def Obligations.SecurityCommands : Prop :=
  ((∀ s : State, Reaches s.toChip .sec →
     (∀ v : BitVec 64, bit v 8 = true →
       let n := fld v 0 4
       let x := fld v 32 32
       (s.sec.ctrOk = false → Completes (.ctrCommit v) s fun t =>
         t.sec.counters = s.sec.counters ∧ bit t.sec.page.fault 2 = true) ∧
       (s.sec.ctrOk = true → ∀ lim, s.ctrLimit n = some lim → s.sec.counters.getD n 0 ≤ x → x ≤ lim →
         Completes (.ctrCommit v) s fun t => t.sec.counters = s.sec.counters.set n x) ∧
       (s.sec.ctrOk = true → (∀ lim, s.ctrLimit n = some lim → x < s.sec.counters.getD n 0 ∨ lim < x) →
         Completes (.ctrCommit v) s fun t => t.sec.counters = s.sec.counters ∧ t.sec.page.refused = true ∧
           t.sec.page.refusal = refusalWord 0x0101 Off.SEC_CTR_CMD 0)) ∧
     (∀ v : BitVec 64, Completes (.blobDataWrite v) s fun t =>
       let w := fld (s.reg .sec Off.SEC_BLOB_ADDR) 0 6
       fld (t.reg .sec Off.SEC_BLOB_ADDR) 0 6 = (w + 1) % 64 ∧
       ∀ k, SMap.get 0#64 t.sec.blob k = if k = w then v else SMap.get 0#64 s.sec.blob k) ∧
     (∀ v : BitVec 64, bit v 7 = true →
       let g := fld v 0 7
       (s.sec.reportBusy = true → Completes (.reportGo v) s fun t =>
         t.sec.reportDrop = true ∧ t.sec.jobs = s.sec.jobs ∧ t.sec.report = s.sec.report) ∧
       (s.sec.reportBusy = false → 1 ≤ g → g ≤ 64 → (s.gable g).page.enable = true → s.sec.keyReady = true →
         Completes (.reportGo v) s fun t =>
           SignJob.report (s.reportBody g) ∈ t.sec.jobs ∧ t.sec.reportBusy = true) ∧
       (s.sec.reportBusy = false → (g = 0 ∨ 64 < g ∨ (s.gable g).page.enable = false ∨ s.sec.keyReady = false) →
         Completes (.reportGo v) s fun t => t.sec.jobs = s.sec.jobs ∧ t.sec.page.refused = true ∧
           t.sec.page.refusal = refusalWord 0x0301 Off.SEC_REP_CMD 0))) ∧
   ∀ s : State, s.module.standby = true → Completes .rngFail s fun t =>
     t.sec.rngOk = false ∧ t.sec.rngFailed = true ∧ bit t.sec.page.fault 1 = true) ∧
  ((∀ (s : State) (v : BitVec 64), Reaches s.toChip .sec → s.sec.keyBusy = false →
     (bit v 24 = true → bit v 25 = false → s.sec.keyReady = true → Completes (.keyLoad v) s fun t =>
       SignJob.keyLoad v s.keyBays s.sec.blobWord ∈ t.sec.jobs ∧ t.sec.keyBusy = true) ∧
     (bit v 25 = true → bit v 24 = false → keyTarget v = 1 → keySlot v ≠ 0 → Completes (.keyErase v) s fun t =>
       ∀ b, SMap.get none (t.bay b).keys (keySlot v) =
         if b ∈ s.keyBays then none else SMap.get none (s.bay b).keys (keySlot v)) ∧
     (bit v 25 = true → bit v 24 = false → keyTarget v = 2 → Completes (.keyErase v) s fun t =>
       (t.session (keyPort v) (keyEntry v)).key = none ∧ t.bays = s.bays) ∧
     (bit v 25 = true → bit v 24 = false → keyTarget v = 1 → keySlot v = 0 → Completes (.keyErase v) s fun t =>
       t.bays = s.bays ∧ t.sec.page.refusal = refusalWord 0x0101 Off.SEC_KEY_CMD 0)) ∧
   ∀ (s : State) (slot u : Nat) (key : BitVec 512) (bays : List Nat), s.sec.swap = some (slot, u, key, bays) →
     Completes .keySwapComplete s fun t =>
       t.sec.swap = none ∧ t.sec.keyBusy = false ∧
       (∀ b ∈ bays, s.bayOk b = true → SMap.get none (t.bay b).keys slot = some { key, tint := u }) ∧
       ∀ b, b ∉ bays → t.bay b = s.bay b) ∧
  (∀ (s : State) (j : SignJob), s.sec.keyReady = true → s.module.standby = true →
     (s.sec.jobs.find? fun j => !(j.salted && s.sec.rngFailed)) = some j →
     Completes .signingComplete s fun t =>
       t.sec.jobs = s.sec.jobs.erase j ∧
       t.reg .sec Off.SEC_SIGNATURES = s.reg .sec Off.SEC_SIGNATURES + 1#64 ∧
       match j with
       | .report body => t.sec.reportBusy = false ∧
           ∃ sig, sig.length = 512 ∧ t.sec.report = body ++ sig ++ leBytes 176 0
       | .meter _ g body => (t.gable g).meter.lastSeq = leNat (slice body 40 8) ∧
           ∃ sig, sig.length = 512 ∧ (t.gable g).meter.unwritten = (s.gable g).meter.unwritten ++
             [body.take 224 ++ (if leNat (slice body 40 8) = 0 then leBytes 32 0
               else (sha512 (s.gable g).meter.last).take 32) ++ body.drop 256 ++ sig ++ leBytes 192 0]
       | .keyLoad v bays blob => match s.keyVerdict v bays (oaepOpen blob), oaepOpen blob with
           | some c, _ => t.sec.keyBusy = false ∧ t.sec.page.refusal = refusalWord c Off.SEC_KEY_CMD 0 ∧ t.gables = s.gables
           | none, some p => (t.gable (blobTint p)).keylog = keylogNext (s.gable (blobTint p)).keylog v p ∧
               t.reg .sec Off.SEC_KEY_LAST = blobKeyId p ∧
               (keyTarget v ≠ 2 → t.sec.swap = some (keySlot v, blobTint p, BitVec.ofNat 512 (recFld p 24 64), bays))
           | none, none => t.sec.keyBusy = false ∧ t.sec.page.refusal = refusalWord 0x0402 Off.SEC_KEY_CMD 0
       | .spdm code body => s.link.up = true →
           ∃ n sig, sig.length = 512 ∧ Sent s t [.spdm code (body ++ leBytes 32 n ++ sig)])

/-- SPDM requests on the DOE of a link that is up, in any mode of it and also while HELD reads 1: what each answers. One that needs the key answers Busy before
KEY_READY and UnexpectedRequest before NEGOTIATE_ALGORITHMS; a signed answer goes to the signing engine first; a
request inside a session needs that session set up. The codes are the model's (log entry 30). -/
def Obligations.SpdmRequests : Prop :=
  ∀ s : State, s.doeOn = true →
    Completes .getVersion s (fun t => t.sec.negotiated = false ∧ Sent s t [.spdm 0x04 [0x12#8]]) ∧
    Completes .getCapabilities s (fun t => t.sec.negotiated = s.sec.negotiated ∧ Sent s t [.spdm 0x61 (leBytes 4 spdmCaps)]) ∧
    (∀ bytes, Completes (.negotiateAlgorithms bytes) s fun t => t.sec.negotiated = true ∧ Sent s t [.spdm 0x63 bytes]) ∧
    (∀ n m k bytes flag, ∀ i ∈ [Instr.getDigests, .getCertificate n m k, .challenge n bytes, .getMeasurements n bytes,
        .keyExchange n bytes, .finish n bytes, .heartbeat n, .keyUpdate n k, .endSession n, .ideKm n flag],
      (s.sec.keyReady = false → Completes i s fun t =>
        Sent s t [.spdm 0x7F [0x03#8]] ∧ t.sec.sessions = s.sec.sessions ∧ t.sec.jobs = s.sec.jobs) ∧
      (s.sec.keyReady = true → s.sec.negotiated = false → Completes i s fun t =>
        Sent s t [.spdm 0x7F [0x04#8]] ∧ t.sec.sessions = s.sec.sessions ∧ t.sec.jobs = s.sec.jobs)) ∧
    (s.sec.keyReady = true → s.sec.negotiated = true →
      let chain := s.bringup.record.chain
      let signed (t : State) (code : Nat) (body : List Byte) : Prop :=
        SignJob.spdm code body ∈ t.sec.jobs ∧ Sent s t [] ∧
        t.reg .sec Off.SEC_SPDM_MSGS = s.reg .sec Off.SEC_SPDM_MSGS + 1#64
      let error (t : State) (e : Byte) : Prop := Sent s t [.spdm 0x7F [e]] ∧ t.sec.sessions = s.sec.sessions
      Completes .getDigests s (fun t => Sent s t [.spdm 0x01 (sha512 chain)]) ∧
      (∀ n m k, (n = 0 → m ≤ chain.length → Completes (.getCertificate n m k) s fun t =>
          Sent s t [.spdm 0x02 (slice chain m (min k (chain.length - m)))]) ∧
        (n ≠ 0 → Completes (.getCertificate n m k) s fun t => error t 0x01#8)) ∧
      (∀ n bytes, (n = 0 → Completes (.challenge n bytes) s fun t => signed t 0x03 (sha512 chain ++ bytes)) ∧
        (n ≠ 0 → Completes (.challenge n bytes) s fun t => error t 0x01#8)) ∧
      (Completes (.getMeasurements 0 []) s fun t => Sent s t [.spdm 0x60 (leBytes 1 s.measured.length)]) ∧
      (∀ n bytes d, n ≠ 0 → s.measurement n = some d → Completes (.getMeasurements n bytes) s fun t =>
        if bytes = [] then Sent s t [.spdm 0x60 (leBytes 1 n ++ d)] else signed t 0x60 (leBytes 1 n ++ d ++ bytes)) ∧
      ∀ n,
        ((∀ f, (n, f) ∉ s.sec.sessions) →
          (s.sec.sessions.length < 4 → ∀ bytes, Completes (.keyExchange n bytes) s fun t =>
            signed t 0x64 bytes ∧ t.sec.sessions = s.sec.sessions ++ [(n, false)]) ∧
          (4 ≤ s.sec.sessions.length → ∀ bytes, Completes (.keyExchange n bytes) s fun t => error t 0x0A#8) ∧
          Completes (.heartbeat n) s (fun t => error t 0x02#8) ∧
          ∀ flag, Completes (.ideKm n flag) s fun t => error t 0x02#8 ∧ t.link.ioIde = s.link.ioIde ∧
            t.link.cmIde = s.link.cmIde ∧ t.sec.ideSession = s.sec.ideSession) ∧
        ((n, false) ∈ s.sec.sessions → ∀ bytes, Completes (.finish n bytes) s fun t =>
          (n, true) ∈ t.sec.sessions ∧ (n, false) ∉ t.sec.sessions ∧ Sent s t [.spdm 0x65 []]) ∧
        ((n, true) ∈ s.sec.sessions →
          Completes (.heartbeat n) s (fun t => Sent s t [.spdm 0x68 []] ∧ t.sec.sessions = s.sec.sessions) ∧
          (∀ k, Completes (.keyUpdate n k) s fun t => Sent s t [.spdm 0x69 (leBytes 1 k)] ∧ t.sec.sessions = s.sec.sessions) ∧
          Completes (.endSession n) s (fun t => (∀ f, (n, f) ∉ t.sec.sessions) ∧ Sent s t [.spdm 0x6C []] ∧
            t.link.ioIde = s.link.ioIde ∧ t.link.cmIde = s.link.cmIde ∧ t.sec.ideSession = s.sec.ideSession) ∧
          ∀ flag, Completes (.ideKm n flag) s fun t =>
            t.sec.ideSession = some n ∧ t.link.ioIde = (s.link.ioIde || flag) ∧ t.link.cmIde = (s.link.cmIde || !flag)))

/-- ERROR_RECORD_WRITE: the report goes from its page, its 64-byte record goes to the ring of its field, with the
ring's tail and SEQ advancing, or is counted lost where the ring takes none; the report's vector follows; a
CONTAINED or GABLE-FATAL error is noted for its gable's running step, an ENGINE-FATAL one sets DEV's ENGINE_FATAL.
Background work: a store patrol step takes the next row of every bank, and stops the cluster on an uncorrectable
word; a stack patrol step takes the next chunk; a sweep that finds more than 16 differences reports the wire. Aging
and marks: a mean slowdown that moved by 0.5 % is logged; one above 1.5 % times the raises so far, plus one, raises
Vmin by 10 mV at the next step start; FC_MARK is judged, and when it is complete the core or the cluster is
unusable. The wear log takes an entry for each. -/
def Obligations.ErrorsPatrolsAndMarks : Prop :=
  (∀ (s : State) (pg : PageRef) (n : Nat) (r : Report), pg.ok = true → (s.page pg).reports[n]? = some r → s.hibOn = true →
     let f := ringField pg
     let cover := !isDeviceLevel pg && (s.field (partner f)).covering
     let tail := fld (s.reg (.field f) Off.FC_ERR_TAIL) 0 16
     let at_ := (s.reg (.field f) Off.FC_ERR_BASE).toNat + 64 * (tail % 2 ^ fld (s.reg (.field f) Off.FC_ERR_CFG) 0 4)
     (isDeviceLevel pg || cover || (s.field f).running) = true → Completes (.errorRecordWrite pg n) s fun t =>
       (t.page pg).reports = (s.page pg).reports.eraseIdx n ∧
       (s.errRingShut f = false → (t.field f).seq = ((s.field f).seq + 1) % 2 ^ 32 ∧
         fld (t.reg (.field f) Off.FC_ERR_TAIL) 0 16 = (tail + 1) % 65536 ∧
         (s.link.held = false → s.link.vecMasked (errVector r f) = false →
           Sent s t [.hostWrite 0 at_ (s.errorRecord pg r f cover), .vector 0 (errVector r f)])) ∧
       (s.errRingShut f = true → (t.field f).seq = (s.field f).seq ∧ bit (t.field f).page.fault 5 = true) ∧
       (r.cls = .contained ∨ r.cls = .gableFatal → r.tint ≠ 0 → (s.gable r.tint).step = .running →
         (t.gable r.tint).errs = (s.gable r.tint).errs ++ [(r.time, decide (pg.block = .weave ∧ r.bit = 0))]) ∧
       (r.cls = .engineFatal → bit t.dev.fault 2 = true ∧
         (bit s.dev.fault 2 = false → t.reg .dev Off.DEV_ERR_TIME = s.now))) ∧
  (∀ s : State,
     (∀ cl, cl < 4032 → s.powered = true → (s.bay (clBay cl)).power = .lit →
       (s.dispatcher (clField cl)).isSome = true → Completes (.storePatrol cl) s fun t =>
       let row := (s.cl cl).patrolRow
       (t.cl cl).patrolRow = (row + 1) % 6144 ∧ (t.cl cl).store = (s.cl cl).store ∧
       t.reg (.cluster cl) Off.CL_STORE_BG = s.reg (.cluster cl) Off.CL_STORE_BG + 32#64 ∧
       (((s.cl cl).storeScan (256 * row) (256 * row + 256)).2 = true →
         (t.cl cl).storeStop = true ∧ bit (t.cl cl).page.fault 2 = true) ∧
       (((s.cl cl).storeScan (256 * row) (256 * row + 256)).2 = false → (t.cl cl).storeStop = (s.cl cl).storeStop)) ∧
     (∀ b, b < 336 → s.powered = true → (s.bay b).power = .lit → bit (s.reg (.baymem b) Off.BM_CFG) 0 = true →
       (s.dispatcher (bayField b)).isSome = true →
       Completes (.stackPatrol b) s fun t =>
         (t.bay b).patrolChunk = ((s.bay b).patrolChunk + 1) % 2 ^ 23 ∧ (t.bay b).stack = (s.bay b).stack ∧
         (∀ k, k ≠ b → t.bay k = s.bay k)) ∧
     (∀ cl lp n m, cl < 4032 → lp < 8 → n < 1088 → 16 < m → s.bayOk (clBay cl) = true →
       ((s.router cl).link lp).state = .up → SMap.get none ((s.router cl).link lp).spares (wireGroup n) = none →
       (s.dispatcher (clField cl)).isSome = true →
       Completes (.spareWireSweep cl lp n m) s fun t =>
         let f := PageRef.field (clField cl)
         bit (t.field (clField cl)).page.fault 2 = true ∧
         (bit (s.reg f Off.FC_WIRE_MARGINAL) 0 = false → t.reg f Off.FC_WIRE_MARGINAL =
           BitVec.ofNat 64 (1 + lp * 2 + clX cl * 16 + clY cl * 2048 + n * 131072)) ∧
         t.clusters = s.clusters)) ∧
  ((∀ (s : State) (cl n : Nat), cl < 4032 → s.bayOk (clBay cl) = true → s.wearFull = false →
     (s.dispatcher (clField cl)).isSome = true →
     let x := s.cl cl
     let moved := x.slowdown + 5 ≤ n ∨ n + 5 ≤ x.slowdown
     let due := 15 * (x.vminRaises + x.vminDue + 1) < n
     let entry (k d : Nat) : WearEntry := { kind := k, time := s.now, data := [clX cl, clY cl, d] }
     (moved → ¬due → Completes (.agingReading cl n) s fun t =>
       (t.cl cl).slowdown = n ∧ t.bringup.wear = s.bringup.wear ++ [entry 6 n] ∧ (t.cl cl).vminDue = x.vminDue) ∧
     (¬moved → due → Completes (.agingReading cl n) s fun t =>
       t.bringup.wear = s.bringup.wear ++ [entry 5 10] ∧ (t.cl cl).slowdown = x.slowdown ∧
       (t.cl cl).vminRaises + (t.cl cl).vminDue = x.vminRaises + x.vminDue + 1 ∧
       (s.clTint cl ≠ 0 → (t.cl cl).vminDue = x.vminDue + 1) ∧
       (bit (t.field (clField cl)).page.fault 3 || bit (t.field (clField cl)).page.fault 4) = true) ∧
     (¬moved → ¬due → Completes (.agingReading cl n) s fun t => t.toChip = s.toChip)) ∧
   ∀ (s : State) (f : Nat), f < 84 →
     (∀ v : BitVec 64, Reaches s.toChip (.field f) → (s.field f).marking = none → bit v 25 = true →
       Completes (.fcMark f v) s fun t => match leastFail (s.markFails f v) with
         | some e => (t.field f).marking = none ∧ (t.field f).page.refused = true ∧
             (t.field f).page.refusal = refusalWord e.1 e.2.1 0
         | none => (t.field f).marking = some v ∧ t.clusters = s.clusters) ∧
     ∀ v : BitVec 64, (s.field f).marking = some v → s.wearFull = false → Completes (.fcMarkComplete f) s fun t =>
       let x := fld v 0 7
       let y := fld v 8 6
       let c := fld v 16 8
       (t.field f).marking = none ∧
       (bit v 24 = true → (t.cl (clAt x y)).unusable = true ∧ (t.cl (clAt x y)).hole = (s.cl (clAt x y)).hole ∧
         t.bringup.wear = s.bringup.wear ++ [{ kind := 4, time := s.now, data := [x, y, 0] }]) ∧
       (bit v 24 = false → (c < 136 → (t.cl (clAt x y)).coreDead c = true) ∧
         t.bringup.wear = s.bringup.wear ++ [{ kind := 3, time := s.now, data := [x, y, c] }]))

/-- MCTP requests of a module that answers at its address: each sends one response, and only SET_ENDPOINT_ID changes
anything of the module. The response codes are the model's (log entry 32). Boundary scan on standby power: the
instruction register takes the opcode and the selected register shifts out last; an instruction that takes the pins
halts the engine, and takes the host link down when the pins were free; an EB test takes every eave link OUT. -/
def Obligations.ManagementAndBoundaryScan : Prop :=
  (∀ s : State, s.mctpAnswers = true →
     let ok (c : Instr) (body : List Byte) : Prop := Completes c s fun t => Sent s t [.mctp body] ∧ t.module = s.module
     (∀ n m, n ≤ 1 → 1 ≤ m → m < 255 → Completes (.setEndpointId n m) s fun t =>
       t.module = { s.module with eid := m } ∧ Sent s t [.mctp [0x00#8, 0x00#8, BitVec.ofNat 8 m, 0x00#8]]) ∧
     (∀ n m, (1 < n ∨ m = 0 ∨ 255 ≤ m) → ok (.setEndpointId n m) [0x02#8]) ∧
     ok .getEndpointId [0x00#8, BitVec.ofNat 8 s.module.eid, 0x00#8, 0x00#8] ∧
     ok .getMessageTypeSupport [0x00#8, 0x01#8, 0x7F#8] ∧
     (∀ n, n = 0xFF ∨ n = 0x00 ∨ n = 0x7F → Completes (.getMctpVersionSupport n) s fun t =>
       t.module = s.module ∧ ∃ v, Sent s t [.mctp ([0x00#8, 0x01#8] ++ leBytes 4 v)]) ∧
     (Completes (.getVendorDefinedMessageSupport 0) s fun t =>
       t.module = s.module ∧ ∃ v, Sent s t [.mctp ([0x00#8, 0xFF#8, 0x01#8] ++ enterprise ++ leBytes 2 v)]) ∧
     (∀ n, n ≠ 0 → ok (.getVendorDefinedMessageSupport n) [0x02#8]) ∧
     (∀ n m k, k ≠ 1 → ok (.mctpRead n m k) (enterprise ++ [0x81#8, 0x03#8])) ∧
     (∀ n m, (n % 8 ≠ 0 ∨ m < 1 ∨ 7 < m ∨ 0x7000 < n + 8 * m) → ok (.mctpRead n m 1) (enterprise ++ [0x81#8, 0x01#8])) ∧
     ∀ n m, n % 8 = 0 → 1 ≤ m → m ≤ 7 → n + 8 * m ≤ 0x7000 → (s.page (mctpPage n)).check = none →
       (s.page (mctpPage (n + 8 * (m - 1)))).check = none →
       ok (.mctpRead n m 1) (enterprise ++ [0x81#8, 0x00#8] ++ (s.mctpRegs n m).1)) ∧
  (∀ s : State, s.module.standby = true →
     let shows (t : State) (op n : Nat) : Prop := t.module.tapIr = op ∧ ∃ v, t.out.getLast? = some (.tdo n v)
     let cells (t : State) (op : Nat) : Prop := (s.powered = true → shows t op 1024) ∧
       (s.powered = false → t.module.tapIr = op ∧ t.out.getLast? = some (.tdo 1 0))
     let takes (t : State) : Prop := t.halting = true ∧ (s.module.tapTakes = false → t.link.up = false)
     let outs (t : State) : Prop := s.powered = true → ∀ p < 32, ∀ l ∈ t.evLinks p, (t.evLink p l).state = .out
     Completes .tapReset s (fun t => t.module.tapIr = 0x01) ∧
     Completes .idcode s (fun t => t.module.tapIr = 0x01 ∧ t.out.getLast? = some (.tdo 32
       (s.bringup.record.stepping % 16 * 2 ^ 28 + 0xD201 * 2 ^ 12 + 0x5A3 * 2 + 1))) ∧
     Completes .bypass s (fun t => t.module.tapIr = 0xFF ∧ t.out.getLast? = some (.tdo 1 0)) ∧
     Completes .clamp s (fun t => shows t 0x04 1 ∧ takes t) ∧
     Completes .highz s (fun t => shows t 0x05 1 ∧ takes t) ∧
     Completes .samplePreload s (fun t => shows t 0x02 81) ∧
     Completes .extest s (fun t => shows t 0x00 81 ∧ takes t) ∧
     Completes .extestPulse s (fun t => shows t 0x08 81 ∧ takes t) ∧
     Completes .extestTrain s (fun t => shows t 0x09 81 ∧ takes t) ∧
     Completes .ebSample s (fun t => cells t 0x12) ∧
     Completes .ebExtestPulse s (fun t => cells t 0x18 ∧ outs t) ∧
     Completes .ebExtestTrain s (fun t => cells t 0x19 ∧ outs t))

/-- What reset leaves: no command waits, no logical cluster is committed, no step of bring-up is done, every core
reads STOPPED at PC 0, every page is off with no fault, the host link is down. -/
def Obligations.ResetLeaves : Prop :=
  State.reset.pending = [] ∧ State.reset.committed = [] ∧ State.reset.bringup.done = 0#64 ∧
  State.reset.bringup.lastReset = 0 ∧ State.reset.link.up = false ∧ State.reset.tk.now = 0#64 ∧
  (∀ cl p, (State.reset.core cl p).run = .stopped ∧ (State.reset.core cl p).pc = 0#16) ∧
  (∀ b, (State.reset.bay b).power = .unlit ∧ (State.reset.bay b).tint = 0) ∧
  (∀ pg, (State.reset.page pg).enable = false ∧ (State.reset.page pg).fault = 0#64 ∧ (State.reset.page pg).check = none)
end

