-- ==== Sys2Proof/Laws/Access.lean ====
section
/-! SUPPORT. What an access of the host to a page can do: the page reads as the access left it, every other page and
everything the pages do not hold is as it was. -/

namespace Sys2Proof.Machine

open Sys2Proof

/-! ### Pages -/

/-- The page changed reads as `f` left it. -/
theorem Chip.page_modPage_same (s : Chip) (pg : PageRef) (f : Page → Page) (h : pg.ok = true) :
    (s.modPage pg f).page pg = f (s.page pg) := by
  cases pg <;> first
    | rfl
    | (simp [Chip.modPage, Chip.page]; done)
    | (simp [Chip.modPage, Chip.page, Chip.modEngine, Cluster.modEngine]; done)
    | skip
  rename_i cl n
  simp only [PageRef.ok, Bool.and_eq_true, decide_eq_true_eq] at h
  obtain h0 | h0 : n = 0 ∨ n = 1 := by omega
  · subst h0; simp [Chip.modPage, Chip.page, Chip.modEngine, Cluster.modEngine, Cluster.engine]
  · subst h0; simp [Chip.modPage, Chip.page, Chip.modEngine, Cluster.modEngine, Cluster.engine]

/-- Another page is as it was. -/
theorem Chip.page_modPage_other (s : Chip) (pg qg : PageRef) (f : Page → Page) (hp : pg.ok = true) (hq : qg.ok = true)
    (h : qg ≠ pg) : (s.modPage pg f).page qg = s.page qg := by
  have two : ∀ {cl n : Nat}, (PageRef.dma cl n).ok = true → n = 0 ∨ n = 1 := by
    intro cl n h
    simp only [PageRef.ok, Bool.and_eq_true, decide_eq_true_eq] at h
    omega
  cases pg <;> cases qg <;> first
    | rfl
    | exact absurd rfl h
    | (simp only [Chip.modPage, Chip.page, Chip.gable_modGable, Chip.eave_modEave, Chip.field_modField, Chip.bay_modBay]
       split <;> simp_all <;> done)
    | skip
  all_goals
    simp only [Chip.modPage, Chip.page, Chip.modEngine, Chip.cl_modCl]
    split <;> first
      | rfl
      | skip
  all_goals
    rename_i hk
    subst hk
  all_goals first
    | exact absurd rfl h
    | rfl
    | (obtain h0 | h0 := two hp <;> obtain h1 | h1 := two hq <;> subst h0 <;> subst h1 <;>
        first | rfl | exact absurd rfl h)
    | (obtain h0 | h0 := two hp <;> subst h0 <;> rfl)
    | (obtain h0 | h0 := two hq <;> subst h0 <;> rfl)

/-! ### Registers of a page -/

/-- A register written reads back; another register of the page is as it was. -/
theorem Page.reg_setReg (p : Page) (k : Block) (o o' : Nat) (v : W) :
    (p.setReg k o v).reg k o' = if o' = o then v else p.reg k o' := by
  simp only [Page.reg, Page.setReg]
  by_cases h : o' = o
  · subst h; simp
  · rw [if_neg h, SMap.get_set_ne _ _ _ h]

theorem Page.reg_modReg (p : Page) (k : Block) (o o' : Nat) (f : W → W) :
    (p.modReg k o f).reg k o' = if o' = o then f (p.reg k o) else p.reg k o' := Page.reg_setReg p k o o' _

theorem Chip.reg_setReg (s : Chip) (pg : PageRef) (o o' : Nat) (v : W) (h : pg.ok = true) :
    (s.setReg pg o v).reg pg o' = if o' = o then v else s.reg pg o' := by
  simp only [Chip.reg, Chip.setReg, Chip.page_modPage_same _ _ _ h, Page.reg_setReg]

theorem Chip.reg_modReg (s : Chip) (pg : PageRef) (o o' : Nat) (f : W → W) (h : pg.ok = true) :
    (s.modReg pg o f).reg pg o' = if o' = o then f (s.reg pg o) else s.reg pg o' := by
  simp only [Chip.reg, Chip.modReg, Chip.page_modPage_same _ _ _ h, Page.reg_modReg]

/-- A register of another page is as it was. -/
theorem Chip.reg_modReg_other (s : Chip) (pg qg : PageRef) (o o' : Nat) (f : W → W) (hp : pg.ok = true)
    (hq : qg.ok = true) (h : qg ≠ pg) : (s.modReg pg o f).reg qg o' = s.reg qg o' := by
  simp only [Chip.reg, Chip.modReg, Chip.page_modPage_other _ _ _ _ hp hq h]

/-- A change of a register leaves what its page holds beside registers. -/
theorem Page.modReg_kept (p : Page) (k : Block) (o : Nat) (f : W → W) :
    { p.modReg k o f with regs := [] } = { p with regs := [] } := rfl

/-! ### What a page's change leaves: cores, places, supplies -/

@[simp] theorem Chip.core_modPage (s : Chip) (pg : PageRef) (f : Page → Page) (cl p : Nat) :
    (s.modPage pg f).core cl p = s.core cl p := by
  cases pg <;> first
    | rfl
    | (simp only [Chip.modPage, Chip.core, Chip.modEngine, Chip.cl_modCl]
       split <;> first | rfl | skip)
  all_goals
    rename_i hk
    subst hk
    first
      | rfl
      | (unfold Cluster.modEngine; split <;> rfl)

@[simp] theorem Chip.clTint_modPage (s : Chip) (pg : PageRef) (f : Page → Page) (cl : Nat) :
    (s.modPage pg f).clTint cl = s.clTint cl := by
  cases pg <;> first
    | rfl
    | (simp only [Chip.modPage, Chip.clTint, Chip.bay_modBay]
       split <;> simp_all)

@[simp] theorem Chip.now_modPage (s : Chip) (pg : PageRef) (f : Page → Page) : (s.modPage pg f).now = s.now := by
  cases pg <;> rfl

/-! ### An access -/

theorem Chip.finishCheck_none {s : Chip} {pg : PageRef} (h : (s.page pg).check = none) : s.finishCheck pg = s := by
  simp [Chip.finishCheck, h]

/-- The access is counted at the HIB (HIB_BAR0_READS, HIB_BAR0_WRITES), and for a page of a bay at its Ridge node (BY_RIDGE_ACCESSES). -/
theorem Chip.countAccess_eq (s : Chip) (pg : PageRef) (w : Bool) :
    s.countAccess pg w =
      match pg.bay? with
      | some b => (s.count .hib (if w then Off.HIB_BAR0_WRITES else Off.HIB_BAR0_READS) 1).count (.bay b) Off.BY_RIDGE_ACCESSES 1
      | none => s.count .hib (if w then Off.HIB_BAR0_WRITES else Off.HIB_BAR0_READS) 1 := by
  unfold Chip.countAccess; cases pg.bay? <;> rfl

@[simp] theorem Chip.core_count (s : Chip) (pg : PageRef) (o n cl p : Nat) : (s.count pg o n).core cl p = s.core cl p :=
  Chip.core_modPage s pg _ cl p
@[simp] theorem Chip.out_count (s : Chip) (pg : PageRef) (o n : Nat) : (s.count pg o n).out = s.out := Chip.out_modPage s pg _
@[simp] theorem Chip.link_count (s : Chip) (pg : PageRef) (o n : Nat) : (s.count pg o n).link = s.link := Chip.link_modPage s pg _
@[simp] theorem Chip.draws_count (s : Chip) (pg : PageRef) (o n : Nat) : (s.count pg o n).draws = s.draws := Chip.draws_modPage s pg _
@[simp] theorem Chip.module_count (s : Chip) (pg : PageRef) (o n : Nat) : (s.count pg o n).module = s.module := Chip.module_modPage s pg _
@[simp] theorem Chip.clTint_count (s : Chip) (pg : PageRef) (o n cl : Nat) : (s.count pg o n).clTint cl = s.clTint cl :=
  Chip.clTint_modPage s pg _ cl
@[simp] theorem Chip.now_count (s : Chip) (pg : PageRef) (o n : Nat) : (s.count pg o n).now = s.now := Chip.now_modPage s pg _

section
variable (s : Chip) (pg : PageRef) (w : Bool)

@[simp] theorem Chip.core_countAccess (cl p : Nat) : (s.countAccess pg w).core cl p = s.core cl p := by
  rw [Chip.countAccess_eq]; split <;> simp
@[simp] theorem Chip.out_countAccess : (s.countAccess pg w).out = s.out := by rw [Chip.countAccess_eq]; split <;> simp
@[simp] theorem Chip.link_countAccess : (s.countAccess pg w).link = s.link := by rw [Chip.countAccess_eq]; split <;> simp
@[simp] theorem Chip.draws_countAccess : (s.countAccess pg w).draws = s.draws := by rw [Chip.countAccess_eq]; split <;> simp
@[simp] theorem Chip.module_countAccess : (s.countAccess pg w).module = s.module := by rw [Chip.countAccess_eq]; split <;> simp
@[simp] theorem Chip.clTint_countAccess (cl : Nat) : (s.countAccess pg w).clTint cl = s.clTint cl := by
  rw [Chip.countAccess_eq]; split <;> simp
@[simp] theorem Chip.now_countAccess : (s.countAccess pg w).now = s.now := by rw [Chip.countAccess_eq]; split <;> simp
@[simp] theorem Chip.clusters_countAccess : (s.countAccess pg w).clusters = s.clusters := by
  rw [Chip.countAccess_eq]; split <;> rfl
@[simp] theorem Chip.gables_countAccess : (s.countAccess pg w).gables = s.gables := by
  rw [Chip.countAccess_eq]; split <;> rfl
@[simp] theorem Chip.eaves_countAccess : (s.countAccess pg w).eaves = s.eaves := by
  rw [Chip.countAccess_eq]; split <;> rfl
@[simp] theorem Chip.fields_countAccess : (s.countAccess pg w).fields = s.fields := by
  rw [Chip.countAccess_eq]; split <;> rfl
@[simp] theorem Chip.sec_countAccess : (s.countAccess pg w).sec = s.sec := by rw [Chip.countAccess_eq]; split <;> rfl
@[simp] theorem Chip.bringup_countAccess : (s.countAccess pg w).bringup = s.bringup := by
  rw [Chip.countAccess_eq]; split <;> rfl
@[simp] theorem Chip.tk_countAccess : (s.countAccess pg w).tk = s.tk := by rw [Chip.countAccess_eq]; split <;> rfl
@[simp] theorem Chip.dev_countAccess : (s.countAccess pg w).dev = s.dev := by rw [Chip.countAccess_eq]; split <;> rfl
@[simp] theorem Chip.committed_countAccess : (s.countAccess pg w).committed = s.committed := by
  rw [Chip.countAccess_eq]; split <;> rfl
@[simp] theorem Chip.wmt_countAccess : (s.countAccess pg w).wmt = s.wmt := by rw [Chip.countAccess_eq]; split <;> rfl

end

/-- A write that reaches its page is counted and has its effect; nothing else happens. -/
theorem Chip.cmdWrite_reaches {s : Chip} {pg : PageRef} (h : Reaches s pg) (off : Nat) (f : Chip → Chip) :
    s.cmdWrite pg off f = f (s.countAccess pg true) := by
  obtain ⟨h1, h2, h3⟩ := h
  simp [Chip.cmdWrite, Chip.hostAccess, h1, h2, h3, Chip.finishCheck_none]

theorem Chip.hostAccess_reaches {s : Chip} {pg : PageRef} (h : Reaches s pg) (off : Nat) (w : Bool) (f : Chip → Chip) :
    s.hostAccess pg off w f = f (s.countAccess pg w) := by
  obtain ⟨h1, h2, h3⟩ := h
  simp [Chip.hostAccess, h1, h2, h3, Chip.finishCheck_none]

/-- A read that reaches its page answers with the value `f` gives. -/
theorem Chip.hostRead_reaches {s : Chip} {pg : PageRef} (h : Reaches s pg) (off : Nat) (f : Chip → W × Chip) :
    s.hostRead pg off f = ((f (s.countAccess pg false)).2).emit (.readData (f (s.countAccess pg false)).1) := by
  have h' := h
  obtain ⟨h1, h2, h3⟩ := h'
  simp [Chip.hostRead, h1, h2, Chip.hostAccess_reaches h]

/-- A command that is one write of a page: what it answers when it reaches the page. -/
theorem State.run_cmdWrite {s : State} {pg : PageRef} {ok : Bool} {f : Chip → Eff} {off : Nat} {g : Chip → Chip}
    (hok : ok = true) (h : Reaches s.toChip pg) (hf : f s.toChip = onUnit ok (s.toChip.cmdWrite pg off g)) :
    s.run f = .next { s with toChip := g (s.toChip.countAccess pg true) } :=
  State.run_onUnit hok (by rw [hf, Chip.cmdWrite_reaches h])

/-! ### What goes to the host, and a refusal -/

/-- What is sent while nothing holds the traffic goes out last. -/
theorem Chip.sendHost_free {s : Chip} (o : Output) (h : s.link.held = false) : s.sendHost o = { s with out := s.out ++ [o] } := by
  simp [Chip.sendHost, h]

/-- A vector that is not masked is sent. -/
theorem Chip.signal_free {s : Chip} (fn vec : Nat) (h : s.link.held = false) (hm : s.link.vecMasked (2048 * fn + vec) = false) :
    s.signal fn vec = { s with out := s.out ++ [.vector fn vec] } := by
  simp [Chip.signal, hm, Chip.sendHost_free _ h]

/-- A masked vector is pending, once. -/
theorem Chip.signal_masked {s : Chip} (fn vec : Nat) (hm : s.link.vecMasked (2048 * fn + vec) = true) :
    (s.signal fn vec).out = s.out ∧ 2048 * fn + vec ∈ (s.signal fn vec).link.pendingVec := by
  simp only [Chip.signal, hm, if_true]
  split
  · exact ⟨rfl, by assumption⟩
  · exact ⟨rfl, by simp⟩

/-- A refusal shows on its page and changes nothing but the page. -/
theorem Chip.page_refuse (s : Chip) (pg : PageRef) (code off idx : Nat) (h : pg.ok = true) :
    (s.refuse pg code off idx).page pg =
      { s.page pg with refused := true, refusal := refusalWord code off idx } := by
  simp only [Chip.refuse, Chip.page_modPage_same _ _ _ h]; rfl

end Sys2Proof.Machine
end

