-- ==== Sys2Proof/Laws/Image.lean ====
section
/-! SUPPORT. The canonical form of memory under the operations that lay a cluster image in a save area and take it
from there (R279): cells moved, cut out and joined, and an area written whole. -/

namespace Sys2Proof.Machine

open Sys2Proof

/-- Canonical form said of the list: keys rise, and no value is the one an unlisted key reads as. -/
theorem SMap.wfFrom_iff {α : Type} [DecidableEq α] (d : α) (m : SMap α) : ∀ lo, SMap.wfFrom d lo m = true ↔
    (∀ p ∈ m, SMap.above lo p.1 = true) ∧ m.Pairwise (fun p q => p.1 < q.1) ∧ ∀ p ∈ m, p.2 ≠ d := by
  induction m with
  | nil => intro lo; simp [SMap.wfFrom]
  | cons q m ih =>
    obtain ⟨k, v⟩ := q
    intro lo
    rw [SMap.wfFrom_cons]
    simp only [Bool.and_eq_true, decide_eq_true_eq, ih, List.mem_cons, forall_eq_or_imp, List.pairwise_cons, SMap.above]
    constructor
    · rintro ⟨⟨h1, h2⟩, h3, h4, h5⟩
      exact ⟨⟨h1, fun p hp => SMap.above_trans h1 (h3 p hp)⟩, ⟨h3, h4⟩, h2, h5⟩
    · rintro ⟨⟨h1, -⟩, ⟨h3, h4⟩, h2, h5⟩
      exact ⟨⟨h1, h2⟩, h3, h4, h5⟩

theorem Memory.wf_iff (m : Mem) : Memory.wf m = true ↔ m.Pairwise (fun p q => p.1 < q.1) ∧ ∀ p ∈ m, p.2 ≠ 0#8 := by
  simp [Memory.wf, SMap.wf, SMap.wfFrom_iff, SMap.above]

/-- Cells moved up keep the form. -/
theorem wf_shiftUp (n : Nat) (m : Mem) (h : Memory.wf m = true) : Memory.wf (shiftUp n m) = true := by
  rw [Memory.wf_iff] at h ⊢
  refine ⟨by simpa [shiftUp, List.pairwise_map] using h.1, fun p hp => ?_⟩
  obtain ⟨q, hq, rfl⟩ := List.mem_map.1 hp
  exact h.2 q hq

/-- Cells cut out of a memory keep the form. -/
theorem wf_cutCells (m : Mem) (lo n : Nat) (h : Memory.wf m = true) : Memory.wf (cutCells m lo n) = true := by
  rw [Memory.wf_iff] at h ⊢
  obtain ⟨hp, hv⟩ := h
  constructor
  · rw [cutCells, List.pairwise_map]
    refine (hp.filter _).imp_of_mem ?_
    intro a b ha hb hab
    simp only [List.mem_filter, Bool.and_eq_true, decide_eq_true_eq] at ha hb
    omega
  · intro p hp
    simp only [cutCells, List.mem_map, List.mem_filter] at hp
    obtain ⟨q, ⟨hq, -⟩, rfl⟩ := hp
    exact hv q hq

/-- Memories one above the other join in the form. -/
theorem wf_append (a b : Mem) (ha : Memory.wf a = true) (hb : Memory.wf b = true)
    (h : ∀ p ∈ a, ∀ q ∈ b, p.1 < q.1) : Memory.wf (a ++ b) = true := by
  rw [Memory.wf_iff] at ha hb ⊢
  exact ⟨List.pairwise_append.2 ⟨ha.1, hb.1, h⟩, fun p hp => (List.mem_append.1 hp).elim (ha.2 p) (hb.2 p)⟩

/-- A memory in the form filtered by address keeps it. -/
theorem Memory.wf_filter (m : Mem) (f : Host.Cell → Bool) (h : Memory.wf m = true) : Memory.wf (m.filter f) = true :=
  SMap.wfFrom_filter 0#8 f m none h

/-- A stack keeps the form when an image in the form, within its area, is laid in it. -/
theorem Bay.putImage_stack_wf (x : Bay) (base n : Nat) (img : Cluster) (key : BitVec 512) (hx : Memory.wf x.stack = true)
    (hi : Memory.wf (img.imageCells base) = true) (ha : ∀ p ∈ img.imageCells base, base ≤ p.1 ∧ p.1 < base + imageSize) :
    Memory.wf (x.putImage base n img key).stack = true := by
  refine wf_append _ _ (wf_append _ _ (Memory.wf_filter _ _ hx) hi ?_) (Memory.wf_filter _ _ hx) ?_
  · intro p hp q hq
    have := (ha q hq).1
    simp only [List.mem_filter, decide_eq_true_eq] at hp
    omega
  · intro p hp q hq
    simp only [List.mem_filter, decide_eq_true_eq] at hq
    rcases List.mem_append.1 hp with hp | hp
    · simp only [List.mem_filter, decide_eq_true_eq] at hp
      omega
    · have := (ha p hp).2
      omega

end Sys2Proof.Machine
end

