-- ==== Sys2Proof/Laws/Units.lean ====
section
/-! SUPPORT. What the shared operations of the units round the cluster store and of the routers do: the
units of a cluster, the error scan, reads and writes of local memory and of the store, a unit's command
list, neighbours in the mesh, and answers to packets. -/

namespace Sys2Proof.Machine

open Sys2Proof

/-! ### The five units of a cluster -/

theorem Cluster.engine_modEngine (c : Cluster) {u v : Nat} (f : Engine → Engine) (hu : u < 5) (hv : v < 5) :
    (c.modEngine u f).engine v = if v = u then f (c.engine u) else c.engine v := by
  interval_cases u <;> interval_cases v <;> rfl

theorem Chip.engine_modEngine (s : Chip) (cl : Nat) {u v : Nat} (f : Engine → Engine) (hu : u < 5) (hv : v < 5) :
    ((s.modEngine cl u f).cl cl).engine v = if v = u then f ((s.cl cl).engine u) else (s.cl cl).engine v := by
  simp [Chip.modEngine, Cluster.engine_modEngine _ f hu hv]

theorem Chip.cl_modEngine_other (s : Chip) (u : Nat) {cl i : Nat} (f : Engine → Engine) (h : i ≠ cl) :
    (s.modEngine cl u f).cl i = s.cl i := by
  simp [Chip.modEngine, h]

/-- An update of a unit leaves what of its cluster is no unit. -/
theorem Cluster.modEngine_rest (c : Cluster) (u : Nat) (f : Engine → Engine) :
    (c.modEngine u f).store = c.store ∧ (c.modEngine u f).cores = c.cores ∧ (c.modEngine u f).weave = c.weave ∧
      (c.modEngine u f).router = c.router ∧ (c.modEngine u f).valleys = c.valleys ∧ (c.modEngine u f).ctu = c.ctu ∧
      (c.modEngine u f).sets = c.sets ∧ (c.modEngine u f).page = c.page := by
  unfold Cluster.modEngine
  split <;> simp

/-! ### A unit's commands in progress -/

theorem Engine.list_setList (e : Engine) (q r : Nat) (l : List Active) :
    (e.setList q l).list r = if r = q then l else e.list r := SMap.get_set _ _ _ _ _

/-- Of a ring's commands in progress, those with the given place are the ones changed. -/
theorem Engine.modCmd_list (e : Engine) (q pl : Nat) (f : Active → Active) :
    (e.modCmd q pl f).list q = (e.list q).map fun a => if a.place = pl then f a else a := by
  simp [Engine.modCmd, Engine.list_setList]

theorem Chip.finish_list {s : Chip} {cl u q pl : Nat} (hu : u < 5) :
    (((s.finish cl u q pl).cl cl).engine u).list q =
      (((s.cl cl).engine u).list q).map fun a => if a.place = pl then { a with finished := true } else a := by
  simp only [Chip.finish, Chip.engine_modEngine _ _ _ hu hu, if_true, Engine.modCmd_list]

theorem Chip.setProgress_list {s : Chip} {cl u q pl n : Nat} (hu : u < 5) :
    (((s.setProgress cl u q pl n).cl cl).engine u).list q =
      (((s.cl cl).engine u).list q).map fun a => if a.place = pl then { a with progress := n } else a := by
  simp only [Chip.setProgress, Chip.engine_modEngine _ _ _ hu hu, if_true, Engine.modCmd_list]

/-! ### Error correction (R113, R114, R171) -/

@[simp] theorem eccScan_nil (lo hi : Nat) : eccScan [] lo hi = (0, none) := rfl
@[simp] theorem eccFix_nil (lo hi : Nat) : eccFix [] lo hi = [] := rfl
@[simp] theorem eccWipe_nil (lo hi : Nat) : eccWipe [] lo hi = [] := rfl
@[simp] theorem eccNote_none (v : W) (acc : Bool) (word : Nat) : eccNote v 0 false acc word = v := rfl
@[simp] theorem storeEccNote_none (v : W) (line : Nat) : storeEccNote v 0 false line = v := rfl

theorem Core.lmScan_clean {c : Core} (lo hi : Nat) (h : c.lmErr = []) : c.lmScan lo hi = (c, false) := by
  cases c; subst h; rfl

/-- A read of local memory that holds no error gives its bytes and changes nothing. -/
theorem Core.lmRead_clean {c : Core} (a n : Nat) (h : c.lmErr = []) : c.lmRead a n = (c, some (Memory.read c.lm a n)) := by
  simp [Core.lmRead, Core.lmScan_clean _ _ h]

/-- A write of local memory that holds no error stores its bytes. -/
theorem Core.lmWrite_clean {c : Core} (a : Nat) (bs : List Byte) (h : c.lmErr = []) :
    c.lmWrite a bs = ({ c with lm := Memory.write c.lm a bs }, true) := by
  cases c; subst h; simp [Core.lmWrite, Core.lmScan_clean]

theorem Core.accScan_clean {c : Core} (lo hi : Nat) (h : c.accErr = []) : c.accScan lo hi = (c, false) := by
  cases c; subst h; rfl

/-- A scan of a store that holds no error finds none, and changes neither contents nor marks. -/
theorem Cluster.storeScan_clean {x : Cluster} (lo hi : Nat) (h : x.storeErr = []) :
    (x.storeScan lo hi).2 = false ∧ (x.storeScan lo hi).1.store = x.store ∧ (x.storeScan lo hi).1.storeErr = [] := by
  simp [Cluster.storeScan, h]

/-- A read of a store that holds no error gives its bytes and leaves them. -/
theorem Cluster.storeRead_clean {x : Cluster} (a n : Nat) (h : x.storeErr = []) :
    (x.storeRead a n).2 = some (Memory.read x.store a n) ∧ (x.storeRead a n).1.store = x.store ∧
      (x.storeRead a n).1.storeErr = [] := by
  simp [Cluster.storeRead, Cluster.storeReadIn, Cluster.storeScan, h]

/-- A scan for errors never touches the bytes. -/
theorem Cluster.storeScan_store (x : Cluster) (lo hi : Nat) : (x.storeScan lo hi).1.store = x.store := rfl

/-- A write to a store that holds no error succeeds and stores its bytes. -/
theorem Cluster.storeWrite_clean {x : Cluster} (a : Nat) (bs : List Byte) (h : x.storeErr = []) :
    (x.storeWrite a bs).2 = true ∧ (x.storeWrite a bs).1.store = Memory.write x.store a bs ∧
      (x.storeWrite a bs).1.storeErr = [] := by
  have hs := fun lo hi => Cluster.storeScan_clean (x := x) lo hi h
  by_cases h1 : a % 8 = 0 <;> by_cases h2 : (a + bs.length) % 8 = 0 <;>
    simp only [Cluster.storeWrite, Cluster.storeWriteIn, h1, h2, if_true, if_false, Bool.or_self, Bool.false_eq_true,
      Bool.false_or, hs, h, eccWipe_nil, and_self]
  have h3 := Cluster.storeScan_clean ((a + bs.length + 7) / 8 - 1) ((a + bs.length + 7) / 8) (hs (a / 8) (a / 8 + 1)).2.2
  simp only [h3, hs, Bool.false_eq_true, if_false, eccWipe_nil, and_self]

/-- A write that succeeds stores exactly its bytes, whatever errors the store holds; one that fails stores nothing. -/
theorem Cluster.storeWrite_store (x : Cluster) (a : Nat) (bs : List Byte) :
    (x.storeWrite a bs).1.store = if (x.storeWrite a bs).2 then Memory.write x.store a bs else x.store := by
  by_cases h1 : a % 8 = 0 <;> by_cases h2 : (a + bs.length) % 8 = 0 <;>
    simp only [Cluster.storeWrite, Cluster.storeWriteIn, h1, h2, if_true, if_false] <;>
    split <;> simp only [if_true, Bool.false_eq_true, if_false, Cluster.storeScan_store]

/-- A unit's read of its own store without errors. -/
theorem Chip.unitRead_store {s : Chip} {cl : Nat} (u q pl : Nat) (side : Bool) (o n : Nat) (h : (s.cl cl).storeErr = []) :
    s.unitRead cl u q pl side (.store o) n =
      .ok (s.setCl cl ((s.cl cl).storeRead o n).1) (Memory.read (s.cl cl).store o n) := by
  have hr := (Cluster.storeRead_clean o n h).1
  simp only [Chip.unitRead]
  rcases hx : (s.cl cl).storeRead o n with ⟨x, b⟩
  rw [hx] at hr
  simp only at hr
  subst hr
  rfl

/-- A unit's write to its own store without errors. -/
theorem Chip.unitWrite_store {s : Chip} {cl : Nat} (u q pl : Nat) (o : Nat) (bs : List Byte) (h : (s.cl cl).storeErr = []) :
    s.unitWrite cl u q pl (.store o) bs = .ok (s.setCl cl ((s.cl cl).storeWrite o bs).1) () := by
  have hr := (Cluster.storeWrite_clean o bs h).1
  simp only [Chip.unitWrite]
  rcases hx : (s.cl cl).storeWrite o bs with ⟨x, b⟩
  rw [hx] at hr
  simp only at hr
  subst hr
  rfl

/-! ### The mesh -/

/-- A neighbour of a cluster is another cluster of the wafer. -/
theorem neighbour_ok {cl p nb : Nat} (h : cl < 4032) (hn : neighbour cl p = some nb) : nb < 4032 ∧ nb ≠ cl := by
  have hc : cl = 96 * clY cl + clX cl := (Nat.div_add_mod cl 96).symm
  have hx : clX cl < 96 := Nat.mod_lt _ (by decide)
  unfold neighbour at hn
  split at hn <;> simp only [Option.ite_none_right_eq_some, Option.some.injEq, reduceCtorEq, clAt] at hn <;> omega

/-- The router of a cluster after an update, and the others. -/
theorem Chip.router_modRouter (s : Chip) (cl i : Nat) (f : Router → Router) :
    (s.modRouter cl f).router i = if i = cl then f (s.router cl) else s.router i := by
  simp only [Chip.router, Chip.modRouter, Chip.cl_modCl]
  split_ifs <;> rfl

/-- An answer joins the packets that wait at the router it is sent through, and changes nothing else there. -/
theorem Chip.respond_router (s : Chip) (cl : Nat) (k : Packet) (t : Nat) (pl : List Byte) :
    (s.respond cl k t pl).router cl =
      { s.router cl with inbuf := (s.router cl).inbuf ++ [{ port := unitPort k.destUnit, pkt := s.answerTo cl k t pl }] } := by
  simp only [Chip.respond, Chip.router_modRouter, if_true]

/-- It goes to the sender under its SEQ and EPOCH, on channel 9. -/
theorem Chip.answerTo_to (s : Chip) (cl : Nat) (k : Packet) (t : Nat) (pl : List Byte) :
    let a := s.answerTo cl k t pl
    a.destLC = k.srcLC ∧ a.destCore = k.srcSub ∧ a.destUnit = k.srcUnit ∧ a.ptype = t ∧ a.seq = k.seq ∧
      a.epoch = k.epoch ∧ a.payload = pl ∧ a.channel = 9 := ⟨rfl, rfl, rfl, rfl, rfl, rfl, rfl, rfl⟩

/-- It leaves every other cluster's router. -/
theorem Chip.respond_other (s : Chip) {cl i : Nat} (k : Packet) (t : Nat) (pl : List Byte) (h : i ≠ cl) :
    (s.respond cl k t pl).router i = s.router i := by
  simp only [Chip.respond, Chip.router_modRouter, if_neg h]

end Sys2Proof.Machine
end

