-- ==== Sys2Proof/Tests/Slice0.lean ====
section
/-! SUPPORT. Tests: ill-formed commands are refused by WellFormed, every hypothesis of a statement is met by a state, and
single steps on values from the specification. -/

open Sys2Proof Sys2Proof.Machine

namespace Sys2Proof.Tests

set_option Elab.async false

/-! ### Small states -/

/-- A 56-bit instruction field word with the fields of R98: RD, RS1, RS2, I, AR, POST, flag, IMM. -/
def word (rd rs1 rs2 i ar post imm : Nat) : BitVec 56 :=
  BitVec.ofNat 56 (rd * 2 ^ 51 + rs1 * 2 ^ 46 + rs2 * 2 ^ 41 + i * 2 ^ 40 + ar * 2 ^ 37 + post * 2 ^ 36 + imm)

/-- Gable 1 enabled over bay 0, which is Lit. -/
def lit : State := { State.reset with
  bays := [(0, { power := .lit, tint := 1 })]
  gables := [(1, { page := { enable := true, regs := [(Off.GB_BAYS 0, 1#64)] } })] }

/-- Cluster 0 of bay 0. -/
def withCl (x : Cluster) : State := { lit with clusters := [(0, x)] }

/-- Local memory that holds the instruction word of CLASS and OP `code` with operands `w` at `a`. -/
def placed (a code : Nat) (w : BitVec 56) : List Host.Cell := Memory.write [] a (leBytes 8 (code * 2 ^ 56 + w.toNat))

/-- Core 0 of cluster 0, running. -/
def withCore (c : Core) : State := withCl { cores := [(0, { c with run := .running })] }

/-- 64 bytes of a command or descriptor from its fields: byte offset and value. -/
def cmd (fs : List (Nat × Nat)) : BitVec 512 := BitVec.ofNat 512 (fs.foldl (fun a f => a + f.2 * 2 ^ (8 * f.1)) 0)


/-! ### Core instructions: a state and operands for every hypothesis -/

/-- StepRunsFrontCommandOrIdles: an empty queue with and without standby power. -/
theorem witness_idle : State.reset.pending = [] ∧ State.reset.module.standby = true ∧
    ({ State.reset with module := { standby := false } } : State).pending = [] := by decide +kernel

theorem witness_wellQueued : ({ State.reset with pending := [.nop 4031 135 0#56, .wake] } : State).wellQueued := by
  unfold State.wellQueued; decide +kernel

theorem witness_noSuchCore : ¬ (4032 < 4032 ∧ 135 < 136) ∧ ¬ (4031 < 4032 ∧ 136 < 136) := by decide +kernel

/-- ScalarIntegerResults, and the first two clauses of ScalarFloatAndMoveResults: both forms of operand b. -/
theorem witness_scalar : Issues (withCore {}).toChip 0 0 ∧ Follows (fetched (withCore {}).toChip 0 0) ∧
    reservedOk { rd := true, rs1 := true, b := true } (word 31 1 2 0 0 0 0) = true ∧
    reservedOk { rd := true, rs1 := true, b := true } (word 0 1 0 1 0 0 0xFFFFFFFF) = true := by
  simp only [Issues, Follows]; decide +kernel

/-- The last address an instruction can follow. -/
theorem witness_scalar_last : Issues (withCore { pc := 0xBFF0#16 }).toChip 0 0 ∧
    Follows (fetched (withCore { pc := 0xBFF0#16 }).toChip 0 0) := by
  simp only [Issues, Follows]; decide +kernel

/-- CLASS and OP of every core instruction (R96, R112, R134, R647): code 16 CLASS + OP. -/
def coreCodes : List (Nat × (Nat → Nat → BitVec 56 → Instr)) :=
  [(0x0, Instr.add), (0x1, Instr.sub), (0x2, Instr.and), (0x3, Instr.or), (0x4, Instr.xor), (0x5, Instr.shl),
   (0x6, Instr.shr), (0x7, Instr.sra), (0x8, Instr.slt), (0x9, Instr.sltu), (0xA, Instr.seq), (0xB, Instr.min),
   (0xC, Instr.max), (0xD, Instr.mul), (0xE, Instr.li), (0x10, Instr.fadd), (0x11, Instr.fsub), (0x12, Instr.fmul),
   (0x13, Instr.ffma), (0x14, Instr.fmin), (0x15, Instr.fmax), (0x16, Instr.f2i), (0x17, Instr.i2f), (0x20, Instr.ldB),
   (0x21, Instr.ldH), (0x22, Instr.ldW), (0x24, Instr.stB), (0x25, Instr.stH), (0x26, Instr.stW), (0x30, Instr.aadd),
   (0x31, Instr.amovSa), (0x32, Instr.amovAs), (0x33, Instr.ali), (0x40, Instr.j), (0x41, Instr.jr), (0x42, Instr.beq),
   (0x43, Instr.bne), (0x44, Instr.blt), (0x45, Instr.bge), (0x46, Instr.loop), (0x4F, Instr.stop), (0x50, Instr.tmulAcc),
   (0x51, Instr.tmulZero), (0x60, Instr.accClr), (0x61, Instr.accLd), (0x62, Instr.accSt), (0x63, Instr.accSend), (0x64, Instr.cvtAcc),
   (0x70, Instr.cvtLm), (0x80, Instr.qrecv), (0x81, Instr.qsend), (0x82, Instr.qpopS), (0x83, Instr.qpushS), (0x90, Instr.fset),
   (0x91, Instr.fclr), (0x92, Instr.fwait), (0x93, Instr.fwaitc), (0x94, Instr.ftest), (0xA0, Instr.vfset), (0xA1, Instr.vfclr),
   (0xA2, Instr.vfwait), (0xA3, Instr.vfwaitc), (0xB0, Instr.nop), (0xB1, Instr.hint), (0xB2, Instr.asclr)]

/-- Runs: each core instruction lies at the PC of some core; and an unlisted word, for CoreStops. -/
theorem witness_fetches :
    let w : BitVec 56 := 0x80#56
    (∀ c ∈ coreCodes, decodeCore 4031 135 ({ pc := 0xBFF0#16, lm := placed 0xBFF0 c.1 w } : Core).word = some (c.2 4031 135 w)) ∧
    Fetches (withCore { lm := placed 0 0x40 8#56 }).toChip 0 0 (.j 0 0 8#56) ∧
    decodeCore 0 0 ({ lm := placed 0 0x0F 0#56 } : Core).word = none := by
  simp only [Fetches]; decide +kernel

theorem witness_moves :
    reservedOk { rd := true, imm := true } (word 1 0 0 0 0 0 0xFFFFFFFF) = true ∧
    reservedOk { ar := true, b := true } (word 0 0 0 1 7 0 8) = true ∧
    reservedOk { ar := true, rs1 := true } (word 0 31 0 0 7 0 0) = true ∧
    reservedOk { ar := true, rd := true } (word 31 0 0 0 7 0 0) = true ∧
    reservedOk { ar := true, imm := true } (word 0 0 0 0 7 0 1) = true ∧
    reservedOk { rd := true, rs1 := true } (word 1 31 0 0 0 0 0) = true := by decide +kernel

/-- LoadAndStoreResults: the last byte, half-word and word of local memory, with and without POSTINC. -/
theorem witness_local :
    let s (a : Nat) := withCore { a := [(1, BitVec.ofNat 32 a)] }
    let w := word 1 0 0 0 1 0 0
    Issues (s 0xBFFF).toChip 0 0 ∧ Follows (fetched (s 0xBFFF).toChip 0 0) ∧
    reservedOk { rd := true, ar := true, post := true, imm := true } (word 1 0 0 0 1 1 4) = true ∧
    reservedOk { rd := true, ar := true, post := true, imm := true } w = true ∧
    ((s 0xBFFF).core 0 0).lmErr = [] ∧ ((s 0xBFFF).core 0 0).qops = [] ∧
    memAddr ((s 0xBFFF).core 0 0) w + 1 ≤ 0xC000 ∧ memAddr ((s 0xBFFE).core 0 0) w + 2 ≤ 0xC000 ∧
    memAddr ((s 0xBFFC).core 0 0) w + 4 ≤ 0xC000 := by
  simp only [Issues, Follows]; decide +kernel

theorem witness_clusterStore :
    let s := withCl {
      weave := { active := some 0, images := [(2848, 1#8)], resolved := [(0, 1)] }
      cores := [(0, { run := .running, a := [(1, 0x1BFFFFC#32)] })] }
    Issues s.toChip 0 0 ∧ Follows (fetched s.toChip 0 0) ∧ (s.core 0 0).lmErr = [] ∧ (s.cl 0).storeErr = [] ∧
    (s.core 0 0).qops = [] ∧ ((s.cl 0).portOf 0).isSome = true ∧ 0x1000000 ≤ memAddr (s.core 0 0) (word 1 0 0 0 1 0 0) ∧
    memAddr (s.core 0 0) (word 1 0 0 0 1 0 0) + 4 ≤ 0x1C00000 := by
  simp only [Issues, Follows]; decide +kernel

/-- ControlFlowResults: a branch taken and one not, the first and the last address a jump may reach, LOOP of 0 and of
several passes. -/
theorem witness_jumps :
    let s (pc : Nat) := withCore { pc := BitVec.ofNat 16 pc, s := [(1, 5#32), (2, 5#32), (3, 0xBFF8#32)] }
    Issues (s 8).toChip 0 0 ∧ Follows (fetched (s 8).toChip 0 0) ∧
    reservedOk { imm := true } (word 0 0 0 0 0 0 0xBFF0) = true ∧
    ((fetched (s 8).toChip 0 0).pc.toNat : Int) + (BitVec.ofNat 32 0xBFF0).toInt ≤ 0xBFF8 ∧
    0 ≤ ((fetched (s 8).toChip 0 0).pc.toNat : Int) + (BitVec.ofNat 32 0xFFFFFFF8).toInt ∧
    reservedOk { rs1 := true, imm := true } (word 0 3 0 0 0 0 0) = true ∧
    ((fetched (s 8).toChip 0 0).sreg 3 + 0#32).toNat % 8 = 0 ∧ ((fetched (s 8).toChip 0 0).sreg 3 + 0#32).toNat ≤ 0xBFF8 ∧
    reservedOk { rs1 := true, rs2 := true, imm := true } (word 0 1 2 0 0 0 8) = true ∧
    (fetched (s 8).toChip 0 0).sreg 1 = (fetched (s 8).toChip 0 0).sreg 2 ∧
    (fetched (s 8).toChip 0 0).sreg 1 ≠ (fetched (s 8).toChip 0 0).sreg 3 ∧
    (fetched (s 8).toChip 0 0).loops.length < 2 ∧ ((fetched (s 8).toChip 0 0).sreg 1).toNat ≠ 0 ∧
    ((fetched (s 8).toChip 0 0).sreg 0).toNat = 0 ∧ (loopNext [] (8 + 8)).2 ≤ 0xBFF8 ∧
    ({ start := 8, last := 16, remaining := 1 } : LoopLevel).remaining = 0 + 1 := by
  simp only [Issues, Follows]; decide +kernel

/-- CoreStops: STOP with nothing outstanding; a word with a reserved bit. -/
theorem witness_stop : Issues (withCore {}).toChip 0 0 ∧ ((withCore {}).core 0 0).qops = [] ∧
    ((withCore {}).core 0 0).backlog = [] ∧ ibits (BitVec.ofNat 56 (2 ^ 35)) 32 4 ≠ 0 := by
  simp only [Issues]; decide +kernel

/-- TensorResults: FP32 by FP32 (a multiplier recently occupied), B in local memory and in input queue 0; a rise. -/
def tensorWord (bsrc : Nat) : BitVec 56 := BitVec.ofNat 56 (2 ^ 44 * bsrc + 2 ^ 24 * 1)

/-- Core 0 with K = 1 in s1, its operands at 0, four items waiting in its input queue 0. -/
def tensorState (busy : Bool) : State := withCl {
  cores := [(0, { run := .running, s := [(1, 1#32)] })]
  busyCyc := if busy then some 0 else none
  weave := { inq := [(4096, [{}, {}, {}, {}])] } }

theorem witness_tensor :
    let s := tensorState true
    let w := tensorWord 1
    Issues s.toChip 0 0 ∧ Follows (fetched s.toChip 0 0) ∧ riseGate 0 s.toChip = false ∧
    (s.core 0 0).lmErr = [] ∧ (s.core 0 0).accErr = [] ∧ (s.core 0 0).qops = [] ∧ ibits w 0 13 = 0 ∧
    pairRate (tFields w).fa (tFields w).fb ≠ none ∧ 1 ≤ ((s.core 0 0).sreg (tFields w).kreg).toNat ∧
    (tFields w).base + (tFields w).m * (tFields w).n ≤ 2048 ∧
    (tFields w).m * (tFields w).kb 1 * pairBlock (tFields w).fa ≤ 0xC000 ∧
    (tFields (tensorWord 0)).bsrc = 0 ∧ (tFields w).bsrc = 1 ∧ (tFields (tensorWord 0)).bidx < 4 ∧
    ((s.core 0 0).sreg (tFields w).kreg).toNat ≤ 16384 := by
  simp only [Issues, Follows]; decide +kernel

theorem witness_tensorEnd :
    let j : TensorJob := { queue := 0, word := tensorWord 0, zero := false, k := 1, a := List.replicate 32 0#8 }
    let s := withCl {
      cores := [(0, { run := .running, qops := [.tmul j] })]
      weave := { inq := [(4096, [{}, {}, {}, {}])] } }
    (s.core 0 0).run = .running ∧ s.coreHeld 0 = false ∧ s.bayRuns (clBay 0) = true ∧ (s.core 0 0).occ = 0 ∧ (s.core 0 0).qops = [.tmul j] ∧
    j.cyc = 0 ∧ j.got = [] ∧ 1 ≤ j.k ∧ pairRate j.f.fa j.f.fb ≠ none ∧
    j.items ≤ ((s.cl 0).weave.iq ((s.cl 0).coreQueue 0 j.queue)).length ∧
    ∀ i ∈ (s.cl 0).weave.iq ((s.cl 0).coreQueue 0 j.queue), i.bad = false := by decide +kernel

theorem witness_rise : Issues (tensorState false).toChip 0 0 ∧ riseGate 0 (tensorState false).toChip = true ∧
    (tensorState false).clTint 0 ≠ 0 := by
  simp only [Issues]; decide +kernel

/-- AccumulatorAndConversionResults: the last entries of the file, the last bytes of local memory, FP32 and INT8. -/
theorem witness_accumulator :
    let s := withCore { s := [(1, 16#32)], a := [(1, 0xBFC0#32), (2, 0xBF80#32)] }
    let c := s.core 0 0
    let w (areg : Nat) : BitVec 56 := BitVec.ofNat 56 (2032 * 2 ^ 45 + 1 * 2 ^ 40 + areg * 2 ^ 37)
    Issues s.toChip 0 0 ∧ Follows (fetched s.toChip 0 0) ∧ c.lmErr = [] ∧ c.accErr = [] ∧ c.qops = [] ∧
    accRange c (w 0) = true ∧ accReserved (w 0) false false false = true ∧ accReserved (w 1) true false false = true ∧
    (c.areg (aAreg (w 1))).toNat % 4 = 0 ∧ (c.areg (aAreg (w 1))).toNat + 4 * aCount c (w 1) ≤ 0xC000 := by
  simp only [Issues, Follows]; decide +kernel

theorem witness_conversion :
    let s := withCore { s := [(1, 32#32)], a := [(1, 0xBF80#32), (2, 0#32)] }
    let c := s.core 0 0
    let w : BitVec 56 := BitVec.ofNat 56 (1 * 2 ^ 40 + 1 * 2 ^ 37)
    let v : BitVec 56 := BitVec.ofNat 56 (1 * 2 ^ 45 + 2 * 2 ^ 42 + 1 * 2 ^ 37)
    accReserved w true false true = true ∧ ibits w 30 1 = 0 ∧ accRange c w = true ∧
    (c.areg (aAreg w)).toNat % 4 = 0 ∧ aCount c w % countUnit (ibits w 32 4) = 0 ∧
    (c.areg (aAreg w)).toNat + runBytes (ibits w 32 4) (aCount c w) ≤ 0xC000 ∧
    (c.areg (aAreg w)).toNat + (runEncode (ibits w 32 4) c.satFp8 false [] ((List.range (aCount c w)).map fun i =>
      fpDecode (c.accAt (aBase w + i)))).1.length ≤ 0xC000 ∧
    ibits v 0 37 = 0 ∧ countOk 0 0 32 = true ∧ 0xBF80 + runBytes 0 32 ≤ 0xC000 := by decide +kernel

/-- CoreQueueTransfers: a full output queue's last place, an input queue with what is asked, the last bytes of local
memory. -/
theorem witness_queues :
    let s := withCl {
      cores := [(0, { run := .running, s := [(1, 1#32)], a := [(1, 0xBFC0#32)] })]
      weave := { inq := [(4096, [{}])], outq := [(4096, List.replicate 7 {})] } }
    let c := s.core 0 0
    let send : BitVec 56 := BitVec.ofNat 56 (1 * 2 ^ 46 + 1 * 2 ^ 43 + 2 ^ 40)
    let recv : BitVec 56 := BitVec.ofNat 56 (1 * 2 ^ 46 + 1 * 2 ^ 43)
    let acc : BitVec 56 := BitVec.ofNat 56 (1 * 2 ^ 40)
    Issues s.toChip 0 0 ∧ Follows (fetched s.toChip 0 0) ∧ c.backlog = [] ∧ c.qops = [] ∧
    accReserved acc false true false = true ∧ accRange c acc = true ∧
    ((s.cl 0).weave.oq ((s.cl 0).coreQueue 0 0)).length + 1 ≤ 8 ∧
    queueReserved send false true true true = true ∧ qNum send < 2 ∧ qCount c send = 1 ∧
    qAddr c send + 64 * qCount c send ≤ 0xC000 ∧
    queueReserved (BitVec.ofNat 56 (1 * 2 ^ 51)) true false false true = true ∧
    (∀ i ∈ (s.cl 0).weave.iq ((s.cl 0).coreQueue 0 0), i.bad = false) ∧
    queueReserved recv false true true false = true ∧ qCount c recv ≤ ((s.cl 0).weave.iq ((s.cl 0).coreQueue 0 0)).length ∧
    queueReserved (BitVec.ofNat 56 (1 * 2 ^ 51)) true false false false = true := by
  simp only [Issues, Follows]; decide +kernel

/-- FlagSetAndClear and the flag instructions: a clear flag, one set once, one set sixteen times. -/
theorem witness_flags :
    let c : Core := { flags := [(0, { isSet := true, count := 15 }), (1, { isSet := true }), (47, { isSet := true, count := 14 })] }
    (c.flag 2).isSet = false ∧ (c.flag 47).isSet = true ∧ (c.flag 47).count < 15 ∧ (c.flag 0).count = 15 ∧
    (c.flag 1).isSet = true ∧ (c.flag 1).count = 0 ∧ flagReserved (BitVec.ofNat 56 (0x7F * 256 + 47)) true false = true ∧
    fTarget (BitVec.ofNat 56 (0x7F * 256 + 47)) < 0x80 ∧ fFlag (BitVec.ofNat 56 47) < 48 ∧
    (let d : BitVec 56 := BitVec.ofNat 56 (0x8A * 256 + 63)
     flagReserved d true false = true ∧ 0x80 ≤ fTarget d ∧ fTarget d ≤ 0x8A) ∧
    flagReserved (BitVec.ofNat 56 47) false false = true ∧ flagReserved (BitVec.ofNat 56 (2 ^ 51 + 2)) false true = true := by
  decide +kernel

/-- VirtualFlagInstructions: an entry of the core's own flag, one of another core's, and none. -/
theorem witness_virtualFlags :
    let s := withCl {
      mapEn := true, vft := [(0, 0x8005#16), (1, 0x8105#16)]
      cores := [(0, { run := .running, o2 := true, flags := [(5, { isSet := true })] })] }
    Issues s.toChip 0 0 ∧ Follows (fetched s.toChip 0 0) ∧ (fetched s.toChip 0 0).o2 = true ∧
    ibits (0#56) 12 44 = 0 ∧ (s.cl 0).vflag 0 = some (0, 5) ∧ (s.cl 0).logical 0 = some 0 ∧
    (s.cl 0).vflag 1 = some (1, 5) ∧ (s.cl 0).vflag 0xFFF = none ∧
    ((fetched s.toChip 0 0).flag 5).isSet = true := by
  simp only [Issues, Follows]; decide +kernel

/-- WaitEndAndSystemInstructions: a wait on a flag that is set, a multiplier occupied, hint queues with room and full. -/
theorem witness_waits :
    let s := withCl {
      hints := List.replicate 8 ⟨0#64, 0, 0⟩
      cores := [(0, { run := .running, wait := .flag 3 true, occ := 5, flags := [(3, { isSet := true })] })] }
    (s.core 0 0).wait = .flag 3 true ∧ ((s.core 0 0).flag 3).isSet = true ∧ (s.core 0 0).run = .running ∧
    s.coreHeld 0 = false ∧ s.bayRuns (clBay 0) = true ∧ (s.core 0 0).occ ≠ 0 ∧ Follows (s.core 0 0) ∧ ibits (0xFF#56) 8 48 = 0 ∧ ibits (0xFFFF#56) 16 16 = 0 ∧
    8 ≤ (s.cl 0).hints.length ∧ ((withCore {}).cl 0).hints.length < 8 := by
  simp only [Follows]; decide +kernel

/-! ### The core window, halts, the weave -/

/-- Cluster 0 with physical core 0 selected in its window. -/
def windowed (c : Core) : State := withCl { page := { regs := [(Off.CL_CORE_SEL, 256#64)] }, cores := [(0, c)] }

/-- HostCoreWindow: a stopped, a running and a resetting core, and the values of each write. -/
theorem witness_coreControl :
    Reaches (windowed {}).toChip (.cluster 0) ∧ ((windowed {}).cl 0).selected = some 0 ∧
    ((windowed {}).core 0 0).run = .stopped ∧ ((windowed { run := .running }).core 0 0).run = .running ∧
    ((windowed { run := .resetting }).core 0 0).run = .resetting ∧
    (bit (5#64) 0 = true ∧ bit (5#64) 1 = false ∧ bit (5#64) 3 = false) ∧
    (bit (2#64) 0 = false ∧ bit (2#64) 1 = true ∧ bit (2#64) 3 = false) ∧
    (bit (8#64) 0 = false ∧ bit (8#64) 1 = false ∧ bit (8#64) 3 = true) ∧
    (bit (0x12F#64) 8 = true ∧ bit (0x12F#64) 9 = false ∧ fld (0x12F#64) 0 6 ≤ 47) ∧
    (bit (0x22F#64) 8 = false ∧ bit (0x22F#64) 9 = true ∧ fld (0x22F#64) 0 6 ≤ 47) := by
  simp only [Reaches]; decide +kernel

/-- HostCoreWindow, the data ports: the last word of local memory and the last entry, a core that stands, one that runs
and one that resets. -/
theorem witness_coreData :
    let s (r : CoreRun) := windowed { run := r, lmAddr := 0xBFF8#64, accAddr := 2047#64 }
    Reaches (s .stopped).toChip (.cluster 0) ∧ ((s .stopped).cl 0).selected = some 0 ∧
    ((s .stopped).core 0 0).lmErr = [] ∧ ((s .stopped).core 0 0).accErr = [] ∧
    fld ((s .stopped).core 0 0).lmAddr 0 16 / 8 * 8 < 0xC000 ∧
    (s .stopped).coreState 0 ((s .stopped).core 0 0) = 1 ∧ (s .running).coreState 0 ((s .running).core 0 0) = 2 ∧
    (s .resetting).coreState 0 ((s .resetting).core 0 0) = 0 := by
  simp only [Reaches]; decide +kernel

/-- ClusterStartAndHalt: an enabled map, an engine that is halted and one that is not. -/
theorem witness_clusterAndHalt :
    let s := withCl { mapEn := true }
    let h : State := { State.reset with module := { haltReg := true } }
    Reaches s.toChip (.cluster 0) ∧ (s.cl 0).mapEn = true ∧ bit (1#64) 0 = true ∧ bit (1#64) 1 = false ∧
    bit (2#64) 0 = false ∧ bit (2#64) 1 = true ∧ Reaches h.toChip .dev ∧ h.module.standby = true ∧
    h.halting = true ∧ h.module.haltedBit = false := by
  simp only [Reaches]; decide +kernel

/-- Cluster 0 with context 0 active and the image bytes `img`. -/
def woven (img : List Host.Cell) (w : Weave) : State :=
  withCl { weave := { w with active := some 0, valid := [true, true, false, false], images := img } }

/-- WeaveContexts: arming another context than the active one, and the active one; switching an idle weave. -/
theorem witness_contexts :
    let s := woven [] {}
    let idle := withCl { weave := { valid := [false, true, false, false] } }
    Reaches s.toChip (.weave 0) ∧ (s.cl 0).weave.active ≠ some (fld (0x103#64) 0 2) ∧
    (s.cl 0).weave.active = some (fld (0x100#64) 0 2) ∧ (s.page (.weave 0)).freeze = false ∧
    (bit (0x103#64) 8 = true ∧ bit (0x103#64) 9 = false ∧ bit (0x103#64) 10 = false) ∧
    (bit (0x203#64) 8 = false ∧ bit (0x203#64) 9 = true ∧ bit (0x203#64) 10 = false) ∧
    Reaches idle.toChip (.weave 0) ∧ (idle.cl 0).weave.active = none ∧
    (bit (0x401#64) 8 = false ∧ bit (0x401#64) 9 = false ∧ bit (0x401#64) 10 = true) ∧
    (idle.cl 0).weave.valid.getD (fld (0x401#64) 0 2) false = true ∧ (s.cl 0).weave.imgErr = [] ∧
    (idle.cl 0).weave.valid.getD (fld (idle.reg (.weave 0) Off.WV_CTX_ADDR) 0 2) false = false ∧
    (s.cl 0).weave.valid.getD (fld (s.reg (.weave 0) Off.WV_CTX_ADDR) 0 2) false = true := by
  simp only [Reaches]; decide +kernel

/-- WeaveContexts: a context that ends at once (END_EN, no END entry), with NEXT valid and not. -/
theorem witness_contextEnd :
    let s (n : Nat) := woven [(8, BitVec.ofNat 8 (0x80 + n))] {}
    (s 1).weaveRuns 0 = true ∧ ((s 1).cl 0).weave.active = some 0 ∧ ((s 1).cl 0).weave.ended 0 = true ∧
    (List.range 8).all (fun sp => ((s 1).cl 0).weave.spDone 0 sp) = true ∧
    ((s 1).cl 0).weave.valid.getD (((s 1).cl 0).weave.img 0 8 1 % 4) false = true ∧
    ((s 3).cl 0).weave.ended 0 = true ∧
    ((s 3).cl 0).weave.valid.getD (((s 3).cl 0).weave.img 0 8 1 % 4) false = false := by decide +kernel

/-- WeaveItemsAndUnits: SFU 0's output routed to the input of store port 0, with room for one and full. -/
theorem witness_itemMove :
    let s (n : Nat) := woven [(64 + 8 * 256 + 1, 0x86#8)] {
      outq := [(0x400, [{}])], inq := [(0x600, List.replicate n {})] }
    (s 7).weaveRuns 0 = true ∧ routeIndex 0x400 = some 256 ∧ ((s 7).cl 0).weave.dests 0 256 = [0x600] ∧
    ((s 7).cl 0).weave.oq 0x400 = [{}] ∧ ((s 7).cl 0).weave.imgBad 0 = false ∧ ({} : Item).bad = false ∧ (((s 7).cl 0).weave.iq 0x600).length < 8 ∧
    8 ≤ (((s 8).cl 0).weave.iq 0x600).length ∧ 512 ≤ 0x400 ∧ 0x600 < 4 * 0x1C0 := by decide +kernel

/-- WeaveItemsAndUnits: steering unit 31 with the other side empty and not, and SFU 15. -/
theorem witness_steeringAndSfu :
    let u := 4 * (0x200 + 31)
    let v := 4 * (0x100 + 15)
    let s (other : List Item) := woven [(3168 + 4 * 31, 1#8)] {
      inq := [(v, [{}]), (u, [{ data := 1#512 }]), (u + 1, other), (u + 2, [{}])] }
    (s []).weaveRuns 0 = true ∧ ((s []).cl 0).weave.img 0 (3168 + 4 * 31) 1 = 1 ∧
    ((s []).cl 0).weave.iq u = [{ data := 1#512 }] ∧ ((s []).cl 0).weave.iq (u + 2) = [{}] ∧
    ((s []).cl 0).weave.iq (u + 1) = [] ∧ ((s [{}]).cl 0).weave.iq (u + 1) = [{}] ∧
    SMap.get 0 ((s []).cl 0).weave.debts (2 * 31) < 255 ∧ sfuTwo (((s []).cl 0).weave.img 0 (2592 + 8 * 15) 1) = false ∧
    ((s []).cl 0).weave.imgBad 0 = false ∧ headBad (((s [{}]).cl 0).weave.iq (u + 1)) = false ∧
    ((s []).cl 0).weave.img 0 (2592 + 8 * 15 + 1) 1 / 16 = ((s []).cl 0).weave.img 0 (2592 + 8 * 15 + 1) 1 % 16 ∧
    (((s []).cl 0).weave.oq u).length < 8 ∧ headBad (((s []).cl 0).weave.iq (v + 1)) = false ∧
    ((s []).cl 0).weave.iq v = [{}] ∧ (((s []).cl 0).weave.oq v).length < 8 := by decide +kernel

/-- WeavePorts: one store port in each streaming mode, at its last item. -/
theorem witness_streams :
    let img (mode : Nat) : List Host.Cell := [(2848, BitVec.ofNat 8 mode), (2849, 1#8), (2850, 1#8), (2856, 1#8), (2864, 1#8), (2868, 1#8)]
    let s (mode : Nat) := woven (img mode) { inq := [(0x600, [{}])] }
    let w (mode : Nat) := ((s mode).cl 0).weave
    (s 2).weaveRuns 0 = true ∧ ((s 2).cl 0).storeErr = [] ∧ (w 2).imgBad 0 = false ∧ (w 2).spMode 0 0 = 2 ∧
    (w 2).pos 0 < (w 2).spTotal 0 0 ∧
    ((w 2).oq 0x600).length < 8 ∧ (w 3).spMode 0 0 = 3 ∧ (w 3).pos 0 < (w 3).spTotal 0 0 ∧
    (w 3).iq 0x600 = [{}] ∧ (w 4).spMode 0 0 = 4 ∧ (SMap.get [] (w 4).slack 0).length < (w 4).spSlack 0 0 := by decide +kernel

theorem witness_slackOut :
    let s := woven [(2848, 4#8)] { slack := [(0, [true])] }
    (s.cl 0).weave.spMode 0 0 = 4 ∧ ((s.cl 0).weave.oq 0x600).length < 8 ∧
    SMap.get [] (s.cl 0).weave.slack 0 = [true] := by decide +kernel

/-- WeavePorts: two cores that ask for store port 0, core 0 served last; a steering unit that waits
for its data, one cycle above BALANCE_LIMIT; a full packet
of mesh port 0 for the CORE_LM unit of logical cluster 0. -/
theorem witness_portService :
    let s := withCl {
      weave := { active := some 0, images := [(2848, 1#8), (3168, 1#8)], portLast := [(0, 1)], resolved := [(0, 6)]
                 gather := [(0, [{}])], inq := [(0x800, [{}])] }
      router := { up := true, valid0 := true, route := [(0, 0x11#64)] } }
    let w := (s.cl 0).weave
    s.bayRuns (clBay 0) = true ∧ s.coreHeld 0 = false ∧ w.spMode 0 0 = 1 ∧ w.img 0 (2720 + 0) 1 = 0 ∧
    w.img 0 (2720 + 127) 1 = 0 ∧ SMap.get 0 w.portLast 0 = 0 + 1 ∧ (s.cl 0).resolvedCore 0 0 = some 5 ∧
    s.unitWait 0 (0x801 / 4) = some (1, 0x801) ∧ s.weaveCounts 0 = true ∧ 0x801 / 4 ∉ w.balFaulted ∧
    w.limit < SMap.get 0 w.waitCount (0x801 / 4) + 1 ∧ bit (s.reg (.weave 0) Off.WV_BAL_STATUS) 0 = false ∧ bit (s.page (.weave 0)).fault 0 = false ∧
    s.weaveRuns 0 = true ∧ SMap.get [] w.gather 0 ≠ [] ∧ w.mpField 0 0 8 2 ≤ 1 ∧ w.mpField 0 0 3 1 ≤ 3 ∧
    w.mpField 0 0 4 1 % 16 ≤ 7 ∧ w.iq (4 * 0x1C0) = [] ∧ s.mayInject 0 0 0 = true ∧
    ((s.router 0).lookup { channel := 0, payload := [] }).isSome = true := by decide +kernel

/-! ### The engines -/

/-- Cluster 0 committed with its five unit pages enabled. -/
def enginesOn : State := withCl {
  mapEn := true, lc := some 5
  dma0 := { page := { enable := true } }, dma1 := { page := { enable := true } }
  thatcher := { page := { enable := true } }, gutter := { page := { enable := true } }
  skylight := { page := { enable := true } } }

/-- Cluster 0 with `c` first on ring `q` of unit `u`. -/
def engineRuns (u q : Nat) (a : Active) : State :=
  { enginesOn with toChip := enginesOn.toChip.modEngine 0 u fun e => e.setList q [a] }

/-- DmaMovesBytes: a COPY that ends a page and a line, and a FILL. -/
theorem witness_dmaMoves :
    let c := cmd [(0, 1), (8, 0xFC0), (16, 0x2000), (24, 64), (28, 1)]
    let f := cmd [(0, 2), (16, 0x203F), (24, 1), (28, 1), (48, 0xA5)]
    (engineRuns 1 3 { cmd := c }).ringRuns 0 1 3 = true ∧
    (((engineRuns 1 3 { cmd := c }).cl 0).engine 1).list 3 = [{ cmd := c }] ∧
    ((engineRuns 1 3 { cmd := c }).cl 0).storeErr = [] ∧
    locOf true (cmdFld c 8 8) = some (.store 0xFC0) ∧ locOf true (cmdFld c 16 8) = some (.store 0x2000) ∧
    cvtEn c = false ∧ dRows c = 1 ∧ dLength c = 64 ∧ 0x2000 % 64 + dLength c ≤ 64 ∧ 0xFC0 % 64 + dLength c ≤ 64 ∧
    cmdFld c 0 1 = 1 ∧ (∀ r, r < 4 → r ≠ 3 → (engineRuns 1 3 { cmd := c }).dmaActive 0 1 r = none ∧
      (engineRuns 1 3 { cmd := c }).toChip.ringHeld 0 1 r = 0) ∧ SMap.get [] (((engineRuns 1 3 { cmd := c }).cl 0).engine 1).hand 3 = [] ∧
    (engineRuns 0 0 { cmd := f }).ringRuns 0 0 0 = true ∧ locOf true (cmdFld f 8 8) = some (.store 0) ∧
    locOf true (cmdFld f 16 8) = some (.store 0x203F) ∧ cvtEn f = false ∧ dRows f = 1 ∧ dLength f = 1 ∧
    0x203F % 64 + dLength f ≤ 64 ∧ cmdFld f 0 1 = 2 := by decide +kernel

theorem witness_ringComplete :
    let s (u q : Nat) := engineRuns u q { cmd := 256#512, finished := true }
    [(0, 0), (0, 3), (1, 3), (2, 0), (3, 0), (4, 0)].all (fun p =>
      (s p.1 p.2).unitIssues 0 p.1 && decide ((((s p.1 p.2).cl 0).engine p.1).parked p.2 = none) &&
      decide ((((s p.1 p.2).cl 0).engine p.1).list p.2 = [{ cmd := 256#512, finished := true }])) = true := by decide +kernel

/-- TailWritesRingRings: a ring the host owns that the write fills to its last entry. -/
theorem witness_tail :
    let s : State := { enginesOn with toChip := (List.range 5).foldl (fun s u =>
      s.modEngine 0 u fun e => { e with page := { e.page with regs := [(ringOff 0 1, 0x14#64), (ringOff 0 2, 0xFFF8#64)] } }) enginesOn.toChip }
    (∀ u < 5, Reaches s.toChip (unitPage 0 u)) ∧ ∀ u < 5, s.ringOwner 0 u 0 = true ∧
      ((8#64).toNat % 65536 + 65536 - s.ringReg 0 u 2 2) % 65536 ≤ s.ringSize 0 u 0 ∧
      (((8#64).toNat % 65536 + 65536 - s.ringReg 0 u 0 2) % 65536 ≤ s.ringSize 0 u 0) := by
  simp only [Reaches]; decide +kernel

/-- A gutter command on operands at 0 and 0x100 with its result at the end of the store. -/
def gutterCmd (op : Nat) (more : List (Nat × Nat)) : BitVec 512 :=
  cmd ([(0, op), (4, 1), (16, 0x100), (24, 0xBFFFF8)] ++ more)

theorem witness_gutterElements :
    [1, 2, 3, 4, 5, 6].all (fun op =>
      let c := gutterCmd op (if op = 6 then [(37, 2), (40, 4)] else [])
      let s := engineRuns 3 0 { cmd := c }
      s.ringRuns 0 3 0 && decide ((s.cl 0).gutter.list 0 = [{ cmd := c }]) && decide ((s.cl 0).storeErr = []) && decide ((s.cl 0).gutter.hand = []) &&
      decide (gCount c = 1) && decide (gOp c = op) && decide (locOf false (cmdFld c 8 8) = some (.store 0)) &&
      decide (locOf false (cmdFld c 16 8) = some (.store 0x100)) &&
      decide (locOf false (cmdFld c 24 8) = some (.store 0xBFFFF8)) && decide (op = 6 → gNsrc c = 2)) = true := by decide +kernel

theorem witness_valleys :
    [0x10, 0x11, 0x12, 0x13, 0x14, 0x15].all (fun op =>
      let c := gutterCmd op [(34, 15), (35, 3)]
      let s := engineRuns 3 0 { cmd := c }
      s.ringRuns 0 3 0 && decide ((s.cl 0).gutter.list 0 = [{ cmd := c }]) && decide ((s.cl 0).gutter.hand = []) && decide (gOp c = op) && decide (gCount c = 1) &&
      decide (gFmtA c = 0) && decide (gFmtB c = 0) && !gRaw c && decide (locOf false (cmdFld c 8 8) = some (.store 0)) &&
      decide (locOf false (cmdFld c 16 8) = some (.store 0x100)) &&
      decide (locOf false (cmdFld c 24 8) = some (.store 0xBFFFF8))) = true ∧
    gRaw (gutterCmd 0x13 [(1, 2)]) = true ∧
    Valley.ofRaw (Memory.read ([] : Mem) 0 88) = some {} := by decide +kernel

/-- SlotAndVftAccess: the last slot, with one lane that ends at the end of the store; the last table word. -/
theorem witness_slot :
    let s := withCl {
      gutter := { page := { regs := [(Off.GT_SLOT_BASE 15, 0xBFFFF8#64)] } }
      page := { regs := [(Off.CL_VFT_ADDR, 1023#64)] } }
    Reaches s.toChip (.gutter 0) ∧ Reaches s.toChip (.cluster 0) ∧ bit (0x10001#64) 0 = true ∧
    fld (0x10001#64) 36 28 = 0 ∧ fld (0x1000010001#64) 36 28 ≠ 0 ∧ bit (0x1000010001#64) 0 = true ∧ fld (0x1000010001#64) 16 20 = 1 ∧
    bit (s.reg (.gutter 0) (Off.GT_SLOT_CFG 15)) 0 = false ∧ 1 ≤ fld (0x10001#64) 16 20 ∧
    fld (s.reg (.gutter 0) (Off.GT_SLOT_BASE 15)) 0 24 + 8 * fld (0x10001#64) 16 20 ≤ storeSize ∧
    fld (s.reg (.cluster 0) Off.CL_VFT_ADDR) 0 10 = 1023 := by
  simp only [Reaches]; decide +kernel

theorem witness_flagUnit :
    let s (x : SetTarget) := withCl { mapEn := true, sets := [⟨.gutter, x⟩], dma0 := { page := { regs := [(ringOff 3 1, 4#64)] } } }
    (s (.flag 47)).bayRuns (clBay 0) = true ∧ ((s (.flag 47)).cl 0).sets = [⟨.gutter, .flag 47⟩] ∧
    ((s (.flag 47)).cl 0).deferred = [] ∧ ((s (.flag 47)).cl 0).setPlace (.flag 47) = .core 0 47 ∧
    ((s (.doorbell 0x83)).cl 0).setPlace (.doorbell 0x83) = .ring 0 3 ∧ (s (.doorbell 0x83)).ringOwner 0 0 3 = false ∧
    (((s (.doorbell 0x83)).ringReg 0 0 3 3 + 1) % 65536 + 65536 - (s (.doorbell 0x83)).ringReg 0 0 3 2) % 65536 ≤
      (s (.doorbell 0x83)).ringSize 0 0 3 ∧
    ((s (.flag 48)).cl 0).setPlace (.flag 48) = .bad := by decide +kernel

theorem witness_thatcher :
    let ops : List (Nat × BitVec 512) :=
      [(1, cmd [(0, 1), (4, 0x10), (8, 0x1000), (16, 0x20000), (32, 512)]),
       (2, cmd [(0, 2), (8, 0x1000), (16, 0x20000)]),
       (3, cmd [(0, 3), (4, 1), (5, 1), (8, 0x1000), (16, 0x20000), (24, 2 ^ 63)])]
    ops.all (fun p =>
      let s := engineRuns 2 0 { cmd := p.2 }
      s.ringRuns 0 2 0 && decide ((s.cl 0).thatcher.list 0 = [{ cmd := p.2 }]) && decide ((s.cl 0).thatcher.buf = []) &&
      decide ((s.cl 0).storeErr = []) && !thatcherBad p.2 && decide (cmdFld p.2 0 1 = p.1) &&
      decide (locOf false (cmdFld p.2 8 8) = some (.store 0x1000)) &&
      decide (locOf false (cmdFld p.2 16 8) = some (.store 0x20000))) = true ∧
    (let h := leBytes 1 1 ++ leBytes 1 1 ++ leBytes 14 0
     let c := cmd [(0, 2), (8, 0x1000), (16, 0x20000)]
     tileBad h = false ∧ hdrMask h = tMask c ∧ tileRanges h = [] ∧ 0x20000 + 32768 ≤ storeSize) := by decide +kernel

/-- PredictWritesResult: one block, one token, everything read: 140 bytes. -/
theorem witness_predict :
    let c := cmd [(0, 1), (4, 1), (6, 1), (40, 0x8000), (48, 1)]
    let s : State := { enginesOn with toChip := enginesOn.toChip.modEngine 0 4 fun e =>
      { e.setList 0 [{ cmd := c }] with buf := List.replicate 140 0#8 } }
    s.ringRuns 0 4 0 = true ∧ (s.cl 0).skylight.list 0 = [{ cmd := c }] ∧ (s.cl 0).storeErr = [] ∧
    rangeAt ((skyInputs c).map fun x => (x.1 * 2 ^ 60, x.2)) (s.cl 0).skylight.buf.length = none ∧
    locOf false (cmdFld c 40 8) = some (.store 0x8000) ∧
    (skyClassify c (s.cl 0).skylight.buf).all (fun y => !y.bound.isNan) = true := by decide +kernel

/-! ### Translation, faults, pre-emption, time -/

/-- WalksAndAts: a read of an entry of level 3 that goes on, of level 2 that ends the walk, and of one that is absent; the
cluster's route to the bay memory controller and back is armed. -/
theorem witness_walker :
    let s (l entry : Nat) : State := { lit with
      bays := [(0, { power := .lit, tint := 1, keys := [(0, some ⟨7#512, 1⟩)], lineKey := [(0, some (7#512))]
                     stack := (SMap.set 0#8 (SMap.set 0#8 [] 0 (BitVec.ofNat 8 entry)) 3 (BitVec.ofNat 8 (entry / 2 ^ 24)))
                     walks := [(15, some ⟨0, 0, l, 0, 0, [⟨0, 0, 0, false, false, 0⟩]⟩)] })]
      clusters := [(0, {
        lc := some 0, ctu := { page := { enable := true } }
        dma0 := { page := { enable := true }, work := [(0, [{ cmd := 1#512 }])] }
        router := { up := true, valid0 := true, route := [(0, 0x11#64), (1024, 0x13#64)] } })]
      gables := [(1, { page := { enable := true, regs := SMap.set 0#64 [(Off.GB_BAYS 0, 1#64)] Off.GB_CFG (1#64 <<< 16) } })] }
    [(3, 1), (2, 0xF), (0, 0)].all (fun p =>
      let s := s p.1 p.2
      s.bayOk 0 && (s.cl 0).ctu.page.enable && ((s.cl 0).engine 0).cmdAt 0 0 ≠ none &&
      decide (((s.cl 0).engine 0).parked 0 = none) && match SMap.get none (s.bay 0).walks 15 with
      | none => false
      | some k => k.waiters.all (fun w => w.unit < 5) &&
        match (s.toChip.ctuCount 0 Off.CTU_WALK_READS).walkRead 0 15 k 0 with
        | .ok s1 line => (match walkStep (BitVec.ofNat 64 (leNat (slice line 0 8))) p.1 0 (s1.sameGable 0)
            (fun st slot => ((s1.bay st).keyFor slot (s1.clTint 0)).isSome) with
          | .next _ _ => decide (p.1 = 3) | .leaf _ => decide (p.1 = 2) | .fault _ => decide (p.1 = 0))
        | _ => false) = true := by decide +kernel

theorem witness_ats :
    let w : Waiter := ⟨4, 0, 2 ^ 55, false, true, 0⟩
    let c : BitVec 512 := cmd [(0, 1)]
    let s := withCl {
      ctu := { page := { enable := true }, ats := [w], pri := [⟨{ w with unit := 0, ring := 3 }, true⟩] }
      skylight := { work := [(0, [{ cmd := c }])] }, dma0 := { work := [(3, [{ cmd := c }])] } }
    (s.cl 0).ctu.page.enable = true ∧ (s.cl 0).ctu.ats.find? (fun w => w.is 4 0) = some w ∧
    bit (s.reg (.ctu 0) Off.CTU_CFG) 1 = false ∧ w.ring = 0 ∧ w.unit = 4 ∧ ((s.cl 0).engine 4).parked 0 = none ∧
    ((s.cl 0).engine 4).cmdAt 0 w.place ≠ none ∧ (s.cl 0).ctu.phase.holds = false ∧
    (s.cl 0).ctu.pri.find? (fun x => x.sent && x.w.is 0 3) = some ⟨{ w with unit := 0, ring := 3 }, true⟩ ∧
    ((s.cl 0).engine 0).cmdAt 3 w.place ≠ none := by decide +kernel

theorem witness_invalidate :
    (let s : State := { State.reset with link := { up := true, cxl := true, width := 4, speed := 3 } }
     s.link.held = false ∧ s.link.invals = []) ∧
    (let w : State := { lit with
       bays := [(0, { power := .lit, tint := 1, walks := [(0, some ⟨0, 2 ^ 55, 3, 0, 0, []⟩)] })] }
     0 < 4032 ∧ w.clTint 0 = 1 ∧ w.invalOpen 0 (2 ^ 55) (2 ^ 55 + 2 ^ 12) = true) ∧
    Reaches (withCl {}).toChip (.ctu 0) ∧
    (let s := withCl { ctu := { inval := some (2 ^ 55, 2 ^ 16, false, true) } }
     (s.cl 0).ctu.inval = some (2 ^ 55, 2 ^ 16, false, true) ∧
     ∀ c ∈ s.invalReach 0 true, s.invalOpen c (2 ^ 55) (2 ^ 55 + 2 ^ 16) = false) ∧
    [0x1001, 0x3801].all (fun n => let v := BitVec.ofNat 64 n
      bit v 0 && !bit v 1 && !bit v 2 && decide (16 ≤ fld v 8 6) && decide (fld v 8 6 ≤ 56)) = true := by
  simp only [Reaches]; decide +kernel

/-- FaultsParkAndResume: a fault just captured, and one parked with its number. -/
theorem witness_park :
    let s (p : Park) : State := { withCl { dma1 := { park := [(3, some p)] } } with
      link := { up := true, cxl := true, width := 4, speed := 3, msix := [(2 * faultVector 1 + 1, 0#64)] }
      fields := [(0, { running := true })]
      gables := [(1, { page := { enable := true, regs := SMap.set 0#64 [(Off.GB_BAYS 0, 1#64)] Off.GB_FQ_CFG 4#64 } })] }
    let p : Park := { kind := .permission }
    let q : Park := { kind := .permission, capturing := false, parked := true, seq := 7 }
    let v := BitVec.ofNat 64 (7 * 2 ^ 32 + 0x103)
    let w := BitVec.ofNat 64 (8 * 2 ^ 32 + 0x103)
    (((s p).cl 0).engine 1).parked 3 = some p ∧ (((s q).cl 0).engine 1).parked 3 = some q ∧ (s q).clTint 0 = 1 ∧
    (s p).dispatcher (clField 0) = some 0 ∧ p.capturing = true ∧ p.kind ≠ .hostPending ∧ q.parked = true ∧
    q.dispatched = false ∧ q.seq ≠ 0 ∧ ((s q).cl 0).ctu.phase = .none ∧
    ((s q).cl 0).ctu.phase.holds = false ∧ (s q).link.held = false ∧ (s q).link.vecMasked (faultVector 1) = false ∧
    ((s q).gbRing 1 Off.GB_FQ_BASE Off.GB_FQ_CFG Off.GB_FQ_TAIL Off.GB_FQ_HEAD).2.2 = false ∧
    Reaches (s q).toChip (unitPage 0 1) ∧ fld v 0 2 = 3 ∧ fld v 8 7 = 1 ∧ fld v 32 32 = q.seq ∧ fld w 32 32 ≠ q.seq := by
  simp only [Reaches]; decide +kernel

theorem witness_retire :
    let s : State := { lit with bringup := { done := 0xFFF#64 } }
    let v := BitVec.ofNat 64 (2 ^ 62 + 0xFFFFF * 2 ^ 16)
    let r : State := { lit with
      bays := [(0, { power := .lit, tint := 1, retiring := some 3 })], fields := [(0, { running := true })] }
    Reaches s.toChip (.baymem 0) ∧ bit v 62 = true ∧ (s.bay 0).retiring = none ∧ fld v 16 20 ∉ (s.bay 0).retired ∧
    (s.bay 0).retired.length < 65536 ∧ s.wearFull = false ∧ bit s.bringup.done 8 = true ∧
    (r.bay 0).retiring = some 3 ∧ r.bayOk 0 = true ∧ r.dispatcher (bayField 0) ≠ none ∧ r.wearFull = false := by
  simp only [Reaches]; decide +kernel

/-- PreemptSaves: an ACTIVE gable with two committed clusters, and each phase of a save. -/
theorem witness_preempt :
    let s (sv : Bool) (p : SavePhase) : State := { lit with
      tk := { now := 200000#64 }
      bays := [(0, { power := .lit, tint := 1, keys := [(0, some ⟨7#512, 1⟩)] })]
      gables := [(1, { saving := sv, page := { enable := true, regs := SMap.set 0#64 [(Off.GB_BAYS 0, 1#64)] Off.GB_CFG (1#64 <<< 16) } })]
      clusters := [(0, { lc := some 0, ctu := { page := { enable := true }, phase := p } }),
                   (1, { lc := some 1, ctu := { page := { enable := true }, phase := .saved } })] }
    Reaches (s false .none).toChip (.gable 1) ∧ bit (1#64) 0 = true ∧ bit (1#64) 1 = false ∧
    ((s false .none).gable 1).active = true ∧ (s false .none).ctuOff 1 = false ∧ (s false .none).gableLive 1 = [0, 1] ∧
    ((s false .none).gable 1).restoring = false ∧ ((s false .none).gable 1).resetting = false ∧
    (s true .stopping).savingIn 0 .stopping = true ∧ ((s true .stopping).cl 0).ctu.saveErr = false ∧
    (∀ u, u < 5 → (((s true .stopping).cl 0).engine u).park = []) ∧
    (s true .draining).savingIn 0 .draining = true ∧ (s true .draining).drained 0 = true ∧
    100000 < ((s true .draining).now - ((s true .draining).cl 0).ctu.drainAt).toNat ∧
    (s true .saving).savingIn 0 .saving = true ∧ (s true .saving).saveKey 0 = some (7#512) ∧
    ((s true .saving).bay (clBay 0)).copying ((s true .saving).saveArea 0).1 imageSize = false ∧
    ((s true .saving).cl 0).scanned.2 = false ∧ (s true .saving).gableLive ((s true .saving).clTint 0) = [0, 1] ∧ ((s true .saving).cl 1).ctu.phase = .saved := by
  simp only [Reaches]; decide +kernel

/-- RestoreReturnsImage: a DORMANT gable, and clusters that restore. -/
theorem witness_restore :
    let s (d : Bool) (p : SavePhase) : State := { lit with
      saved := [{ lc := some 3 }]
      bays := [(0, { power := .lit, tint := 1, keys := [(0, some ⟨7#512, 1⟩)], images := [(0, some (0, 7#512))] })]
      gables := [(1, { dormant := d, restoring := !d, page := { enable := true, regs := SMap.set 0#64 [(Off.GB_BAYS 0, 1#64)] Off.GB_CFG (1#64 <<< 16) } })]
      clusters := [(0, { lc := some 0, ctu := { phase := p } }), (1, { lc := some 1, ctu := { phase := p } })] }
    let r := s false .restoring
    let base := (r.saveArea 0).1
    let scan := r.toChip.stackScan 0 (base / 64) ((base + imageSize) / 64)
    Reaches (s true .none).toChip (.gable 1) ∧ bit (2#64) 0 = false ∧ bit (2#64) 1 = true ∧
    ((s true .none).gable 1).dormant = true ∧ ((s true .none).gable 1).saving = false ∧
    ((s true .none).gable 1).restoring = false ∧ ((s true .none).gable 1).resetting = false ∧ (s true .none).gableLive 1 = [0, 1] ∧
    (r.gable (r.clTint 0)).restoring = true ∧ r.saveKey 0 = some (7#512) ∧ (r.bay 0).copying base imageSize = false ∧
    scan.2 = false ∧ (scan.1.imageAt 0 base (7#512)).isSome = true ∧
    1 ∈ r.gableLive 1 ∧ (r.cl 1).ctu.phase = .restoring := by
  simp only [Reaches]; decide +kernel

/-- TimeResults: before and after step CLOCKS, pulses at the two ends of what is accepted, a lost reference, syncs. -/
theorem witness_time :
    let s (d : Nat) : State := { State.reset with
      module := { standby := true }
      tk := { now := BitVec.ofNat 64 d, ppsLast := some 0#64, page := { regs := [(Off.TK_PPS_CFG, 1#64)] } } }
    Reaches (s 0).toChip .timekeeper ∧ (s 0).bringup.clocksStarted = false ∧
    ({ State.reset with bringup := { clocksStarted := true } } : State).bringup.clocksStarted = true ∧
    bit ((s 0).reg .timekeeper Off.TK_PPS_CFG) 0 = true ∧ bit ((s 0).reg .timekeeper Off.TK_PPS_CFG) 1 = false ∧
    ((s 999999000).tk.now - 0#64).toNat = 999999000 ∧ ((s 1000001000).tk.now - 0#64).toNat = 1000001000 ∧
    2000000000 < ((s 2000000001).tk.now - 0#64).toNat ∧
    (let a : State := { State.reset with tk := { now := 1000000000#64, page := { regs := [(Off.TK_PPS_CFG, 3#64)] } } }
     bit (a.reg .timekeeper Off.TK_PPS_CFG) 1 = true ∧ ppsOffset a.tk.now.toNat = 0) ∧ (withCl {}).bayOk (clBay 0) = true ∧
    ((2 : Int).natAbs ≤ 2 ∧ (-2 : Int).natAbs ≤ 2) ∧ ((withCl {}).cl 0).tbTake = false ∧
    3 ≤ ((withCl { tbMissed := 3 }).cl 0).tbMissed ∧ lit.bayOk 0 = true ∧ (lit.bay 0).node.take = false ∧
    lit.powered = true ∧ (lit.field 83).node.take = false ∧ 3 ≤ ({ missed := 3 } : TbNode).missed := by
  simp only [Reaches]; decide +kernel

/-! ### Packets, routers, steps of a gable, eave ports -/

/-- Cluster 9 of bay 5 (field 1) in gable 1 with its router up, one packet in its input buffer or at its delivery
point; and cluster 0. -/
def routerState (r : Router) : State := { lit with
  bays := [(0, { power := .lit, tint := 1 }), (4, { power := .lit, tint := 1 })]
  clusters := [(0, { mapEn := true, lc := some 5, router := r })] }

/-- PacketHopMoves: a hop to the neighbour, to the delivery point and to the bay memory controller, and no route. -/
theorem witness_hop :
    let k : Packet := { destLC := 5, tint := 1 }
    let s (port : Nat) := routerState {
      up := true, valid0 := true, inbuf := [{ port := 8, pkt := k }], links := [(0, { state := .up }), (4, { state := .up })]
      route := [(1, BitVec.ofNat 64 ((1 + 2 * port) * 2 ^ 16))] }
    [0, 4, 8, 9].all (fun p => (s p).toChip.router 0 |>.up) = true ∧
    [0, 4, 8, 9].all (fun p => decide (((s p).router 0).lookup k = some ([p], 0))) = true ∧
    neighbour 0 0 = some 1 ∧ neighbour 0 4 = some 8 ∧ (((s 0).router 0).link 0).state = .up ∧
    (((s 4).router 0).link 4).state = .up ∧ (((s 0).router 0).link 0).noise = [] ∧
    [0, 4, 9].all (fun p => (s p).hasRoom 0 p k 0) = true ∧ (s 0).mayEnter 1 1 = true ∧ (s 4).mayEnter 8 1 = true ∧ k.doomed = false ∧
    ((s 0).router 0).lookup { k with destLC := 6 } = none := by decide +kernel

/-- A packet delivered at cluster 0, of its tint. -/
def delivered (k : Packet) : State := routerState { up := true, arrived := [{ k with tint := 1 }] }

/-- PacketsReachStore: bytes to the end of the store and one beyond it, a read, a flag set, and a receive slot whose
last lane the packet adds to. -/
theorem witness_storePackets :
    let at_ (unit ptype addr n : Nat) : Packet :=
      { destUnit := unit, ptype, tint := 1, payload := leBytes 8 addr ++ List.replicate n 0xFF#8 }
    let s := delivered (at_ 1 0 0xBFFFF8 8)
    let g : State := { s with clusters := [(0, { router := (s.router 0)
                                                 gutter := { page := { regs := [(Off.GT_SLOT_CFG 15, 0x10001#64)] } } })] }
    (s.router 0).arrived = [at_ 1 0 0xBFFFF8 8] ∧ s.clTint 0 = 1 ∧ (s.cl 0).storeErr = [] ∧
    [at_ 1 0 0xBFFFF8 8, at_ 1 1 0xBFFFF9 8, at_ 1 2 0 4, at_ 2 0 0 8, at_ 3 0 0 8].all (s.answerRoom 0) = true ∧
    (at_ 1 0 0xBFFFF8 8).addr % 2 ^ 24 + (at_ 1 0 0xBFFFF8 8).data.length ≤ storeSize ∧
    storeSize < (at_ 1 1 0xBFFFF9 8).addr % 2 ^ 24 + (at_ 1 1 0xBFFFF9 8).data.length ∧
    (let n := leNat (((leBytes 8 0 ++ leBytes 4 8192 : List Byte).drop 8).take 4)
     1 ≤ n ∧ n ≤ 8192 ∧ 0xBFE000 + n ≤ storeSize) ∧
    bit (g.reg (.gutter 0) (Off.GT_SLOT_CFG 15)) 0 = true ∧
    slotValues (bit (g.reg (.gutter 0) (Off.GT_SLOT_CFG 15)) 1) (at_ 2 0 0 8).payload = some [2 ^ 64 - 1] ∧
    leNat ((at_ 2 0 0 8).payload.take 8) + 1 ≤ fld (g.reg (.gutter 0) (Off.GT_SLOT_CFG 15)) 16 20 := by decide +kernel

theorem witness_unitPackets :
    let s := delivered { destUnit := 4, destCore := 127, payload := leBytes 8 0xBFF8 ++ leBytes 8 7 }
    let k : Packet := { destUnit := 4, destCore := 127, tint := 1, payload := leBytes 8 0xBFF8 ++ leBytes 8 7 }
    (s.router 0).arrived = [k] ∧ s.tintOk 0 k = true ∧ k.ptype ≤ 1 ∧ s.answerRoom 0 k = true ∧ (s.cl 0).mapEn = true ∧
    k.addr % 65536 % 8 = 0 ∧ k.addr % 65536 + k.data.length ≤ 0xC000 ∧
    (s.cl 0).weave.valid.getD 3 false = false ∧
    (SMap.get [] (s.cl 0).weave.delivery 3).length + (itemsOf k.payload).length ≤ deliveryItems ∧
    ({ weave := { valid := [true, false, false, false] } } : Cluster).weave.valid.getD 0 false = true ∧
    (∀ k : Packet, k.payload = leBytes 8 0xFFFF8 ++ leBytes 8 7 → k.addr % 8 = 0 ∧ k.addr + k.data.length ≤ 2 ^ 20) := by
  refine ⟨?_, ?_, ?_, ?_, ?_, ?_, ?_, ?_, ?_, ?_, ?_⟩ <;> try decide +kernel
  intro k h; simp only [Packet.addr, Packet.data, h]; decide +kernel

theorem witness_noErrors : ∀ p, (({} : Cluster).core p).lmErr = [] := fun _ => rfl

/-- PacketsReachStack: a line written and a chunk read, at offset 0. -/
theorem witness_stackPackets :
    let k (ptype n : Nat) : Packet := { destUnit := 0x10, tint := 1, ptype, payload := leBytes 8 0 ++ leBytes n (if ptype = 2 then 256 else 0) }
    let s (k : Packet) : State := { lit with
      bays := [(0, { power := .lit, tint := 1, keys := [(0, some ⟨7#512, 1⟩)], arrived := [(0, k)]
                     lineKey := (List.range 4).map fun i => (i, some (7#512)) })]
      gables := [(1, { page := { enable := true, regs := SMap.set 0#64 [(Off.GB_BAYS 0, 1#64)] Off.GB_CFG (1#64 <<< 16) } })] }
    ((s (k 0 64)).bay 0).arrived = [(0, k 0 64)] ∧ ((s (k 0 64)).bay 0).tint = 1 ∧
    ((s (k 0 64)).bay 0).keyFor (bits (k 0 64).addr 36 6) 1 = some (7#512) ∧ ((s (k 0 64)).bay 0).retiring = none ∧
    ((s (k 0 64)).bay 0).lineErr = [] ∧ ((s (k 0 64)).router 0).arrived = [] ∧
    (s (k 0 64)).answerRoom 0 (k 0 64) = true ∧ (s (k 2 4)).answerRoom 0 (k 2 4) = true ∧ bits (k 0 64).addr 0 36 = 0 ∧
    (k 0 64).data.length = 64 ∧ (s (k 0 64)).windowOk 1 0 64 = true ∧ leNat (((k 2 4).payload.drop 8).take 4) = 256 ∧
    (s (k 2 4)).windowOk 1 0 256 = true ∧
    (∀ i < 256 / 64, SMap.get none ((s (k 2 4)).bay 0).lineKey (0 / 64 + i) = some (7#512)) := by decide +kernel

theorem witness_answers :
    let k (ptype : Nat) : Packet := { destUnit := 1, ptype, tint := 1, seq := 3, ackCh := 2 }
    let o : Outstanding := { unit := 1, sub := 0, channel := 2, seq := 3, sentAt := 0#64 }
    let s (ptype : Nat) : State := routerState { up := true, arrived := [k ptype], outstanding := [o] }
    ((s 4).router 0).arrived = [k 4] ∧ (s 4).clTint 0 = 1 ∧ ((s 4).router 0).outstanding = [o] ∧
    o.unit = (k 4).destUnit ∧ o.sub = (k 4).destCore ∧ o.seq = (k 4).seq ∧ o.leaves ≤ 1 ∧ o.channel = (k 4).ackCh ∧ (s 4).tooLate 0 o = false ∧
    (let u : State := { s 4 with tk := { now := BitVec.ofNat 64 (2 ^ 33) } }
     fld (u.reg (.cluster 0) Off.CL_RT_ACK_TIMEOUT) 0 32 < (u.clTime 0 - o.sentAt).toNat) := by decide +kernel

theorem witness_links :
    let s (l : Link) := routerState { up := true, links := [(7, l), (0, l)] }
    neighbour 0 0 = some 1 ∧ neighbour (clAt 0 8) 7 = some 0 ∧
    (((s { state := .up, replays := 8 }).router 0).link 0).state = .up ∧
    8 ≤ (((s { state := .up, replays := 8 }).router 0).link 0).replays ∧
    (((s { state := .up }).router 0).link 0).replaying = none ∧
    (let k : Packet := { tint := 1 }
     let l : Link := { state := .up, replaying := some (k, 0) }
     (((s l).router 0).link 0).replaying = some (k, 0) ∧ l.noise = [] ∧ (s l).mayEnter 1 k.tint = true) ∧
    (((s { state := .failing }).router 0).link 0).state = .failing ∧
    SMap.get none (((s { state := .failing }).router 0).link 0).spares (wireGroup 1087) = none ∧
    Reaches (s {}).toChip (.cluster 0) ∧ (s {}).wearFull = false ∧
    (let v := BitVec.ofNat 64 (1087 * 16 + 8)
     bit v 3 = true ∧ bit v 15 = false ∧ fld v 4 11 = 1087) ∧
    (bit (0x8000#64) 3 = false ∧ bit (0x8000#64) 15 = true) := by
  simp only [Reaches]; decide +kernel

theorem witness_routerCommands :
    let s : State := { routerState { up := true, valid1 := true, cur := 0 } with bringup := { done := 0x7F#64 } }
    let d : State := { s with clusters := [(0, { page := { regs := [(Off.CL_RT_ADDR, BitVec.ofNat 64 (1119 * 256 + 1))] }
                                                 router := s.router 0 })] }
    let e : State := { s with clusters := [(0, { page := { regs := [(Off.CL_RT_ADDR, BitVec.ofNat 64 (1119 * 256))] }
                                                 router := s.router 0 })] }
    Reaches s.toChip (.cluster 0) ∧
    (bit (0x101#64) 8 = true ∧ bit (0x101#64) 9 = false ∧ bit (0x101#64) 10 = false ∧ bit (0x101#64) 11 = false) ∧
    (s.router 0).epochHeld 1 = false ∧ (bit (0x201#64) 8 = false ∧ bit (0x201#64) 9 = true ∧ bit (0x201#64) 11 = false) ∧
    (bit (0x401#64) 10 = true ∧ bit (0x401#64) 11 = false) ∧ (s.router 0).valid 1 = true ∧ bit s.bringup.done 6 = true ∧
    (bit (0x800#64) 10 = false ∧ bit (0x800#64) 11 = true) ∧ s.holdsFlit 0 = false ∧
    s.sourcesBusy 0 = false ∧
    bit (d.reg (.cluster 0) Off.CL_RT_ADDR) 1 = false ∧ fld (d.reg (.cluster 0) Off.CL_RT_ADDR) 8 11 < 1120 ∧
    (d.router 0).valid (fld (d.reg (.cluster 0) Off.CL_RT_ADDR) 0 1) = true ∧
    (e.router 0).valid (fld (e.reg (.cluster 0) Off.CL_RT_ADDR) 0 1) = false := by
  simp only [Reaches]; decide +kernel

theorem witness_routerResetEnd :
    let s : State := { routerState { resetting := true } with clusters := [(0, { router := { resetting := true } }), (1, { router := { up := true } })] }
    (s.router 0).resetting = true ∧ neighbour 0 0 = some 1 ∧ s.bayOk (clBay 0) = true ∧ (s.cl 0).hole = false ∧ s.inService 1 = true ∧
    7 ∉ ((routerState { flipping := [7] }).router 0).busyKeys := by decide +kernel

/-- StepsArm and StepStartsCores and AttemptEndCharges: each state of a step, an instant exactly 2 us ahead and one
nearer; a gable with one committed cluster, and one in pre-emption. -/
theorem witness_steps :
    let s (st : StepState) (sv : Bool) : State := { lit with
      gables := [(1, { step := st, saving := sv, page := { enable := true, regs := [(Off.GB_BAYS 0, 1#64)] } })]
      clusters := [(0, { lc := some 0, mapEn := true
                         cores := (List.range 128).map fun i => (i, { cause := .done }) })] }
    Reaches (s .idle false).toChip (.gable 1) ∧ (s .idle false).now.toNat + 2000 ≤ (2000#64).toNat ∧
    (1999#64).toNat < (s .idle false).now.toNat + 2000 ∧ ((s .armed false).gable 1).step = .armed ∧
    ((s .armed false).gable 1).stepAt.toNat ≤ (s .armed false).now.toNat ∧ (s .armed false).preempted 1 = false ∧
    (s .armed true).preempted 1 = true ∧ (s .armed false).gableLive 1 = [0] ∧ 0 ∈ ((s .armed false).cl 0).mappedCores ∧
    ((s .armed false).core 0 0).run = .stopped ∧ (s .running false).attemptOver 1 = true := by
  simp only [Reaches]; decide +kernel

theorem witness_receiveTable :
    let s (arm : Bool) (addr : Nat) : State := { lit with
      gables := [(1, { redArm := arm, page := { enable := true, regs := SMap.set 0#64 [(Off.GB_BAYS 0, 1#64)] Off.GB_RED_ADDR (BitVec.ofNat 64 addr) } })] }
    Reaches (s false 0).toChip (.gable 1) ∧ bit (1#64) 0 = true ∧ ((s false 0).gable 1).redArm = false ∧
    ((s true 0).gable 1).redArm = true ∧ fld ((s true (1023 * 16 + 7)).reg (.gable 1) Off.GB_RED_ADDR) 0 4 < 8 ∧
    bit (0x10000#64) 16 = true ∧ ((s true 0).gable 1).redDigest = none ∧
    ({ redDigest := some 7 } : Gable).redDigest = some 7 := by
  simp only [Reaches]; decide +kernel

/-- ReceiveTableDecides: a RECV entry that waits, DUE 100 and DEADLINE 200, at 50, 150 and 250. -/
theorem witness_decides :
    let s (now : Nat) (r : RedEntry) : State := { lit with
      tk := { now := BitVec.ofNat 64 now }
      committed := [(0, some 0)]
      gables := [(1, { redArm := true, red := [(0, r)], redMem := [(0, 1#8), (16, 100#8), (24, 200#8)] })] }
    let r : RedEntry := { state := 1, backup := { stamp := some (200#64) } }
    let g := (s 150 r).gable 1
    (s 150 r).preempted 1 = false ∧ g.redArm = true ∧ g.redKind 0 = 1 ∧ (g.redEntry 0).state = 1 ∧
    (r.copy true).stamp = some (200#64) ∧ (r.copy true).broken = false ∧ (r.copy true).cut = false ∧ r.primary.complete = false ∧
    r.backup.complete = false ∧ (200#64).toNat ≤ g.redDeadline 0 ∧ g.redDue 0 ≤ (s 150 r).now.toNat ∧
    (s 150 r).now.toNat ≤ g.redDeadline 0 ∧ r.late = false ∧ (s 50 r).now.toNat < g.redDue 0 ∧
    g.redDeadline 0 < (s 250 r).now.toNat ∧ r.primary.stamp = none ∧ ({} : RedEntry).backup.stamp = none ∧
    (∀ q ∈ (s 150 r).eaves, q.2.waiting = []) := by decide +kernel

/-- Port 0 with its attach cluster, logical cluster 5, in gable 1 and its routes to and from the port armed. -/
def portState (e : Eave) : State := { State.reset with
  bays := [(8, { power := .lit, tint := 1 })]
  clusters := [(16, { lc := some 5, router := { up := true, valid0 := true, route := [(1, 0x110000#64), (1108, 0x15#64)] } })]
  committed := [(5, some 16)]
  eaves := [(0, { e with link0 := { e.link0 with lanes := [0] } })] }

/-- What a transport brings. -/
def bytesOf : StackRes → Option (List Byte)
  | .ok _ bs => some bs
  | _ => none

/-- ReceiveTable: a selection word written, its FLAG packet for logical cluster 0 carried from port 0. -/
theorem witness_selection :
    let s : State := { portState {} with
      clusters := [(16, { lc := some 0, router := { up := true, valid0 := true, route := [(0, 0x11#64), (1108, 0x15#64)] } })]
      committed := [(0, some 16)]
      gables := [(1, { redArm := true, red := [(0, { state := 3, chosen := 1, sel := .written })] })] }
    let g := s.gable 1
    (g.redEntry 0).sel = .written ∧ s.preempted 1 = false ∧
    (bytesOf (s.toChip.portFlag ((g.redEntry 0).copy false).port 1 (g.redLc 0) (g.redFlag 0))).isSome = true := by decide +kernel

theorem witness_portLinks :
    let s (st : EaveLinkState) (own : Bool) (n : Nat) := portState { link0 := { state := st, own, retrains := List.replicate n 0#64 } }
    let recent (n : Nat) := ((s .up false n).evLink 0 0).retrains.filter fun at_ => decide (((s .up false n).now - at_).toNat ≤ 10000000)
    Reaches (s .up false 0).toChip (.eave 0) ∧ bit (1#64) 0 = true ∧ bit (1#64) 1 = false ∧ (s .up false 0).attachOk 0 = true ∧
    (s .up false 0).module.ebTakes = false ∧ bit (2#64) 0 = false ∧ bit (2#64) 1 = true ∧ (s .up false 0).powered = true ∧
    0 ∈ (s .up false 0).evLinks 0 ∧ ((s .up false 0).evLink 0 0).state ≠ .out ∧
    ((s .up false 0).evLink 0 0).state = .up ∧ (recent 2).length < 3 ∧ 3 ≤ (recent 3).length ∧
    ((s .training false 0).evLink 0 0).state = .training ∧
    1 ≤ (trainedLanes ((s .training false 0).evMode 0) 0 [7]).length ∧
    fld ((s .training false 0).evReg 0 Off.EV_CFG) 4 4 ≤ (trainedLanes ((s .training false 0).evMode 0) 0 [7]).length ∧
    trainedLanes ((s .training false 0).evMode 0) 0 [] = [] ∧ ((s .training false 0).evLink 0 0).own = false := by
  simp only [Reaches]; decide +kernel

theorem witness_sessions :
    let s (st addr : Nat) := portState { sessions := [(511, { state := st })], page := { regs := [(Off.EV_SESS_ADDR, BitVec.ofNat 64 addr)] } }
    let v := BitVec.ofNat 64 (511 + 512)
    Reaches (s 0 0).toChip (.eave 0) ∧ bit v 9 = true ∧ bit v 10 = false ∧ ((s 0 0).session 0 (fld v 0 9)).state = 0 ∧
    bit (0x5FF#64) 9 = false ∧ bit (0x5FF#64) 10 = true ∧
    fld ((s 1 (511 * 8 + 4)).reg (.eave 0) Off.EV_SESS_ADDR) 0 3 < 5 ∧
    ((s 1 (511 * 8 + 4)).session 0 (fld ((s 1 (511 * 8 + 4)).reg (.eave 0) Off.EV_SESS_ADDR) 3 9)).state = 1 ∧
    ((s 2 (511 * 8 + 4)).session 0 511).state ≠ 1 := by
  simp only [Reaches]; decide +kernel

/-- EaveSendsAndReceives: a post, its descriptor, a send whose turn it is, a frame due again, and frames that arrive. -/
theorem witness_sends :
    let post : Packet := { destUnit := 0x12, ptype := 1, srcLC := 5, tint := 1, payload := leBytes 8 0x1000 }
    let x : Session := { state := 1, key := some (1#256, 1#32), rate := 2000, allow := 2 ^ 20
                         words := [(0, BitVec.ofNat 64 (9 + 2 ^ 16)), (1, BitVec.ofNat 64 (2 ^ 34))] }
    let d : Send := ⟨0, cmd [(0, 1), (4, 9), (8, 0x2000), (12, 64), (20, 64)], 5, 1, 0⟩
    let f : TxFrame := { frame := {}, len := 64, lc := 5, src := 0xBFFFC0, send := 0, due := true }
    let s := portState { link0 := { state := .up }, arrived := [post], posts := [⟨5, 1, 0x1000⟩], sends := [d], sessions := [(0, x)] }
    let r := portState { link0 := { state := .up }, sessions := [(0, { x with inflight := [f] })] }
    let s0 := (s.toChip.flushAcks 0).finishSends 0
    let r0 := (r.toChip.flushAcks 0).finishSends 0
    let n := s0.nextFrame d (s0.session 0 0)
    (s.eave 0).arrived = [post] ∧ s.powered = true ∧ post.ptype = 1 ∧ post.destUnit = 0x12 ∧ (s.eave 0).posts.length < 1024 ∧ s.answerRoom (eaveCluster 0) post = true ∧
    (s.eave 0).posts = [⟨5, 1, 0x1000⟩] ∧ (s.eave 0).sends.length < 16 ∧ s.preempted 1 = false ∧
    (bytesOf (s.toChip.portRead 0 1 5 0x1000 64)).isSome = true ∧
    s.sendBad 0 1 d.desc = false ∧ s.sendBad 0 2 d.desc = true ∧
    (s0.session 0 0).inflight.find? (·.due) = none ∧ (s0.eave 0).sends.find? (s0.sendReady 0) = some d ∧
    recFld d.desc 4 2 = (s0.session 0 0).id ∧ (s0.session 0 0).state = 1 ∧
    (bytesOf (s0.portRead 0 (s0.session 0 0).tintOf n.lc n.src n.len)).isSome = true ∧
    (r0.session 0 0).inflight.find? (·.due) = some f ∧ r0.mayData 0 (r0.session 0 0) 64 = true ∧
    (bytesOf (r0.portRead 0 (r0.session 0 0).tintOf f.lc f.src f.len)).isSome = true ∧
    (s.evLink 0 0).state = .up ∧ ((s.toChip.drainPort 0).eave 0).held + 4096 ≤ rxBuffer := by decide +kernel

theorem witness_portTimers :
    let f : TxFrame := { frame := {}, len := 64, lc := 5, src := 0, send := 0 }
    let x : Session := { state := 1, key := some (1#256, 1#32), sinceAck := 1, inflight := [f], rate := 2000, allow := 2 ^ 20 }
    let s (rto : Nat) : State := { portState { link0 := { state := .up }, sessions := [(511, x)]
                                               page := { regs := SMap.set 0#64 [(Off.EV_RTO, BitVec.ofNat 64 rto)] Off.EV_PFC_CFG (BitVec.ofNat 64 (2 ^ 39)) } } with
      tk := { now := BitVec.ofNat 64 (2 ^ 33) } }
    ((s 0).session 0 511).state = 1 ∧ ((s 0).session 0 511).sinceAck ≠ 0 ∧
    fld ((s 0).evReg 0 Off.EV_ACK_CFG) 16 16 ≤ ((s 0).now - x.firstAt).toNat ∧ (s 0).mayStart 0 ((s 0).session 0 511) = true ∧ (s 0).allows 0 ((s 0).session 0 511) 0 = true ∧
    ((s 0).session 0 511).inflight = [f] ∧ f.due = false ∧ (s 0).timersHold ((s 0).eave 0) x = false ∧
    fld ((s 0).evReg 0 Off.EV_RTO) 0 32 < ((s 0).now - f.sentAt).toNat ∧
    fld ((s 0).evReg 0 Off.EV_RTO) 32 8 ≤ f.sendings ∧
    f.sendings < fld ((s (2 * 2 ^ 32)).evReg 0 Off.EV_RTO) 32 8 ∧ (s 0).steady 0 ((s 0).session 0 511) = true ∧
    (s 0).powered = true ∧ bit ((s 0).evReg 0 Off.EV_PFC_CFG) (32 + 7) = true ∧ Reaches (withCl {}).toChip (.cluster 0) ∧
    (let w := BitVec.ofNat 64 (2 ^ 63 + 8 * 2 ^ 42 + 47) &&& 0x80003FFFFF1FFFFF#64
     bit w 63 = true ∧ fld w 0 6 ≤ 47 ∧ fld w 42 4 ≤ 8 ∧ (fld w 24 18 + 2 ^ fld w 42 4) * 64 ≤ storeSize) ∧
    (let w := BitVec.ofNat 64 (2 ^ 63 + 48) &&& 0x80003FFFFF1FFFFF#64
     bit w 63 = true ∧ ¬ fld w 0 6 ≤ 47) ∧ bit (0#64 &&& 0x80003FFFFF1FFFFF#64) 63 = false := by
  simp only [Reaches]; decide +kernel

/-! ### The host link, registers, gables, meters -/

/-- The host link up in CXL mode, with nothing held. -/
def linkUp : HostLink := { up := true, cxl := true, width := 16, speed := 5 }

theorem witness_hostLink :
    State.reset.link.up = false ∧ State.reset.module.standby = true ∧ State.reset.module.tapTakes = false ∧
    linkShape 1 1 = true ∧ linkShape 16 5 = true ∧ ({ State.reset with link := linkUp } : State).link.up = true ∧
    ({ State.reset with link := linkUp } : State).link.held = false ∧ 1023 < vectorsOf 0 ∧ 1 < vectorsOf 64 := by decide +kernel

/-- QueueRegisters: a ring of 16 that a tail write fills and overfills, an enabled queue and one that is off, a ring
watched, the smallest and largest sizes and vectors. -/
theorem witness_queueRegisters :
    let s (p : QueuePair) : State := { State.reset with link := { linkUp with cxlOn := true, queues := [(queueKey 64 7, p)] } }
    let p : QueuePair := { cqEnable := true, regs := [(Off.HQ_SQ_CFG, 4#64), (Off.HQ_SQ_HEAD, 0xFFF8#64)] }
    let w : QueuePair := { sqEnable := true, regs := [(Off.HQ_SQ_CFG, 0x14#64)] }
    queueOk 64 7 = true ∧ (s p).queue 64 7 = p ∧ p.watch 64 = false ∧
    sub16 ((8#64).toNat % 65536) (p.reg 64 Off.HQ_SQ_HEAD) ≤ 2 ^ p.sqLog 64 ∧
    2 ^ p.sqLog 64 < sub16 ((9#64).toNat % 65536) (p.reg 64 Off.HQ_SQ_HEAD) ∧
    (bit (0x2C#64) 5 = true ∧ bit (0x2C#64) 4 = false ∧ 4 ≤ fld (0x2C#64) 0 4 ∧ fld (0x2C#64) 0 4 ≤ 12) ∧
    (bit (0x23#64) 5 = true ∧ fld (0x23#64) 0 4 < 4) ∧ p.sqEnable = false ∧ p.cqEnable = true ∧
    bit (4#64) 5 = false ∧ w.sqEnable = true ∧ w.cqEnable = false ∧ w.error = false ∧ w.watch 64 = true ∧
    (s w).link.cxlServes = true ∧ State.reset.link.cxlServes = false ∧
    (let v := BitVec.ofNat 64 (14 + 16 + 63 * 65536)
     bit v 4 = true ∧ 4 ≤ fld v 0 4 ∧ fld v 0 4 ≤ 14 ∧ 2 ≤ fld v 16 11 ∧ fld v 16 11 ≤ 63) ∧
    w.reg 64 Off.HQ_SQ_TAIL < 65536 ∧ sub16 (w.reg 64 Off.HQ_SQ_TAIL) (w.reg 64 Off.HQ_SQ_HEAD) < 2 ^ w.sqLog 64 := by
  decide +kernel

/-- A queue of the PF with one entry rung, and `l` in progress. The attach cluster 51 of the host bridge, logical
cluster 0 of gable 1, has its routes to its cluster, to the memory controller of its bay 24, and to the bridge. -/
def queued (l : List HibCmd) : State := { lit with
  bays := [(24, { power := .lit, tint := 1, keys := [(0, some ⟨7#512, 1⟩)]
                  lineKey := [(0, some (7#512)), (2 ^ 24 - 1, some (7#512))] })]
  gables := [(1, { page := { enable := true, regs := SMap.set 0#64 [(Off.GB_BAYS 0, 1#64 <<< 24)] Off.GB_CFG (1#64 <<< 16) } })]
  clusters := [(51, { lc := some 0, router := { up := true, valid0 := true, route := [(0, 0x11#64), (1030, 0x13#64), (1116, 0x15#64)] } })]
  link := { linkUp with
    running := l
    queues := [(0, { sqEnable := true, cqEnable := true, regs := [(Off.HQ_SQ_CFG, 4#64), (Off.HQ_SQ_TAIL, 1#64), (Off.HQ_CQ_CFG, BitVec.ofNat 64 (4 + 213 * 65536))] })] } }

theorem witness_queueStart :
    let s := queued []
    let c : HibCmd := { fn := 0, queue := 0, cmd := 0#512 }
    s.hibStarts = true ∧ rotate (some s.link.lastQueue) s.readyOrders = some (queueOrder 0 0) ∧ c.fence = false ∧
    s.preempted c.tint = false ∧ (queued [c]).hibWorks 0 0 = some c ∧ (queued [{ c with done := true }]).hibCmd 0 = some { c with done := true } ∧ c.silent = false ∧
    ({ c with done := true } : HibCmd).ended = some 0 ∧ ((queued []).queue 0 0).cqFull 0 = false ∧
    ((queued []).queue 0 0).cqEnable = true ∧ (queued []).link.held = false ∧
    (let d : HibCmd := { c with cmd := 1#512 }
     (queued [d]).hibCmd 0 = some d ∧ d.done = false ∧ d.abort = false ∧ d.op = 1) := by decide +kernel

theorem witness_transfers :
    let c (op : Nat) (more : List (Nat × Nat)) : HibCmd := { fn := 0, queue := 0, cmd := cmd ([(0, op), (4, 1), (6, 24), (16, 64)] ++ more) }
    let ld : HibCmd := { fn := 0, queue := 0, cmd := cmd [(0, 3), (4, 1), (5, 1), (16, 64), (22, 64), (24, 0xFFFFC0)] }
    let fl : HibCmd := { fn := 0, queue := 0, cmd := cmd [(0, 4), (4, 1), (16, 4)] }
    let w := c 1 []
    let r := c 2 []
    let s := queued [w]
    let u := queued [r]
    s.hibWorks 0 1 = some w ∧ w.next + 64 ≤ w.len ∧ (w.dev + w.next) % 64 = 0 ∧ s.hibAttached = true ∧
    (bytesOf ((s.toChip.hostGet w.tint (w.host + w.next) 64).hibWrite w.target w.key w.tint (w.dev + w.next)
      (List.replicate 64 0#8) false).1).isSome = true ∧
    u.hibWorks 0 2 = some r ∧ r.next < r.len ∧ u.hibAttached = true ∧ (r.dev + r.next) % 256 + (r.len - r.next) ≤ 256 ∧
    (bytesOf (u.toChip.hibRead r.target r.key r.tint (r.dev + r.next) (r.len - r.next) false).1).isSome = true ∧
    (u.bay r.target).keyFor r.key r.tint = some (7#512) ∧ SMap.get none (u.bay r.target).lineKey 0 = some (7#512) ∧
    (queued [ld]).hibWorks 0 3 = some ld ∧ ld.len ≠ 0 ∧
    (queued [ld]).hibAttached = true ∧ ld.next < ld.packets ∧ 64 = min ld.pkt (ld.len - ld.next * ld.pkt) ∧
    (queued [ld]).hibMayInject 14 = true ∧ (queued [fl]).hibWorks 0 4 = some fl ∧ (queued [fl]).hibAttached = true ∧
    fl.next = 0 ∧ (queued [fl]).hibMayInject 11 = true := by decide +kernel

theorem witness_hostPackets :
    let k (ptype n kind : Nat) : Packet := {
      destUnit := 0x13, srcUnit := 1, tint := 1, ptype, payload := leBytes 8 0x1000 ++ leBytes 4 n ++ leBytes 4 kind }
    let s (k : Packet) : State := { lit with link := { linkUp with arrived := [(5, k)] } }
    (s (k 2 4096 0)).link.arrived = [(5, k 2 4096 0)] ∧ (s (k 2 4096 0)).link.held = false ∧ (k 1 0 0).ptype ≤ 1 ∧
    (s (k 2 4096 0)).answerRoom 5 (k 2 4096 0) = true ∧ (s (k 1 0 0)).answerRoom 5 (k 1 0 0) = true ∧
    (k 1 0 0).data ≠ [] ∧ (k 1 0 0).data.length ≤ 8184 ∧ ({ payload := leBytes 8 0x1000 } : Packet).data = [] ∧
    8184 < ({ payload := List.replicate 8200 0#8 } : Packet).data.length ∧
    leNat (((k 2 4096 0).payload.drop 8).take 4) = 4096 ∧ leNat (((k 2 4096 0).payload.drop 12).take 1) = 0 ∧
    (let x : Cluster := ((queued []).cl 51)
     let o : Outstanding := ⟨1, 0, 14, 0, 0#64, 1, 1⟩
     let r : State := { queued [] with
       clusters := [(51, { x with router := { x.router with outstanding := [o] } })]
       link := { linkUp with reads := [(51, k 2 64 0)] } }
     let s0 := r.toChip.modLinkH fun l => { l with reads := l.reads.eraseIdx 0 }
     let a := s0.answerTo 51 (k 2 64 0) 3 (List.replicate 64 0#8)
     r.link.reads[0]? = some (51, k 2 64 0) ∧
     (match s0.carry a maxHops 51 with
      | .at s1 home 8 => s1.delivers home a && decide (answered (s1.router home).outstanding a = some o) && !s1.tooLate home o
      | _ => false) = true) := by decide +kernel

/-- HdmWindows: window 3 over 1 GiB of stack 24, committed, its last line in host bias. -/
theorem witness_hdm :
    let cfg := BitVec.ofNat 64 (2 ^ 8 + 2 ^ 24 + 2 ^ 40)
    let s (en : Bool) (busy : Option (Nat × Bool × Nat × Nat)) : State := { queued [] with
      link := { linkUp with
        cxlOn := true, biasBusy := busy, regs := [(Off.HL_WIN_CFG 3, cfg), (Off.HL_WIN_LIST 3 0, 24#64)]
        windows := [(3, { enable := en, committed := en })] } }
    let n := 2 ^ 30 - 1
    let x := (s true none).link.shape 3
    bit (1#64) 0 = true ∧ ((s false none).link.window 3).enable = false ∧ (s true none).memReaches 3 n = true ∧
    (s true none).link.memReqs = [] ∧
    biasKey 3 (n / 2 ^ 21) ∉ (s true none).link.deviceBias ∧
    (s true none).link.winPlace 3 (n / 64 * 64) = (24, 2 ^ 30 - 64) ∧
    (bytesOf ((s true none).toChip.hibRead 24 x.key x.tint (2 ^ 30 - 64) 64 true).1).isSome = true ∧
    (bytesOf ((s true none).toChip.hibWrite 24 x.key x.tint (2 ^ 30 - 64) (leBytes 64 0) true).1).isSome = true ∧
    ((s true none).bay 24).keyFor x.key x.tint = some (7#512) ∧
    SMap.get none ((s true none).bay 24).lineKey ((2 ^ 30 - 64) / 64) = some (7#512) ∧
    (let v := BitVec.ofNat 64 (3 + 8 + 511 * 2 ^ 12 + 2 ^ 32)
     fld v 0 2 = 3 ∧ bit v 3 = true ∧ bit v 2 = false ∧ 1 ≤ fld v 32 21 ∧
     fld v 12 20 + fld v 32 21 ≤ ((s true none).link.shape 3).regions) ∧ ((s true none).link.window 3).enable = true ∧
    (s true (some (3, true, 0, 512))).link.biasBusy = some (3, true, 0, 512) ∧
    (s true (some (3, true, 0, 512))).link.biasPending 3 0 512 = false := by decide +kernel

/-- RegisterAccess: SCRATCH of the DEV page and of a field's page, a page without supply. -/
theorem witness_registerAccess :
    State.reset.hibOn = true ∧ State.reset.regPlace 0x40 = .page .dev 0x40 ∧
    State.reset.regPlace 0x1000040 = .page (.field 0) 0x40 ∧ Reaches State.reset.toChip .dev ∧
    (4 ≠ 8 ∧ 0x44 % 8 ≠ 0) ∧ State.reset.reachable (.field 0) = false ∧ Reaches lit.toChip (.field 0) ∧ 0x40 % 8 = 0 ∧ 0x40 < bar2Base := by
  simp only [Reaches]; decide +kernel

theorem witness_pageControl :
    let s (c : Option Check) : State := withCl { page := { check := c } }
    (PageRef.cluster 0).ok = true ∧ (PageRef.cluster 4031).ok = true ∧ Reaches (s none).toChip (.cluster 0) ∧
    ((s none).page (.cluster 0)).enable = false ∧ ((s (some .enable)).page (.cluster 0)).check = some .enable ∧
    (s (some .enable)).enableWaits (.cluster 0) = false ∧ ((s (some .softReset)).page (.cluster 0)).check = some .softReset := by
  simp only [Reaches]; decide +kernel

theorem witness_mapTable :
    let s (m : Bool) : State := { withCl { lc := some 5, mapEn := m } with committed := [(5, some 0)] }
    Reaches (s true).toChip .hib ∧ (s true).physOf (767 / 128) = some 0 ∧ (s true).physOf (768 / 128) = none ∧ 768 < wmtSize ∧
    (let v := BitVec.ofNat 64 (2 ^ 16 + 4095)
     bit v 16 = true ∧ bit v 17 = false ∧ (s true).physOf (fld v 0 12) = none) ∧ (s true).wmtErr = [] ∧
    (let v := BitVec.ofNat 64 (2 ^ 17 + 5)
     bit v 16 = false ∧ bit v 17 = true ∧ (s true).physOf (fld v 0 12) = some 0) ∧
    ((s true).cl 0).mapEn = true ∧ ((s false).cl 0).mapEn = false := by
  simp only [Reaches]; decide +kernel

theorem witness_coreMap :
    let s (m : Bool) (r : CoreRun) : State := withCl { mapEn := m, cores := [(0, { run := r })] }
    Reaches (s true .stopped).toChip (.cluster 0) ∧ ((s false .stopped).cl 0).mapEn = false ∧
    ((s true .stopped).cl 0).mapEn = true ∧ ((s true .stopped).cl 0).anyRunning = false ∧
    ((s true .running).cl 0).anyRunning = true ∧ (s true .running).coreHeld 0 = false ∧
    ({ s true .running with module := { haltReg := true } } : State).coreHeld 0 = true ∧ Reaches (s true .stopped).toChip .dev ∧
    State.reset.bringup.eaveStarted = false ∧ ({ eaveStarted := true } : Bringup).eaveStarted = true := by
  simp only [Reaches]; decide +kernel

/-- GableCommands: a gable off, one quiet and one with a running core; a bay it may add as far as R501 compares no
power; a bay it may remove. -/
theorem witness_gable :
    let s (en : Bool) (r : CoreRun) : State := { withCl { cores := [(0, { run := r })] } with
      bays := [(0, { power := .lit, tint := 1 }), (1, { power := .shaded })]
      gables := [(1, { page := { enable := en, regs := [(Off.GB_BAYS 0, 1#64)] } })] }
    Reaches (s true .stopped).toChip (.gable 1) ∧ ((s false .stopped).gable 1).page.enable = false ∧
    ((s true .stopped).gable 1).page.enable = true ∧ (s true .stopped).sec.jobs = [] ∧ (s true .stopped).sec.swap = none ∧
    (s true .stopped).gableQuiet 1 = true ∧ (s true .running).gableQuiet 1 = false ∧
    ((s true .running).gable 1).dormant = false ∧ ((s true .stopped).gable 1).saving = false ∧
    ((s true .stopped).gable 1).restoring = false ∧
    (bit (0x201#64) 9 = true ∧ bit (0x201#64) 10 = false ∧ fld (0x201#64) 0 9 < 336) ∧
    1 ∉ (s true .stopped).gableCorr 1 ∧ 1 ∉ (s true .stopped).gableBays 1 ∧ (s true .stopped).bayFails 1 1 = [] ∧
    bit ((s true .stopped).reg (.gable 1) Off.GB_CFG) 0 = false ∧ (s true .stopped).module.inletHi = false ∧
    (bit (0x400#64) 9 = false ∧ bit (0x400#64) 10 = true) ∧ 0 ∈ (s true .stopped).gableBays 1 ∧ ((s true .stopped).bay 0).tint = 1 ∧
    (s true .stopped).bayBusy 0 = false := by
  simp only [Reaches]; decide +kernel

theorem witness_meters :
    let s (m : Meter) : State := { lit with
      link := linkUp, tk := { now := BitVec.ofNat 64 (3600 * billion + 5) }
      gables := [(64, { meter := m, page := { enable := true, regs := [(Off.GB_MR_CFG, 2#64)] } })] }
    let m : Meter := { isOpen := true, unwritten := [List.replicate 1024 0#8] }
    let e := (max m.tStart.toNat m.ringFreed.toNat / (m.interval * billion) + 1) * (m.interval * billion)
    ((s m).gable 64).meter = m ∧ (s m).meterFull 64 = false ∧ m.interval ≠ 0 ∧ e ≤ (s m).now.toNat ∧
    Reaches (s m).toChip .meter ∧ (let v := BitVec.ofNat 64 (64 + 128); fld v 0 7 = 64 ∧ bit v 7 = true) ∧
    (s m).link.held = false := by
  simp only [Reaches]; decide +kernel

/-! ### Power and heat -/

/-- A fold over `n` equal windows adds `n` times one of them. -/
theorem fit_replicate (w : MeasWindow) (n : Nat) (a : Nat × Nat × Nat × Nat) :
    (List.replicate n w).foldl (fun a w =>
      (a.1 + w.model, a.2.1 + 10 * w.meas, a.2.2.1 + w.model * w.model, a.2.2.2 + w.model * (10 * w.meas))) a =
    (a.1 + n * w.model, a.2.1 + n * (10 * w.meas), a.2.2.1 + n * (w.model * w.model), a.2.2.2 + n * (w.model * (10 * w.meas))) := by
  induction n generalizing a with
  | zero => simp
  | succ n ih => rw [List.replicate_succ, List.foldl_cons, ih]; simp only [Nat.succ_mul]; ext <;> simp <;> omega

theorem fold_replicate (f : Nat → Nat → Nat) (x : Nat) (h : ∀ a, f (f a x) x = f a x) (n a : Nat) :
    (List.replicate (n + 1) x).foldl f a = f a x := by
  induction n generalizing a with
  | zero => rfl
  | succ n ih => rw [List.replicate_succ, List.foldl_cons, ih, h]

/-- Two model sums in equal parts: `n + 1` windows at one model sum and measured power, as many at another. -/
def twoPowers (n m1 m2 : Nat) : List MeasWindow :=
  List.replicate (n + 1) ⟨99, 100, m1⟩ ++ List.replicate (n + 1) ⟨99, 200, m2⟩

/-- Bay 0, whose windows of the last 100 ms are `ws`. -/
def metered (ws : List MeasWindow) : State := { lit with
  tk := { now := 1000000#64 }
  fields := [(0, { running := true })]
  bays := [(0, { power := .lit, tint := 1, windows := ws })] }

theorem twoPowers_length (n m1 m2 : Nat) : (twoPowers n m1 m2).length = 2 * n + 2 := by simp [twoPowers]; omega

theorem metered_fit (ws : List MeasWindow) (h : ∀ x ∈ ws, x.win = 99) (hl : ws.length ≤ fitSize) :
    (metered ws).fitWindows 0 [] [] = ws := by
  have hb : ((metered ws).bay 0).windows = ws := rfl
  have hn : (metered ws).now.toNat = 1000000 := rfl
  have hf : ws.filter (fun x => decide (100 ≤ x.win + 10000)) = ws :=
    List.filter_eq_self.2 fun x hx => by rw [h x hx]; rfl
  simp only [Chip.fitWindows, hb, hn]
  rw [show (1000000 / 10000 : Nat) = 100 from rfl, hf, List.zipWith_nil_left, List.append_nil, List.take_of_length_le hl]

theorem twoPowers_win (n m1 m2 : Nat) : ∀ x ∈ twoPowers n m1 m2, x.win = 99 := by
  intro x hx
  rcases List.mem_append.1 hx with h | h <;> rw [List.eq_of_mem_replicate h]

theorem twoPowers_sums (n m1 m2 : Nat) : fitSums (twoPowers n m1 m2) =
    ((n + 1) * m1 + (n + 1) * m2, (n + 1) * 1000 + (n + 1) * 2000, (n + 1) * (m1 * m1) + (n + 1) * (m2 * m2),
     (n + 1) * (m1 * 1000) + (n + 1) * (m2 * 2000)) := by
  simp only [fitSums, twoPowers, List.foldl_append, fit_replicate, Nat.zero_add]

theorem twoPowers_spread (n m1 m2 : Nat) (h : m1 ≤ m2) : spreadOk (twoPowers n m1 m2) =
    decide (2 * ((n + 1) * m1 + (n + 1) * m2) ≤ (m2 - m1) * 100 * (2 * n + 2)) := by
  have hm : (twoPowers n m1 m2).map (·.model) = List.replicate (n + 1) m1 ++ List.replicate (n + 1) m2 := by simp [twoPowers]
  simp only [spreadOk, twoPowers_sums, twoPowers_length, hm, List.foldl_append]
  rw [fold_replicate max m1 (by intro a; omega), fold_replicate max m2 (by intro a; omega),
    fold_replicate min m1 (by intro a; omega), fold_replicate min m2 (by intro a; omega)]
  have h0 : (List.replicate (n + 1) m1 ++ List.replicate (n + 1) m2).headD 0 = m1 := rfl
  rw [h0, show max (max 0 m1) m2 = m2 by omega, show min (min m1 m1) m2 = m1 by omega]

/-- PowerAndClocks: a fit over the 10,000 windows that is accepted, one whose model values do not spread, and too few
windows. -/
theorem witness_power :
    let s (m2 : Nat) := metered (twoPowers 4999 1000 m2)
    let ws (m2 : Nat) := (s m2).fitWindows 0 [] []
    let x := fitSums (ws 2000)
    let den : Int := ((ws 2000).length * x.2.2.1 : Nat) - (x.1 * x.1 : Nat)
    let num : Int := ((ws 2000).length * x.2.2.2 : Nat) - (x.1 * x.2.1 : Nat)
    (s 2000).bayOk 0 = true ∧ ((s 2000).bay 0).tint = 1 ∧ (s 2000).dispatcher (bayField 0) ≠ none ∧
    10000 ≤ (ws 2000).length ∧ spreadOk (ws 2000) = true ∧ 0 < den ∧ 4 * den ≤ 5 * num ∧ 4 * num ≤ 5 * den ∧
    10000 ≤ (ws 1000).length ∧ spreadOk (ws 1000) = false ∧ ((metered []).fitWindows 0 [1] [1]).length < 10000 := by
  intro s ws
  have hw (m2 : Nat) : ws m2 = twoPowers 4999 1000 m2 :=
    metered_fit _ (twoPowers_win _ _ _) (by rw [twoPowers_length]; decide)
  have ha : (s 2000).bayOk 0 = true := rfl
  have hb : ((s 2000).bay 0).tint = 1 := rfl
  have hd : (s 2000).dispatcher (bayField 0) = some 0 := rfl
  have hx := twoPowers_sums 4999 1000 2000
  have hl := twoPowers_length 4999 1000
  have hs := twoPowers_spread 4999 1000
  rw [hw, hw]
  generalize twoPowers 4999 1000 = two at *
  simp only [hx, hl, hs 2000 (by omega), hs 1000 (by omega), ha, hb, hd]
  decide +kernel

/-- PowerAndClocks: a meter that counts now, and a bay of tint 0; a fit whose windows have begun. -/
theorem witness_estimates :
    let m : Meter := { isOpen := true, interval := 60 }
    let s (f : Option (Nat × Nat × Int)) : State := { metered [] with bays := [(0, { power := .lit, nextFit := f })] }
    m.isOpen = true ∧ m.periodsOver (s none).now.toNat false = 0 ∧ ((s none).bay 0).tint = 0 ∧
    ((s none).bay 0).nextFit = none ∧ ((s (some (998, 4096, 0))).bay 0).nextFit = some (998, 4096, 0) ∧
    998 ≤ (s none).lastWindow := by decide +kernel

/-- CappedClocks: an ACTIVE gable in each mode, with an estimate within and above its allotment, and a hint whose
window is over. -/
theorem witness_capped :
    let s (mode model : Nat) : State := { lit with
      tk := { now := 30000#64 }
      bays := [(0, { power := .lit, tint := 1, model })]
      clusters := [(0, { dueHints := [(7, 10000#64)] })]
      gables := [(1, { target := 2000, page := { enable := true, regs := SMap.set 0#64 (SMap.set 0#64 [(Off.GB_BAYS 0, 1#64)] Off.GB_CFG (BitVec.ofNat 64 mode)) Off.GB_ALLOT 5#64 } })] }
    ((s 2 0).gable 1).active = true ∧ (s 2 0).gableOpp 1 = true ∧ (s 0 0).gableOpp 1 = false ∧
    (((s 0 0).gableClusters 1).find? fun c => ((s 0 0).cl c).dueHints.any
      fun p => p.1 = 7 && decide (p.2.toNat + 20000 ≤ (s 0 0).now.toNat)) = some 0 ∧
    ((s 2 0).gable 1).oppWin ≠ (s 2 0).now.toNat / 1000 + 1 ∧ ((s 0 0).gable 1).odWin ≠ (s 0 0).now.toNat / 1000 + 1 ∧
    ((s 2 100).gable 1).target = 2000 ∧
    (s 0 0).gableEst 1 ≤ (s 0 0).allot 1 * 65536 ∧ ((s 0 100).allot 1 * 65536 : Nat) < (s 0 100).gableEst 1 := by decide +kernel

theorem witness_arming :
    let h : Hint := ⟨700#64, 100, 3⟩
    let s (armed arming : Bool) : State := { lit with
      tk := { now := 10000#64 }
      bays := [(0, { power := .lit, tint := 1, armed, arming })]
      clusters := [(0, { hints := [h] })] }
    ((bayClusters 0).find? fun k => ((s false false).cl k).hints.any
      fun h => decide (h.due ≤ ((s false false).clTime k).toNat + 800)) = some 0 ∧
    ((s false false).cl 0).hints.find? (fun h => decide (h.due ≤ ((s false false).clTime 0).toNat + 800)) = some h ∧
    ((s false false).bay 0).armed = false ∧ ((s false true).bay 0).arming = true ∧
    800 ≤ ((s false true).now - ((s false true).bay 0).armingAt).toNat ∧ ((s true false).bay 0).armed = true ∧
    10000 ≤ ((s true false).now - ((s true false).bay 0).armedAt).toNat ∧ (bayClusters 0).any (s true false).busyLately = false := by
  decide +kernel

/-- ArmingAndHeat: a bay below its clusters' level, one at it with a hot sensor, one that has been cool, and a gable
whose estimates are low. -/
theorem witness_heat :
    let s (level temp : Nat) : State := { withCl { stretch := 4, temp } with
      tk := { now := 2000000#64 }, fields := [(0, { running := true })]
      bays := [(0, { power := .lit, tint := 1, level })] }
    (s 0 0).bayOk (clBay 0) = true ∧ (s 0 0).guarded (bayField 0) = true ∧ ((s 0 0).bay 0).level < (s 0 0).topStretch 0 ∧
    (s 5 800).topStretch 0 ≤ ((s 5 800).bay 0).level ∧ ((s 5 800).bay 0).level ≠ 0 ∧
    ((bayClusters 0).any fun cl => ((s 5 800).cl cl).temp ≥ 800) = true ∧
    100000 ≤ ((s 5 800).now - ((s 5 800).bay 0).levelAt).toNat ∧ (List.replicate 12 759).length = 12 ∧
    (List.replicate 12 759).all (· < 760) = true ∧ 1000000 ≤ ((s 5 0).now - ((s 5 0).bay 0).hotAt).toNat ∧
    1000000 ≤ ((s 5 0).now - ((s 5 0).bay 0).levelAt).toNat ∧ ((s 5 0).bay 0).tint ≠ 0 ∧ (s 5 0).drawLow 1 = true ∧
    100000 ≤ ((s 5 0).now - ((s 5 0).gable 1).odAt).toNat := by decide +kernel

theorem witness_latch :
    let s (p : BayPower) : State := { lit with bays := [(0, { power := p, tint := 1 })], fields := [(0, { running := true })] }
    let r (p : BayPower) : State := { State.reset with bays := [(0, { power := p })] }
    ((s .lit).bay 0).supplied = true ∧ (s .lit).powered = true ∧ clBay 0 = 0 ∧ (s .lit).guarded (clField 0) = true ∧
    Reaches (r .latched).toChip .power ∧ fld ((r .latched).reg .power Off.PW_BSEL) 0 9 = 0 ∧ (r .latched).bayHeld 0 = false ∧
    ((r .latched).bay 0).power = .latched ∧ ((r .latchedHard).bay 0).power = .latchedHard := by
  simp only [Reaches]; decide +kernel

/-- LatchCoolantAndInput, the readings: in Dark and not, an input in range and one out of it since the instant 0, for
less than 1 ms and for 1 ms; a bay that is wanted Lit and one that is not. -/
theorem witness_readings :
    let d : State := { State.reset with module := { dark := true } }
    let s (now : Nat) : State := { State.reset with tk := { now := BitVec.ofNat 64 now }, module := { inputBad := some 0#64 } }
    State.reset.module.standby = true ∧ State.reset.module.dark = false ∧ d.module.standby = true ∧ d.module.dark = true ∧
    State.reset.module.inputBad = none ∧ (s 5).module.inputBad = some 0#64 ∧ (6999 < 7000 ∧ 6500 ≤ 6999) ∧
    1000000 ≤ ((s 1000000).now - 0#64).toNat ∧ ((s 5).now - 0#64).toNat < 1000000 ∧ (6499 < 6500 ∧ 9000 < 9001) ∧
    (3001 > 3000 ∧ 4001 > 4000) ∧ State.reset.module.inlet.getD 0 ≤ 4000 ∧ lit.wantsLit 0 = true ∧ lit.wantsLit 5 = false := by
  decide +kernel

theorem witness_dark :
    let s : State := { State.reset with
      module := { dark := true, inlet := some 3001 }, powerPage := { regs := [(Off.PW_DARK, 4#64)] } }
    Reaches State.reset.toChip .power ∧ bit (1#64) 0 = true ∧ (∀ p ∈ State.reset.gables, p.2.page.enable = false) ∧
    (∃ p ∈ lit.gables, p.2.page.enable = true) ∧ s.module.standby = true ∧ s.wakeCause ≠ 0 := by
  simp only [Reaches]; decide +kernel

/-! ### Bring-up, resets, field controllers -/

/-- Bring-up before step `n`, with all the steps before it done. -/
def beforeStep (n : Nat) : State := { lit with
  link := linkUp, bringup := { done := BitVec.ofNat 64 (2 ^ n - 1), record := {} } }

theorem witness_steps_admitted : ∀ n ≤ 11, StepAdmitted (beforeStep n).toChip n := by
  simp only [StepAdmitted, Reaches]; decide +kernel

theorem witness_bringup :
    let b := beforeStep 9
    b.module.inletHi = false ∧ b.powered = true ∧ b.link.up = true ∧ b.link.cxl = true ∧ 4 ≤ b.link.width ∧ 3 ≤ b.link.speed ∧
    fld b.link.cfg 0 5 ≤ b.link.width ∧ fld b.link.cfg 8 3 ≤ b.link.speed ∧ bit b.link.cfg 16 = false ∧
    ({ fastOk := true } : Bringup).fastOk = true ∧ (beforeStep 7).bringup.imageSigned = true ∧
    (beforeStep 7).sec.ctrOk = true ∧ ({ beforeStep 7 with sec := { ctrOk := false } } : State).sec.ctrOk = false ∧
    (beforeStep 3).bringup.lastReset ≠ 2 ∧ (beforeStep 7).sec.counters.getD 1 0 ≤ (beforeStep 7).bringup.svnHeld ∧ (beforeStep 3).recordFail = none ∧
    ({ beforeStep 3 with bringup := { record := { sigOk := false } } } : State).recordFail = some 5 ∧
    (let r (n : Nat) (st : BuState) : State := { beforeStep n with bringup := { done := BitVec.ofNat 64 (2 ^ n - 1), step := n, state := st } }
     (r 8 .running).bringup.state = .running ∧ (r 8 .running).stepHeld = false ∧ (r 8 .running).bringup.coldStacks = true ∧
     (r 9 .running).bringup.found = none ∧ (r 5 .opened).bringup.step = 5 ∧ (r 5 .opened).bringup.state = .opened) := by decide +kernel

theorem witness_resets :
    let s (g : Gable) : State := { lit with gables := [(1, g)] }
    Reaches (s {}).toChip .bringup ∧ ((s {}).gable 1).page.enable = false ∧
    ((s { page := { enable := true } }).gable 1).page.enable = true ∧
    ((s { page := { enable := true }, dormant := true }).gable 1).dormant = true ∧
    ((s { resetting := true }).gable 1).resetting = true := by
  simp only [Reaches]; decide +kernel

theorem witness_bayTest :
    let s (p : BayPower) (b : Option Nat) : State := { lit with
      bays := [(335, { power := p })], bringup := { testBay := b } }
    let h : State := { lit with
      gables := [(1, { page := { enable := true, regs := [(Off.GB_BAYS 5, 1#64 <<< 15)] } })] }
    let v := BitVec.ofNat 64 (335 + 512)
    Reaches (s .shaded none).toChip .bringup ∧ (s .shaded none).bringup.testBay = none ∧ bit v 9 = true ∧ fld v 0 9 = 335 ∧
    (s .shaded none).bayHeld 335 = false ∧ ((s .shaded none).bay 335).power = .shaded ∧
    ((s .unlit none).bay 335).power ≠ .shaded ∧ h.bayHeld 335 = true ∧
    (s .shaded (some 335)).bayOk 335 = true := by
  simp only [Reaches]; decide +kernel

theorem witness_image :
    let s (st : BuState) : State := { withCl { lc := some 5, router := { up := true, valid0 := true, route := [(1, 0x110000#64)] } } with
      bringup := { state := st, step := 7, done := 0x80#64 }, fields := [(0, { running := true })] }
    Reaches (s .idle).toChip .bringup ∧ (s .idle).imgHeld = false ∧ (s .running).imgHeld = true ∧ (s .idle).stepDone 7 = true ∧
    ((s .idle).cl 0).lc = some 5 ∧ ((s .idle).cl 0).microcodeOk = false ∧ (s .idle).bayOk (clBay 0) = true ∧
    ((s .idle).field (clField 0)).running = true ∧ ((s .idle).sendMicrocode 5 0).2 = true := by
  simp only [Reaches]; decide +kernel

theorem witness_fields :
    let s (cov : Bool) : State := { lit with fields := [(0, { running := true }), (1, { covering := cov }), (2, { restarting := true })] }
    (s true).reachable (.field 0) = true ∧ ((s true).field 0).running = true ∧ partner 0 = 1 ∧ Reaches (s true).toChip (.field 0) ∧
    ((s true).field (partner 0)).covering = true ∧ ((s false).field (partner 0)).covering = false ∧
    ((s true).field 2).restarting = true ∧ (s true).module.standby = true := by
  simp only [Reaches]; decide +kernel

/-! ### Security, errors, patrols, marks, management -/

theorem witness_counters :
    let s (x : Sec) : State := { lit with sec := x, bringup := { verifiedSvn := 9 } }
    let v (x : Nat) := BitVec.ofNat 64 (x * 2 ^ 32 + 256)
    Reaches (s {}).toChip .sec ∧ bit (v 9) 8 = true ∧ (s { ctrOk := false }).sec.ctrOk = false ∧ (s {}).sec.ctrOk = true ∧
    (s {}).ctrLimit (fld (v 9) 0 4) = some 9 ∧ (s {}).sec.counters.getD (fld (v 9) 0 4) 0 ≤ fld (v 9) 32 32 ∧ fld (v 9) 32 32 ≤ 9 ∧
    9 < fld (v 10) 32 32 ∧ bit (0x81#64) 7 = true ∧ (s { reportBusy := true }).sec.reportBusy = true ∧
    (s { keyReady := true }).sec.keyReady = true ∧ ((s {}).gable 1).page.enable = true ∧ ((s {}).gable 64).page.enable = false := by
  simp only [Reaches]; decide +kernel

theorem witness_keys :
    let s (x : Sec) : State := { lit with sec := x }
    Reaches (s {}).toChip .sec ∧ (s {}).sec.keyBusy = false ∧ (s { keyReady := true }).sec.keyReady = true ∧
    (bit (BitVec.ofNat 64 (2 ^ 24)) 24 = true ∧ bit (BitVec.ofNat 64 (2 ^ 24)) 25 = false) ∧
    (let v := BitVec.ofNat 64 (2 ^ 25 + 1 + 63 * 4)
     bit v 25 = true ∧ bit v 24 = false ∧ keyTarget v = 1 ∧ keySlot v = 63) ∧
    keyTarget (BitVec.ofNat 64 (2 ^ 25 + 2)) = 2 ∧ keySlot (BitVec.ofNat 64 (2 ^ 25 + 1)) = 0 ∧
    (s { swap := some (5, 1, 7#512, [0]) }).sec.swap = some (5, 1, 7#512, [0]) ∧ (s {}).bayOk 0 = true := by
  simp only [Reaches]; decide +kernel

theorem witness_signing :
    let s (f : Bool) : State := { lit with sec := { keyReady := true, rngFailed := f, jobs := [.report [1#8], .keyLoad 0#64 [] 0#4096] } }
    (s false).sec.keyReady = true ∧ (s false).module.standby = true ∧
    ((s false).sec.jobs.find? fun j => !(j.salted && (s false).sec.rngFailed)) = some (.report [1#8]) ∧
    ((s true).sec.jobs.find? fun j => !(j.salted && (s true).sec.rngFailed)) = some (.keyLoad 0#64 [] 0#4096) := by decide +kernel

theorem witness_spdm :
    let s (x : Sec) : State := { lit with sec := x, link := linkUp }
    let x : Sec := { keyReady := true, negotiated := true, sessions := [(1, false), (2, true)] }
    (s x).doeOn = true ∧ (s x).link.held = false ∧ (s {}).sec.keyReady = false ∧
    (s { keyReady := true }).sec.negotiated = false ∧ (s x).sec.keyReady = true ∧ (s x).sec.negotiated = true ∧
    0 ≤ (s x).bringup.record.chain.length ∧ ((s x).measurement 2).isSome = true ∧ (s x).sec.sessions.length < 4 ∧
    4 ≤ (s { x with sessions := [(1, true), (2, true), (3, true), (4, true)] }).sec.sessions.length ∧
    (1, false) ∈ (s x).sec.sessions ∧ (2, true) ∈ (s x).sec.sessions ∧ (3, false) ∉ (s x).sec.sessions ∧
    (3, true) ∉ (s x).sec.sessions := by decide +kernel

theorem witness_errors :
    let s (cfg : Nat) (c : ErrClass) : State := { withCl { page := { reports := [{ bit := 2, cls := c, time := 5#64, tint := 1 }] } } with
      link := { linkUp with msix := (List.range 80).map fun i => (2 * (errorVector 1 + i - 40) + 1, 0#64) }
      fields := [(0, { running := true, page := { regs := [(Off.FC_ERR_CFG, BitVec.ofNat 64 cfg)] } })]
      gables := [(1, { step := .running, page := { enable := true } })] }
    let r : Report := { bit := 2, cls := .contained, time := 5#64, tint := 1 }
    (PageRef.cluster 0).ok = true ∧ ((s 0x14 .contained).page (.cluster 0)).reports[0]? = some r ∧ (s 0x14 .contained).hibOn = true ∧
    ringField (.cluster 0) = 0 ∧ ((s 0x14 .contained).field 0).running = true ∧ (s 0x14 .contained).errRingShut 0 = false ∧
    (s 4 .contained).errRingShut 0 = true ∧ (s 4 .contained).link.held = false ∧
    (s 4 .contained).link.vecMasked (errVector r 0) = false ∧ r.tint ≠ 0 ∧ ((s 4 .contained).gable 1).step = .running := by
  decide +kernel

theorem witness_patrols :
    let s (e : Option Bool) : State := { withCl { patrolRow := 6143, storeErr := [(256 * 6143, e)], router := { links := [(7, { state := .up })] } } with
      fields := [(0, { running := true })]
      bays := [(0, { power := .lit, tint := 1, memPage := { regs := [(Off.BM_CFG, 1#64)] } })] }
    (s none).powered = true ∧ ((s none).dispatcher (clField 0)).isSome = true ∧ ((s none).dispatcher (bayField 0)).isSome = true ∧ ((s none).bay (clBay 0)).power = .lit ∧
    (((s (some true)).cl 0).storeScan (256 * 6143) (256 * 6143 + 256)).2 = true ∧
    (((s (some false)).cl 0).storeScan (256 * 6143) (256 * 6143 + 256)).2 = false ∧
    bit ((s none).reg (.baymem 0) Off.BM_CFG) 0 = true ∧ (s none).bayOk (clBay 0) = true ∧
    (((s none).router 0).link 7).state = .up ∧ SMap.get none (((s none).router 0).link 7).spares (wireGroup 1087) = none := by decide +kernel

theorem witness_aging :
    let x : Cluster := { slowdown := 20 }
    lit.bayOk (clBay 0) = true ∧ lit.wearFull = false ∧
    (({ lit with fields := [(0, { running := true })] } : State).dispatcher (clField 0)).isSome = true ∧
    ((x.slowdown + 5 ≤ 15 ∨ 15 + 5 ≤ x.slowdown) ∧ ¬ 15 * (x.vminRaises + x.vminDue + 1) < 15) ∧
    (¬ (x.slowdown + 5 ≤ 24 ∨ 24 + 5 ≤ x.slowdown) ∧ 15 * (x.vminRaises + x.vminDue + 1) < 24) ∧
    (let y : Cluster := { slowdown := 12 }
     ¬ (y.slowdown + 5 ≤ 15 ∨ 15 + 5 ≤ y.slowdown) ∧ ¬ 15 * (y.vminRaises + y.vminDue + 1) < 15) ∧
    Reaches lit.toChip (.field 0) ∧ (lit.field 0).marking = none ∧ bit (BitVec.ofNat 64 (2 ^ 25)) 25 = true ∧
    ({ marking := some 0#64 } : Field).marking = some 0#64 := by
  simp only [Reaches]; decide +kernel

theorem witness_mctp :
    lit.mctpAnswers = true ∧ (1 ≤ 1 ∧ 1 ≤ 254 ∧ 254 < 255) ∧ 0x6FF8 % 8 = 0 ∧ 0x6FF8 + 8 * 1 ≤ 0x7000 ∧ 0x7000 < 0x6FF8 + 8 * 2 ∧
    (lit.page (mctpPage 0x6FF8)).check = none ∧ (lit.page (mctpPage 0)).check = none ∧ lit.module.standby = true ∧
    lit.powered = true ∧ lit.module.tapTakes = false := by decide +kernel

/-! ### Ill-formed commands: one for every check of `Instr.wf` -/

theorem test_wf_refuses : ([
    .nop 4032 0 0#56, .nop 0 136 0#56, .coreRun 4032 0#64, .weaveItemSend 0 4096, .weaveItemSend 4032 0,
    .steeringFire 0 32, .sfuFire 0 16, .storePortAccess 0 8 [0], .meshPortPacketClose 0 4, .dmaTailWrite 0 2 0 0#64,
    .dmaTailWrite 0 0 4 0#64, .slotEnable 0 16 0#64, .retireGo 336 0#64, .walkerReadResp 0 16, .walkerReadResp 336 0,
    .atsCompletion 0 5 0 ⟨none, 12, false, false⟩, .atsCompletion 0 0 4 ⟨none, 12, false, false⟩,
    .atsInvalidateRequest 0 0 12, .atsInvalidateRequest 65 0 12, .resume 0 5 0#64, .packetHop 0 11, .flitReplay 0 8,
    .copyComplete 1 1024 false, .copyComplete 0 0 false, .linkLockLoss 32 0, .linkLockLoss 0 2, .pfcFrameReceive 0 8 0,
    .ackDelayExpire 0 512, .evPostWrite 0 8 0#64, .sqDoorbell 65 0 0#64, .sqDoorbell 0 64 0#64, .sqDoorbell 1 8 0#64,
    .cxlMemRead 4 0, .functionLevelReset 65, .msixUnmask 0 2048, .msixUnmask 1 64, .registerWrite 72482816 8 0#64,
    .registerWrite 0 0 0#64, .registerWrite 0 9 0#64, .rcRead ⟨72482816, 8⟩, .rcRead ⟨0, 0⟩, .rcRead ⟨0, 9⟩, .enableWrite (.gable 0), .enableWrite (.gable 65),
    .enableWrite (.eave 32), .enableWrite (.field 84), .enableWrite (.bay 336), .enableWrite (.dma 0 2),
    .enableWrite (.ctu 4032), .windowSelect 16 0#64, .wmtEntryWrite 524288 0#64, .fcHeartbeat 84] : List Instr).all
      (fun c => !c.wf) = true := by decide +kernel

theorem test_wf_admits : ([
    .nop 4031 135 0#56, .weaveItemSend 4031 4095, .dmaTailWrite 4031 1 3 0#64, .walkerReadResp 335 15,
    .atsInvalidateRequest 64 0 12, .sqDoorbell 64 7 0#64, .sqDoorbell 0 63 0#64, .msixUnmask 64 63, .rcRead ⟨72482815, 1⟩,
    .enableWrite (.gable 64), .wmtEntryWrite 524287 0#64, .haltNFall] : List Instr).all (fun c => c.wf) = true := by decide +kernel

/-! ### Values of the specification's worked examples -/

/-- The engine after a command. -/
def after (s : State) (c : Instr) : State :=
  match step { s with pending := [c] } with
  | .next t => t
  | _ => s

/-- R17 to R20: physical cluster (53, 20). -/
theorem test_places : clField (clAt 53 20) = 42 ∧ clBay (clAt 53 20) = 169 ∧ clJ (clAt 53 20) = 9 := by decide +kernel

/-- FP32 to FP4, the table after R60: 2.6, 2.5, 5.0, 0.25, 0.3, 6.9, 7.0 and 7.2. -/
theorem test_fp4_rounding :
    ([0x40266666, 0x40200000, 0x40A00000, 0x3E800000, 0x3E99999A, 0x40DCCCCD, 0x40E00000, 0x40E66666] : List Nat).map
      (fun x => (e2m1F.encodeNarrow true none (fp32F.decode x)).1) = [5, 4, 6, 0, 1, 7, 7, 7] := by decide +kernel

/-- The stochastic example: 2.6 with r = 0x7000 and r = 0x6000. -/
theorem test_fp4_stochastic :
    (e2m1F.encodeNarrow true (some 0x7000) (fp32F.decode 0x40266666)).1 = 5 ∧
    (e2m1F.encodeNarrow true (some 0x6000) (fp32F.decode 0x40266666)).1 = 4 := by decide +kernel

/-- The MXFP4 block of 20.0, -1.3, 0.6, 7.0. -/
theorem test_mxfp4_block :
    (blockEncode 0xC false [] (([0x41A00000, 0xBFA66666, 0x3F19999A, 0x40E00000] ++ List.replicate 28 0).map fp32F.decode)).1 =
      [0x96#8, 0x40#8] ++ List.replicate 14 0#8 ++ [0x81#8] := by decide +kernel

/-- The Shingle-2 group: 0.125, -0.125, 0, 2.5, 0.125, then a second 0b10 that reads 0 and marks the group. -/
theorem test_shingle_group :
    let r := blockValues 0xE ([0x8D#8, 0xC9#8] ++ List.replicate 6 0#8 ++ [0x7C#8, 0x5A#8])
    r.2 = true ∧ (r.1.take 6).map (fun x => (fpRound x).1) =
      [0x3E000000#32, 0xBE000000#32, 0#32, 0x40200000#32, 0x3E000000#32, 0#32] := by decide +kernel

/-- The accumulation 2^24 + 1 + 1 in FP32 is 2^24; in the other order 2 + 2^24 is 2^24 + 2. -/
theorem test_fp32_order :
    (fpAdd (fpAdd 0x4B800000#32 0x3F800000#32).1 0x3F800000#32).1 = 0x4B800000#32 ∧
    (fpAdd 0x40000000#32 0x4B800000#32).1 = 0x4B800001#32 := by decide +kernel

/-- 2^100 + 1 - 2^100 is 1 in a valley: V = 2^298. -/
theorem test_valley :
    let v := ((({} : Valley).addTerm (.fin false 1 100) false).1.addTerm (.fin false 1 0) false).1.addTerm (.fin true 1 100) false
    v.1.v = BitVec.ofNat 640 (2 ^ 298) ∧ v.1.toFp32.1 = 0x3F800000#32 := by decide +kernel

/-- QUANT and DEQUANT under SCALE_EXP = -20: 3.7, -1.0, 0.5, and 17.0, which saturates and misses the scale. -/
theorem test_integer_path :
    ([0x406CCCCD, 0xBF800000, 0x3F000000, 0x41880000] : List Nat).map (fun x => quantLane (-20) (fp32F.decode x)) =
      [(3879731, false), (-1048576, false), (524288, false), (16777215, true)] ∧
    (laneOp 0x03 (-20) 3355443 0).1 = 0x404CCCCC := by decide +kernel

/-- The stored size of an MXFP4 tile of 45 and of 46 blocks and of a Shingle-2 tile of 40. -/
theorem test_tile_forms :
    packedForm 0xC (2 ^ 45 - 1) = true ∧ 16 + 45 * tileP 0xC = 8656 ∧ packedForm 0xC (2 ^ 46 - 1) = false ∧
    16 + tileD 0xC = 8720 ∧ 16 + 512 * tileE 0xC = 8208 ∧ packedForm 0xE (2 ^ 40 - 1) = false := by decide +kernel

/-- The walk of VA 0x12_3456_789A_BCDE: its entries, and the leaf 0x0040_0200_002B_003F. -/
theorem test_walk :
    let ix (l : Nat) := bits 0x123456789ABCDE (levelBits l).1 (levelBits l).2
    0x100000 + 8 * ix 3 = 0x101230 ∧ 0x200000 + 8 * ix 2 = 0x208AC8 ∧ 0x300000 + 8 * ix 1 = 0x300E20 ∧
    (match walkStep 0x00400200002B003F#64 1 0x123456789ABCDE (fun b => b = 43) (fun b k => b = 43 && k = 3) with
     | .leaf e => decide (e.stack = 43 ∧ e.log2 = 21 ∧ e.key = 3 ∧ e.offset = 0x400200000 ∧
         e.offset + (0x123456789ABCDE - e.va) = 0x4003ABCDE)
     | _ => false) = true := by decide +kernel

/-- The skylight pass of eight blocks: its slots and counts. -/
theorem test_skylight_slots :
    let k (b : Nat) (cert cand : Bool) (m : Nat) : SkyBlock := ⟨b, cert, cand, .fin false m 0⟩
    let r := skyAllot 2 2 [k 0 false true 20, k 1 true false 8, k 2 false false 24, k 3 true false 10, k 4 false true 16,
      k 5 false true 12, k 6 false false 36, k 7 false false 20]
    r.active = [0, 4] ∧ r.made = [6, 2] ∧ r.doubtful = 4 ∧ r.lost = 2 ∧ r.certain = 2 ∧
    skyBytes 0 2 2 8 r = [0#8, 0#8, 4#8, 0#8, 6#8, 0#8, 2#8, 0#8] ++ List.replicate 56 0#8 ++
      [0x55#8, 0#8, 0#8, 0#8, 0#8, 0#8, 0#8, 0#8, 4#8, 0#8, 2#8, 0#8, 2#8, 0#8, 2#8, 0#8] ++ List.replicate 48 0#8 := by decide +kernel

/-- The stalls of 252,000 cycles under 140,000 THERMAL, 84,000 FABRIC and 56,000 HINTMISS, and of 5,000 more. -/
theorem test_stalls :
    nominal 3000000 2800 = 8400000 ∧
    chargeStalls [0, 0, 140000, 84000, 56000, 0] 252000 false = [0, 0, 140000, 84000, 28000, 0] ∧
    chargeStalls [0, 0, 10000, 0, 0, 0] 15000 false = [0, 0, 15000, 0, 0, 0] := by decide +kernel

/-- Flag f5 over the example's cycles 100 to 105, and the overrun of a set beyond 15. -/
theorem test_flag_example :
    let set (c : Core) := c.applySet 5
    let clear (c : Core) := c.applyClear 5
    let a := set (set {})
    a.flag 5 = { isSet := true, count := 1 } ∧ (clear (clear a)).flag 5 = {} ∧
    (clear (clear (clear a))).fstat ≠ 0#64 ∧ (clear (set {})).fstat = 0#64 ∧
    ((List.range 16).foldl (fun c _ => set c) {}).flag 5 = { isSet := true, count := 15 } ∧
    (set ((List.range 16).foldl (fun c _ => set c) {})).flag 5 = { isSet := true, count := 15 } := by decide +kernel

/-- Window offset 0x1_2345_6789 of a window of stacks 168 to 179 from 32 GiB, 16 GiB each. -/
theorem test_window_place :
    let list : SMap W := (List.range 12).foldl (fun m i =>
      SMap.upd 0#64 m (Off.HL_WIN_LIST 1 (i / 4)) fun v => v ||| BitVec.ofNat 64 ((168 + i) * 2 ^ (16 * (i % 4)))) []
    let cfg : W := BitVec.ofNat 64 (12 * 2 ^ 24 + 32 * 2 ^ 32 + 16 * 2 ^ 40)
    let l : HostLink := { regs := SMap.set 0#64 list (Off.HL_WIN_CFG 1) cfg }
    l.winPlace 1 0x123456789 = (174, 0x81845C789) ∧ 0x123456789 / 2 ^ 21 = 2330 := by decide +kernel

/-- IDCODE of stepping 1. -/
theorem test_idcode : (after State.reset .idcode).out = [.tdo 32 0x1D201B47] := by decide +kernel

/-! ### Single steps -/

/-- Core `c` after its instruction `op` with operands `w`, whose word lies at its PC. -/
def ran (code : Nat) (op : Nat → Nat → BitVec 56 → Instr) (w : BitVec 56) (c : Core) : Core :=
  (after (withCore { c with lm := Memory.write c.lm c.pc.toNat (leBytes 8 (code * 2 ^ 56 + w.toNat)) }) (op 0 0 w)).core 0 0

/-- ADD wraps modulo 2^32; the PC moves 8 on. -/
theorem test_add_wraps :
    let c := ran 0x00 Instr.add (word 3 1 2 0 0 0 0) { s := [(1, 0xFFFFFFFF#32), (2, 3#32)] }
    c.sreg 3 = 2#32 ∧ c.pc = 8#16 := by decide +kernel

/-- SRA keeps the sign where SHR does not; SLT compares signed, SLTU unsigned. -/
theorem test_signs :
    let r (code : Nat) (op : Nat → Nat → BitVec 56 → Instr) :=
      (ran code op (word 3 1 2 0 0 0 0) { s := [(1, 0x80000000#32), (2, 4#32)] }).sreg 3
    r 0x07 Instr.sra = 0xF8000000#32 ∧ r 0x06 Instr.shr = 0x08000000#32 ∧ r 0x08 Instr.slt = 1#32 ∧
    r 0x09 Instr.sltu = 0#32 := by decide +kernel

/-- A write of s0 leaves it 0 (R91). -/
theorem test_s0 : (ran 0x0E Instr.li (word 0 0 0 0 0 0 5) {}).sreg 0 = 0#32 := by decide +kernel

/-- LD.B extends with zeros; LD.W is little-endian; POSTINC moves the address register after the access. -/
theorem test_loads :
    let c : Core := { a := [(2, 0x100#32)], lm := [(0x100, 0x81#8), (0x101, 0x02#8), (0x103, 0x7F#8)] }
    (ran 0x20 Instr.ldB (word 4 0 0 0 2 0 0) c).sreg 4 = 0x81#32 ∧
    (ran 0x22 Instr.ldW (word 4 0 0 0 2 1 4) c).sreg 4 = 0x7F000281#32 ∧
    (ran 0x22 Instr.ldW (word 4 0 0 0 2 1 4) c).areg 2 = 0x104#32 := by decide +kernel

/-- A core address in neither range of R94 stops the core with ADDR_RANGE. -/
theorem test_addr_range :
    let c := ran 0x26 Instr.stW (word 4 0 0 0 2 0 0) { a := [(2, 0xBFFD#32)] }
    c.run = .stopped ∧ c.cause = .addrRange := by decide +kernel

/-- A jump by IMM; a reserved bit stops the core with ILLEGAL; the command of an instruction that is not at the PC
changes nothing (R96). -/
theorem test_jump :
    (ran 0x40 Instr.j (word 0 0 0 0 0 0 0xFFFFFFE0) { pc := 0x40#16 }).pc = 0x20#16 ∧
    (ran 0xB0 Instr.nop 1#56 {}).cause = .illegal ∧ (ran 0xB0 Instr.asclr 0#56 {}).pc = 0#16 := by decide +kernel

/-- Operand A of a tensor instruction that waits for B is not overwritten: the store waits (R90). -/
theorem test_source_held :
    (ran 0x26 Instr.stW (word 4 0 0 0 2 0 0) { a := [(2, 0x104#32)], qops := [.tmul {
      queue := 1, word := 0#56, zero := false, k := 1, addr := 0x100, a := List.replicate 32 0#8 }] }).wait = .queue 1 := by decide +kernel

/-- A DMA copy moves its bytes and only those. -/
theorem test_copy :
    let c := cmd [(0, 1), (8, 0x10), (16, 0x100), (24, 2), (28, 1)]
    let s := engineRuns 0 0 { cmd := c }
    let s : State := { s with toChip := s.toChip.modCl 0 fun x => { x with store := [(0x10, 7#8), (0x11, 8#8), (0x12, 9#8)] } }
    Memory.read ((after s (.copy 0 0 0)).cl 0).store 0x100 3 = [7#8, 8#8, 0#8] := by decide +kernel

/-- An access of 4 bytes raises BAD_ACCESS; one of 8 bytes writes SCRATCH. -/
theorem test_register_write :
    (after State.reset (.registerWrite 0x40 8 0x1234#64)).dev.scratch = 0x1234#64 ∧
    (after State.reset (.registerWrite 0x40 4 0x1234#64)).dev.scratch = 0#64 := by decide +kernel

/-- Time: a step on an empty queue is one nanosecond; without standby power nothing moves. -/
theorem test_tick : (match step State.reset with | .next t => t.tk.now | _ => 0#64) = 1#64 := by decide +kernel

/-- R302's worked example of a header: its sixteen bytes, lowest first, and 65 flits. -/
theorem test_header :
    let k : Packet := { destLC := 0x4BD, destCore := 1, srcLC := 0x4B0, srcSub := 2, tint := 5, channel := 3, epoch := 1
                        seq := 0x0107, ptype := 1, payload := List.replicate 8192 0#8 }
    leBytes 16 k.header = [0xBD#8, 0x14#8, 0#8, 0xB0#8, 0x24#8, 0#8, 5#8, 0x13#8, 0#8, 0#8, 0x80#8, 7#8, 1#8, 1#8, 0#8, 0#8] ∧
    k.flits = 65 := by decide +kernel

/-- A header read back gives its fields (R299). -/
theorem test_header_fields :
    let k := Packet.ofBytes 0x1010780000013050024B00014BD []
    k.destLC = 0x4BD ∧ k.destCore = 1 ∧ k.srcLC = 0x4B0 ∧ k.srcSub = 2 ∧ k.tint = 5 ∧ k.channel = 3 ∧ k.epoch = 1 ∧
    k.seq = 0x0107 ∧ k.ptype = 1 := by decide +kernel

/-- FIPS 197, C.3: AES-256 deciphered. -/
theorem test_aes_decrypt :
    Aes.decrypt (Aes.roundKeys ((List.range 32).map (BitVec.ofNat 8))) (leBytes 16 0x8960494b9049fceabf456751cab7a28e) =
      (List.range 16).map fun i => BitVec.ofNat 8 (17 * i) := by decide +kernel

/-- IEEE 1619, vector 10: the first 64 bytes of its data unit under its two keys and tweak 0xFF. -/
theorem test_xts :
    let be (n x : Nat) : List Byte := (leBytes n x).reverse
    Xts.line false (BitVec.ofNat 512 (leNat (be 32 0x2718281828459045235360287471352662497757247093699959574966967627 ++
      be 32 0x3141592653589793238462643383279502884197169399375105820974944592))) 0xFF ((List.range 64).map (BitVec.ofNat 8)) =
    be 64 0x1c3b3a102f770386e4836c99e370cf9bea00803f5e482357a4ae12d414a3e63b5d31e276f8fe4a8d66b317f9ac683f44680a86ac35adfc3345befecb4bb188fd := by
  decide +kernel

/-- CLASS and OP of a word (R96, R97): 0x0 0xE is LI, 0x3 0xF and class 0xF are unlisted. -/
theorem test_class_op :
    decodeCore 3 5 0x0E08000000000007#64 = some (.li 3 5 0x08000000000007#56) ∧
    decodeCore 3 5 0x3F00000000000000#64 = none ∧ decodeCore 3 5 0xF000000000000000#64 = none := by decide +kernel

/-- A core whose word at the PC has an unlisted CLASS stops with ILLEGAL, one whose PC lies beyond local memory with
ADDR_RANGE (R95, R97). -/
theorem test_fetch :
    let cause (c : Core) : StopCause := match step (withCore c) with | .next t => (t.core 0 0).cause | _ => .none
    cause { lm := [(7, 0xF0#8)] } = .illegal ∧ cause { pc := 0xC000#16 } = .addrRange := by decide +kernel

/-- A unit the engine does not have. -/
theorem test_no_such_unit : exec (.nop 4032 0 0#56) State.reset = .fault .noSuchUnit := rfl

/-- GableCommands: the power condition of a BAY_ADD holds of bays that need none. -/
theorem witness_bayAdd :
    let s : State := { lit with
      bays := [(0, { power := .lit, tint := 1, gain := 0 }), (1, { power := .shaded, gain := 0 })] }
    (s.needFails 1 (s.allot 1) (s.gableBays 1 ++ [1]) || s.freqFails 1 (s.gableBays 1 ++ [1])) = false := by
  intro s
  have h : s.gableBays 1 ++ [1] = [0, 1] := by decide +kernel
  have hf : s.freqFails 1 [0, 1] = false := by decide +kernel
  have h0 : (s.bay 0).gain = 0 ∧ (s.bay 0).offset = 0 := by decide +kernel
  have h1 : (s.bay 1).gain = 0 ∧ (s.bay 1).offset = 0 := by decide +kernel
  have ha : s.allot 1 = 0 := by decide +kernel
  simp only [h, hf, Chip.needFails, Chip.needOf, List.foldl, h0, h1, ha]
  simp

/-- GableCommands: an allotment of 1 W that nothing refuses, and one of 0 W, which the range refuses. -/
theorem witness_allot :
    let s : State := { lit with bays := [(0, { power := .lit, tint := 1, gain := 0 })] }
    s.allotFails 1 1 (s.gableBays 1) (s.gable 1).active = [] ∧ s.allotFails 1 0 (s.gableBays 1) (s.gable 1).active ≠ [] := by
  intro s
  have hb : s.gableBays 1 = [0] := by decide +kernel
  have hc (w : Nat) (h : w ≤ 1) : s.capOver 1 w = false := by
    obtain rfl | rfl : w = 0 ∨ w = 1 := by omega
    all_goals decide +kernel
  have h0 : (s.bay 0).gain = 0 ∧ (s.bay 0).offset = 0 := by decide +kernel
  have hn (w : Nat) : s.needFails 1 w [0] = false := by
    simp only [Chip.needFails, Chip.needOf, List.foldl, h0]
    simp
  simp only [Chip.allotFails, hb, hc 1 (by omega), hc 0 (by omega), hn]
  decide

end Sys2Proof.Tests
end

section
/-! O2: the meaning of a well-formed command answers a next state and leaves the queue. -/

namespace Sys2Proof.Machine

open Sys2Proof

/-! ### Every command's meaning is an effect on the units that it names -/

/-- The meaning of a well-formed command looks up exactly the identifiers that `wf` bounds. The two register accesses
look up none: their bounds are those of the address map (R483). -/
theorem exec_eq_run_onUnit (c : Instr) (h : c.wf = true) :
    ∃ f : Chip → Chip, ∀ s : State, exec c s = s.run fun x => onUnit c.wf (f x) := by
  unfold exec
  cases c with
  | registerWrite off size v => rw [h]; exact ⟨_, fun _ => rfl⟩
  | rcRead rd => rw [h]; exact ⟨_, fun _ => rfl⟩
  | _ => exact ⟨_, fun _ => rfl⟩

/-- A command that names units the engine has changes the engine and leaves the queue. -/
theorem exec_next_of_wf {c : Instr} (h : c.wf = true) (s : State) : ∃ x : Chip, exec c s = .next { s with toChip := x } := by
  obtain ⟨f, hf⟩ := exec_eq_run_onUnit c h
  exact ⟨f s.toChip, (hf s).trans (State.run_onUnit (f := fun x => onUnit c.wf (f x)) h rfl)⟩

/-- A step takes the front command off a well-formed queue. -/
theorem step_next_of_wellQueued {s : State} (hs : s.wellQueued) :
    ∃ x : Chip, step s = .next { toChip := x, pending := s.pending.tail } := by
  unfold step
  cases hp : s.pending with
  | nil => exact ⟨s.toChip.tick, by simp⟩
  | cons c rest => exact exec_next_of_wf (hs c (by simp [hp])) { s with pending := rest }

/-- Settles O2: the front command is well-formed, so it answers a next state with the rest of the queue. -/
theorem wellQueuedStepsComplete : Obligations.WellQueuedStepsComplete := by
  intro s hs
  obtain ⟨x, hx⟩ := step_next_of_wellQueued hs
  exact ⟨_, hx, rfl, fun c hc => hs c (List.mem_of_mem_tail hc)⟩

end Sys2Proof.Machine
end

section
/-! O8: how a core instruction issues, and how a core stops. -/

namespace Sys2Proof.Machine

open Sys2Proof

/-! ### The cores of a chip -/

@[simp] theorem Chip.core_modCore_same (s : Chip) (cl p : Nat) (f : Core → Core) :
    (s.modCore cl p f).core cl p = f (s.core cl p) := by
  simp [Chip.core, Chip.modCore]

@[simp] theorem Chip.core_modCore_other (s : Chip) (cl : Nat) {p q : Nat} (f : Core → Core) (h : q ≠ p) :
    (s.modCore cl p f).core cl q = s.core cl q := by
  simp [Chip.core, Chip.modCore, h]

@[simp] theorem Chip.cl_modCore_other (s : Chip) {cl k : Nat} (p : Nat) (f : Core → Core) (h : k ≠ cl) :
    (s.modCore cl p f).cl k = s.cl k := by
  simp [Chip.modCore, h]

/-! ### A fault on a cluster's page (R469) -/

theorem bit_setBit_same (w : W) {i : Nat} (h : i < 64) : bit (setBit w i) i = true := by
  simp [bit, setBit, h]

/-- The page with bit `b` of FAULT_CAUSE and of IRQ_STATUS set and the reports `rs`. -/
def Page.raised (p : Page) (b : Nat) (rs : List Report) : Page :=
  { p with fault := setBit p.fault b, irqStat := setBit p.irqStat b, reports := rs }

section Raise

variable (s : Chip) (cl b : Nat) (cls : Option ErrClass) (detail tint : Nat) (patrol : Bool)

/-- A fault of a cluster's page changes that page alone, and nothing where the fault stands already. -/
theorem Chip.raiseWith_cluster :
    (bit (s.cl cl).page.fault b = true ∧ s.raiseWith (.cluster cl) b cls detail tint patrol = s) ∨
      ∃ rs, s.raiseWith (.cluster cl) b cls detail tint patrol = s.modPage (.cluster cl) fun p => p.raised b rs := by
  by_cases h : bit (s.cl cl).page.fault b = true
  · exact .inl ⟨h, by simp [Chip.raiseWith, Chip.page, h]⟩
  · exact .inr ⟨_, by simp only [Chip.raiseWith, Chip.page, h, PageRef.block]; rfl⟩

@[simp] theorem Chip.core_raiseWith_cluster (k q : Nat) :
    (s.raiseWith (.cluster cl) b cls detail tint patrol).core k q = s.core k q := by
  obtain ⟨-, ht⟩ | ⟨rs, ht⟩ := s.raiseWith_cluster cl b cls detail tint patrol
  · rw [ht]
  · by_cases hk : k = cl
    · subst hk; simp [ht, Chip.core, Chip.modPage, Cluster.core]
    · simp [ht, Chip.core, Chip.modPage, hk]

@[simp] theorem Chip.cl_raiseWith_cluster_other {k : Nat} (hk : k ≠ cl) :
    (s.raiseWith (.cluster cl) b cls detail tint patrol).cl k = s.cl k := by
  obtain ⟨-, ht⟩ | ⟨rs, ht⟩ := s.raiseWith_cluster cl b cls detail tint patrol
  · rw [ht]
  · simp [ht, Chip.modPage, hk]

theorem Chip.fault_raiseWith_cluster (hb : b < 64) :
    bit ((s.raiseWith (.cluster cl) b cls detail tint patrol).cl cl).page.fault b = true := by
  obtain ⟨h, ht⟩ | ⟨rs, ht⟩ := s.raiseWith_cluster cl b cls detail tint patrol
  · rw [ht, h]
  · simp [ht, Chip.modPage, Page.raised, bit_setBit_same _ hb]

end Raise

/-! ### The stop of a core (R125) -/

section Stop

variable (s : Chip) (cl p : Nat) {cause : StopCause}

/-- No HINTMISS window closes where the core is not held on a rise. -/
theorem Chip.endWait_of_ne_rise (h : (s.core cl p).wait ≠ .rise) :
    s.endWait cl p = s.modCore cl p fun c => { c with wait := .none } := by
  simp [Chip.endWait, h]

theorem Chip.stopCore_done (h : (s.core cl p).wait ≠ .rise) :
    s.stopCore cl p .done = (s.modCore cl p fun c => { c with wait := .none }).modCore cl p
      fun c => { c with run := .stopped, cause := .done } := by
  simp [Chip.stopCore, s.endWait_of_ne_rise cl p h]

/-- A stop with a fault: the core stops, CORE_STOP of its cluster reads 1, and the other cores and clusters are as they
were. -/
theorem Chip.stopCore_fault (hc : cause ≠ .done) (h : (s.core cl p).wait ≠ .rise) :
    (s.stopCore cl p cause).core cl p = { s.core cl p with wait := .none, run := .stopped, cause := cause } ∧
      (∀ q, q ≠ p → (s.stopCore cl p cause).core cl q = s.core cl q) ∧
      (∀ k, k ≠ cl → (s.stopCore cl p cause).cl k = s.cl k) ∧
      bit ((s.stopCore cl p cause).cl cl).page.fault 0 = true := by
  simp only [Chip.stopCore, s.endWait_of_ne_rise cl p h, hc, if_false]
  refine ⟨?_, fun q hq => ?_, fun k hk => ?_, Chip.fault_raiseWith_cluster _ _ _ _ _ _ _ (by decide)⟩
  · simp
  · simp [hq]
  · simp [hk]

end Stop

/-! ### The fetch (R95 to R97, R113) -/

section Fetch

variable {s : Chip} {cl p : Nat}

theorem Issues.wait_ne_rise (hi : Issues s cl p) : (s.core cl p).wait ≠ .rise := by
  obtain ⟨-, -, hrun, -, -⟩ := hi
  intro hw
  simp [Chip.canIssue, hw] at hrun

theorem Issues.lmScan (hi : Issues s cl p) :
    (s.core cl p).lmScan ((s.core cl p).pc.toNat / 8) ((s.core cl p).pc.toNat / 8 + 1) = (fetched s cl p, false) := by
  obtain ⟨-, -, -, -, hecc⟩ := hi
  exact Prod.ext rfl hecc

theorem Issues.fetch_reads {i : Instr} (hi : Issues s cl p) (hf : Fetches s cl p i) :
    s.fetch cl p = .reads (fetched s cl p) i := by
  have hscan := hi.lmScan
  obtain ⟨-, -, -, hpc, -⟩ := hi
  have hdec : decodeCore cl p (s.core cl p).word = some i := hf
  simp [Chip.fetch, Nat.not_lt.2 hpc, hscan, hdec]

theorem Issues.fetch_unlisted (hi : Issues s cl p) (hn : decodeCore cl p (s.core cl p).word = none) :
    s.fetch cl p = .stops ((s.modCore cl p fun _ => fetched s cl p).stopCore cl p .illegal) := by
  have hscan := hi.lmScan
  obtain ⟨-, -, -, hpc, -⟩ := hi
  simp [Chip.fetch, Nat.not_lt.2 hpc, hscan, hn]

end Fetch

/-! ### A stop with ILLEGAL -/

/-- Core `p` of cluster `cl` has stopped with ILLEGAL at its instruction, which took no effect. -/
def StoppedIllegal (s t : Chip) (cl p : Nat) : Prop :=
  (t.core cl p).run = .stopped ∧ (t.core cl p).cause = .illegal ∧ (t.core cl p).pc = (s.core cl p).pc ∧
    (t.core cl p).s = (s.core cl p).s ∧ (t.core cl p).a = (s.core cl p).a ∧ (t.core cl p).lm = (s.core cl p).lm ∧
    bit (t.cl cl).page.fault 0 = true ∧ (∀ q, q ≠ p → t.core cl q = s.core cl q) ∧ ∀ k, k ≠ cl → t.cl k = s.cl k

/-- A core that stops with ILLEGAL once its instruction is fetched. -/
theorem stoppedIllegal_of_fetched {s u : Chip} {cl p : Nat} (hi : Issues s cl p) (hp : u.core cl p = fetched s cl p)
    (hq : ∀ q, q ≠ p → u.core cl q = s.core cl q) (hk : ∀ k, k ≠ cl → u.cl k = s.cl k) :
    StoppedIllegal s (u.stopCore cl p .illegal) cl p := by
  have hw : (u.core cl p).wait ≠ .rise := by rw [hp]; exact hi.wait_ne_rise
  obtain ⟨hcore, hothers, hclusters, hbit⟩ := u.stopCore_fault cl p (cause := .illegal) (by decide) hw
  rw [hp] at hcore
  unfold StoppedIllegal
  rw [hcore]
  exact ⟨rfl, rfl, rfl, rfl, rfl, rfl, hbit, fun q h => (hothers q h).trans (hq q h), fun k h => (hclusters k h).trans (hk k h)⟩

/-! ### The issue of an instruction -/

section Issue

variable {s : Chip} {cl p cyc : Nat} {i : Instr} {f : Cluster → Core → Res} {u : Cluster → Core → Use}

/-- The core issues the instruction at its PC and no other (R96). -/
theorem issue_of_fetches_other {j : Instr} (hi : Issues s cl p) (hf : Fetches s cl p j) (hj : j ≠ i) :
    s.issue i cl p cyc f u = s := by
  have hfetch := hi.fetch_reads hf
  obtain ⟨-, -, hrun, -, -⟩ := hi
  simp [Chip.issue, Chip.issueG, hrun, hfetch, hj]

/-- An unlisted CLASS or OP (R97). -/
theorem issue_unlisted (hi : Issues s cl p) (hn : decodeCore cl p (s.core cl p).word = none) :
    StoppedIllegal s (s.issue i cl p cyc f u) cl p := by
  have hfetch := hi.fetch_unlisted hn
  have hissue : s.issue i cl p cyc f u = (s.modCore cl p fun _ => fetched s cl p).stopCore cl p .illegal := by
    obtain ⟨-, -, hrun, -, -⟩ := hi
    simp [Chip.issue, Chip.issueG, hrun, hfetch]
  rw [hissue]
  exact stoppedIllegal_of_fetched hi (by simp) (fun q hq => by simp [hq]) (fun k hk => by simp [hk])

/-- An encoding that the instruction's own check refuses, whatever the core holds. -/
theorem issue_illegal (hi : Issues s cl p) (hf : Fetches s cl p i) (hill : ∀ x c, f x c = .stopAt x .illegal) :
    StoppedIllegal s (s.issue i cl p cyc f u) cl p := by
  have hfetch := hi.fetch_reads hf
  have hissue : s.issue i cl p cyc f u = (Chip.setCl (s.modCore cl p fun _ => fetched s cl p) cl
      ((s.modCore cl p fun _ => fetched s cl p).cl cl)).stopCore cl p .illegal := by
    obtain ⟨-, -, hrun, -, -⟩ := hi
    simp [Chip.issue, Chip.issueG, hrun, hfetch, hill]
  rw [hissue]
  refine stoppedIllegal_of_fetched hi ?_ (fun q hq => ?_) (fun k hk => ?_)
  · simp [Chip.core, Chip.modCore]
  · simp [Chip.core, Chip.modCore, hq]
  · simp [hk]

end Issue

/-! ### Commands that issue -/

/-- The command `i` is the issue of `i` by core `p` of cluster `cl` with effect `f`. -/
def IssuesWith (i : Instr) (cl p : Nat) (f : Cluster → Core → Res) : Prop :=
  ∃ cyc u, ∀ s : State, exec i s = s.run fun x => onUnit (cl < 4032 && p < 136) (x.issue i cl p cyc f u)

section Commands

variable {s : State} {i : Instr} {cl p : Nat} {f : Cluster → Core → Res}

theorem IssuesWith.next (h : IssuesWith i cl p f) (hi : Issues s.toChip cl p) :
    ∃ cyc u, exec i s = .next { s with toChip := s.toChip.issue i cl p cyc f u } := by
  obtain ⟨cyc, u, hexec⟩ := h
  obtain ⟨hcl, hp, -, -, -⟩ := hi
  refine ⟨cyc, u, (hexec s).trans ?_⟩
  exact State.run_onUnit (f := fun x => onUnit (cl < 4032 && p < 136) (x.issue i cl p cyc f u)) (by simp [hcl, hp]) rfl

theorem IssuesWith.fault_noSuchUnit (h : IssuesWith i cl p f) (hno : ¬ (cl < 4032 ∧ p < 136)) :
    exec i s = .fault .noSuchUnit := by
  obtain ⟨cyc, u, hexec⟩ := h
  have hb : (decide (cl < 4032) && decide (p < 136)) = false := by simpa using hno
  rw [hexec, hb]
  rfl

theorem IssuesWith.next_of_fetches_other {j : Instr} (h : IssuesWith i cl p f) (hi : Issues s.toChip cl p)
    (hf : Fetches s.toChip cl p j) (hj : j ≠ i) : exec i s = .next s := by
  obtain ⟨cyc, u, hexec⟩ := h.next hi
  rw [hexec, issue_of_fetches_other hi hf hj]

theorem IssuesWith.completes_unlisted (h : IssuesWith i cl p f) (hi : Issues s.toChip cl p)
    (hn : decodeCore cl p (s.core cl p).word = none) : Completes i s fun t => StoppedIllegal s.toChip t.toChip cl p := by
  obtain ⟨cyc, u, hexec⟩ := h.next hi
  exact ⟨_, hexec, issue_unlisted hi hn⟩

theorem IssuesWith.runs_illegal (h : IssuesWith i cl p f) (hi : Issues s.toChip cl p)
    (hill : ∀ x c, f x c = .stopAt x .illegal) : Runs cl p i s fun t => StoppedIllegal s.toChip t.toChip cl p := by
  intro hf
  obtain ⟨cyc, u, hexec⟩ := h.next hi
  exact ⟨_, hexec, issue_illegal hi hf hill⟩

end Commands

end Sys2Proof.Machine
end

section
/-! O8: STOP, the reserved bits, and the statement. -/

namespace Sys2Proof.Machine

open Sys2Proof

/-! ### Changes of one core alone -/

theorem OnlyCore.refl (s : State) (cl p : Nat) : OnlyCore s s cl p (s.core cl p) :=
  ⟨rfl, fun _ _ => rfl, rfl, fun _ _ => rfl, rfl⟩

/-- A further change of the same core. -/
theorem OnlyCore.modCore {s : State} {t : Chip} {cl p : Nat} {c : Core} (h : OnlyCore s { s with toChip := t } cl p c)
    (f : Core → Core) : OnlyCore s { s with toChip := t.modCore cl p f } cl p (f c) := by
  obtain ⟨hcore, hcores, hrest, hclusters, hcluster⟩ := h
  refine ⟨?_, fun q hq => ?_, ?_, fun k hk => ?_, ?_⟩
  · rw [← hcore]; exact Chip.core_modCore_same t cl p f
  · exact (Chip.core_modCore_other t cl f hq).trans (hcores q hq)
  · exact hrest
  · exact (Chip.cl_modCore_other t p f hk).trans (hclusters k hk)
  · rw [← hcluster]; simp [Chip.modCore]

/-! ### STOP (R125) -/

/-- The core `e` once its instruction of `cyc` cycles has issued and stopped it: the PC is on the next instruction. -/
def Core.stopDone (e : Core) (u : Use) (cyc : Nat) : Core :=
  { e.issued u cyc with pc := e.pc + 8#16, wait := .none, run := .stopped, cause := .done }

/-- The cycles that pass before and in a STOP leave the core's registers and memory. -/
theorem Core.stopDone_frame (c : Core) (v u : Use) (n cyc : Nat) :
    (((c.ready v).workCycles n).stopDone u cyc).pc = c.pc + 8#16 ∧ (((c.ready v).workCycles n).stopDone u cyc).s = c.s ∧
      (((c.ready v).workCycles n).stopDone u cyc).a = c.a ∧ (((c.ready v).workCycles n).stopDone u cyc).lm = c.lm := by
  simp [Core.stopDone, Core.issued, Core.ready, Core.workCycles]

/-- No cycle of a multiplier that is free stays occupied. -/
theorem Core.occ_stopDone_workCycles (c : Core) (u : Use) (cyc : Nat) :
    ((c.workCycles c.occ).stopDone u cyc).occ = 0 := by
  simp [Core.stopDone, Core.issued, Core.workCycles]

/-- An instruction that stops its core with DONE changes nothing else. -/
theorem issue_stopDone {s : State} {cl p cyc : Nat} {i : Instr} {f : Cluster → Core → Res} {u : Cluster → Core → Use}
    {e : Use → Core} (hi : Issues s.toChip cl p) (hf : Fetches s.toChip cl p i)
    (hstop : ∀ x v, f x ((fetched s.toChip cl p).ready v) = okCore x p (e v) .stop)
    (hstat : ∀ v, (e v).fstat = (fetched s.toChip cl p).fstat) (hwait : ∀ v, (e v).wait = (fetched s.toChip cl p).wait) :
    ∃ v, OnlyCore s { s with toChip := s.toChip.issue i cl p cyc f u } cl p ((e v).stopDone v cyc) := by
  have hfetch := hi.fetch_reads hf
  have hw : (fetched s.toChip cl p).wait ≠ .rise := hi.wait_ne_rise
  obtain ⟨-, -, hrun, -, -⟩ := hi
  generalize fetched s.toChip cl p = c at *
  generalize hv : u ((s.toChip.modCore cl p fun _ => c).cl cl) c = v
  refine ⟨v, ?_⟩
  have hissued := (((OnlyCore.refl s cl p).modCore fun _ => c).modCore fun _ => e v).modCore fun k => k.issued v cyc
  generalize ht : ((s.toChip.modCore cl p fun _ => c).modCore cl p fun _ => e v).modCore cl p
    (fun k => k.issued v cyc) = t at hissued
  have hcore : t.core cl p = (e v).issued v cyc := hissued.1
  have hissue : s.toChip.issue i cl p cyc f u =
      (t.modCore cl p fun k => { k with pc := k.pc + 8#16 }).stopCore cl p .done := by
    have hflag : t.flagErr cl c.fstat (t.core cl p).fstat = t := by
      rw [hcore, Core.fstat_issued, hstat, Chip.flagErr_same]
    simp only [Chip.issue, Chip.issueG, hrun, hfetch, hv, hstop, okCore, Bool.not_true, Bool.false_eq_true, if_false, ne_eq,
      not_true_eq_false]
    rw [← hflag, ← ht]; rfl
  have hrise : ((t.modCore cl p fun k => { k with pc := k.pc + 8#16 }).core cl p).wait ≠ .rise := by
    rw [Chip.core_modCore_same, hcore]
    exact (hwait v).trans_ne hw
  rw [hissue, Chip.stopCore_done _ _ _ hrise]
  exact ((hissued.modCore _).modCore _).modCore _

/-- STOP's effect where nothing is in progress: the cycles in which the multiplier is occupied pass. -/
theorem issuesWith_stop (cl p : Nat) : ∃ f, IssuesWith (.stop cl p 0#56) cl p f ∧
    ∀ x c, c.blockedOn = none → f x c = okCore x p (c.workCycles c.occ) .stop := by
  refine ⟨_, ⟨_, _, fun _ => rfl⟩, fun x c hc => ?_⟩
  simp only [hc]
  rfl

/-- Core `p` of cluster `cl` has stopped with DONE, its PC on the next instruction, and nothing else has changed. -/
def StoppedDone (s t : State) (cl p : Nat) : Prop :=
  (t.core cl p).run = .stopped ∧ (t.core cl p).cause = .done ∧ (t.core cl p).pc = (s.core cl p).pc + 8#16 ∧
    (t.core cl p).occ = 0 ∧ (t.core cl p).s = (s.core cl p).s ∧ (t.core cl p).a = (s.core cl p).a ∧
    (t.core cl p).lm = (s.core cl p).lm ∧ (∀ q, q ≠ p → t.core cl q = s.core cl q) ∧ OthersKept s t cl

theorem stoppedDone_of_onlyCore {s t : State} {cl p cyc : Nat} {v : Use}
    (h : OnlyCore s t cl p
      ((((fetched s.toChip cl p).ready v).workCycles ((fetched s.toChip cl p).ready v).occ).stopDone v cyc)) :
    StoppedDone s t cl p := by
  obtain ⟨hcore, hcores, hothers⟩ := h
  unfold StoppedDone
  rw [hcore]
  obtain ⟨hpc, hs, ha, hlm⟩ := (fetched s.toChip cl p).stopDone_frame v v ((fetched s.toChip cl p).ready v).occ cyc
  rw [hpc, hs, ha, hlm]
  exact ⟨rfl, rfl, rfl, Core.occ_stopDone_workCycles _ _ _, rfl, rfl, rfl, hcores, hothers⟩

/-- STOP of a core whose queue instructions have completed. -/
theorem stop_runs {s : State} {cl p : Nat} (hi : Issues s.toChip cl p) (hq : (s.core cl p).qops = [])
    (hb : (s.core cl p).backlog = []) : Runs cl p (.stop cl p 0#56) s fun t => StoppedDone s t cl p := by
  intro hf
  obtain ⟨f, hstop, hdone⟩ := issuesWith_stop cl p
  obtain ⟨cyc, u, hexec⟩ := hstop.next hi
  have hblock (v : Use) : ((fetched s.toChip cl p).ready v).blockedOn = none := by
    have hq' : ((fetched s.toChip cl p).ready v).qops = [] := hq
    have hb' : ((fetched s.toChip cl p).ready v).backlog = [] := hb
    simp [Core.blockedOn, hq', hb']
  obtain ⟨v, hcore⟩ := issue_stopDone (f := f) (u := u) (cyc := cyc)
    (e := fun v => ((fetched s.toChip cl p).ready v).workCycles ((fetched s.toChip cl p).ready v).occ)
    hi hf (fun x v => hdone x _ (hblock v)) (fun _ => rfl) (fun _ => rfl)
  exact ⟨_, hexec, stoppedDone_of_onlyCore hcore⟩

/-! ### Reserved bits (R97) -/

/-- Bits 35 to 32 are reserved in every operation of R98. -/
theorem reservedOk_eq_false {w : BitVec 56} (h : ibits w 32 4 ≠ 0) (u : Uses) : reservedOk u w = false := by
  simp [reservedOk, h]

theorem checked_illegal {w : BitVec 56} (h : ibits w 32 4 ≠ 0) (u : Uses) (x : Cluster) (r : Res) :
    checked u w x r = .stopAt x .illegal := by
  simp [checked, reservedOk_eq_false h]

theorem branchOp_illegal {w : BitVec 56} (h : ibits w 32 4 ≠ 0) (p : Nat) (g : W32 → W32 → Bool) (x : Cluster) (c : Core) :
    branchOp p w g x c = .stopAt x .illegal := by
  simp [branchOp, reservedOk_eq_false h]

/-- Settles O8: each command is the issue of its instruction, so that the lemmas on `IssuesWith` give what happens when
another instruction, an unlisted one or a reserved bit is fetched, and when there is no such core. -/
theorem coreStops : Obligations.CoreStops := by
  refine ⟨fun s cl p hi hq hb => stop_runs hi hq hb, fun s cl p w hi hw => ?_, fun s cl p w hi => ?_,
    fun s cl p w hno => ?_⟩
  · have illegal {i : Instr} {f : Cluster → Core → Res} (h : IssuesWith i cl p f)
        (hf : ∀ x c, f x c = .stopAt x .illegal) := h.runs_illegal hi hf
    have hr := reservedOk_eq_false hw
    have hne : w ≠ 0#56 := by rintro rfl; exact hw (by decide)
    simp only [List.forall_mem_cons, List.not_mem_nil, false_imp_iff, implies_true, and_true]
    refine ⟨illegal ⟨_, _, fun _ => rfl⟩ fun x c => checked_illegal hw _ _ _,
      illegal ⟨_, _, fun _ => rfl⟩ fun x c => checked_illegal hw _ _ _,
      illegal ⟨_, _, fun _ => rfl⟩ fun x c => checked_illegal hw _ _ _,
      illegal ⟨_, _, fun _ => rfl⟩ fun x c => checked_illegal hw _ _ _,
      illegal ⟨_, _, fun _ => rfl⟩ fun x c => checked_illegal hw _ _ _,
      illegal ⟨_, _, fun _ => rfl⟩ fun x c => checked_illegal hw _ _ _,
      illegal ⟨_, _, fun _ => rfl⟩ fun x c => by simp [hr],
      illegal ⟨_, _, fun _ => rfl⟩ fun x c => branchOp_illegal hw _ _ _ _,
      illegal ⟨_, _, fun _ => rfl⟩ fun x c => by simp [hr],
      illegal ⟨_, _, fun _ => rfl⟩ fun x c => checked_illegal hw _ _ _,
      illegal ⟨_, _, fun _ => rfl⟩ fun x c => by simp [hne]⟩
  · intro i hmem
    obtain ⟨f, h⟩ : ∃ f, IssuesWith i cl p f := by fin_cases hmem <;> exact ⟨_, _, _, fun _ => rfl⟩
    exact ⟨fun j hf hj => h.next_of_fetches_other hi hf hj, h.completes_unlisted hi⟩
  · intro i hmem
    obtain ⟨f, h⟩ : ∃ f, IssuesWith i cl p f := by fin_cases hmem <;> exact ⟨_, _, _, fun _ => rfl⟩
    exact h.fault_noSuchUnit hno

end Sys2Proof.Machine
end

section
/-! O50: what a latch, a relight and a reading leave as it was. -/

namespace Sys2Proof.Machine

open Sys2Proof

/-! ### What stays -/

/-- A fold of steps that each keep `g` keeps `g`. -/
theorem foldl_keeps {σ α γ : Type} (g : σ → γ) {f : σ → α → σ} {l : List α} {s : σ} (h : ∀ s x, g (f s x) = g s) :
    g (l.foldl f s) = g s := by
  induction l generalizing s with
  | nil => rfl
  | cons x l ih => rw [List.foldl_cons, ih, h]

/-- What no event of a gable and no halt changes: the module but for its halt, the commits, the POWER page, the counters in
flash and the state of bring-up. -/
def Chip.outside (s : Chip) : Chip :=
  { module := { s.module with haltedBit := false, fatalHalt := false }
    committed := s.committed, powerPage := s.powerPage, sec := { counters := s.sec.counters }, bringup := s.bringup }

/-- The same and the bays: what no halt, stall window or link that goes OUT changes. -/
def Chip.still (s : Chip) : Chip := { s.outside with bays := s.bays }

section Still

variable {s t u : Chip}

theorem Chip.outside_of_still (h : t.still = s.still) : t.outside = s.outside :=
  congrArg (fun x : Chip => { x with bays := [] }) h

theorem Chip.parts_of_outside (h : t.outside = u) :
    t.committed = u.committed ∧ t.powerPage = u.powerPage ∧ t.sec.counters = u.sec.counters ∧ t.bringup = u.bringup := by
  subst h; exact ⟨rfl, rfl, rfl, rfl⟩

theorem Chip.parts_of_still (h : t.still = u) :
    t.bays = u.bays ∧ t.committed = u.committed ∧ t.powerPage = u.powerPage ∧ t.sec.counters = u.sec.counters ∧
      t.bringup = u.bringup := by
  subst h; exact ⟨rfl, rfl, rfl, rfl, rfl⟩

/-- The readings of the module and what they decide. -/
theorem Chip.readings_of_still (h : t.still = u) :
    t.module.inlet = u.module.inlet ∧ t.module.inletHi = u.module.inletHi ∧ t.module.input = u.module.input ∧
      t.module.inputBad = u.module.inputBad ∧ t.module.bus48 = u.module.bus48 := by
  subst h; exact ⟨rfl, rfl, rfl, rfl, rfl⟩

theorem Chip.bays_of_still (h : t.still = s.still) : t.bays = s.bays := (Chip.parts_of_still h).1

theorem Chip.bay_of_still (h : t.still = s.still) (b : Nat) : t.bay b = s.bay b := by
  rw [Chip.bay, Chip.bays_of_still h, Chip.bay]

end Still

section StillRules

variable (s : Chip)

@[simp] theorem Chip.still_modGable (t : Nat) (f : Gable → Gable) : (s.modGable t f).still = s.still := rfl
@[simp] theorem Chip.still_modCl (cl : Nat) (f : Cluster → Cluster) : (s.modCl cl f).still = s.still := rfl

@[simp] theorem Chip.still_openWindow (t : Nat) (c : StallCause) : (s.openWindow t c).still = s.still := by
  unfold Chip.openWindow; split <;> rfl
@[simp] theorem Chip.clusters_openWindow (t : Nat) (c : StallCause) : (s.openWindow t c).clusters = s.clusters := by
  unfold Chip.openWindow; split <;> rfl
@[simp] theorem Chip.still_closeWindow (t : Nat) (c : StallCause) : (s.closeWindow t c).still = s.still := by
  unfold Chip.closeWindow; split <;> rfl
@[simp] theorem Chip.clusters_closeWindow (t : Nat) (c : StallCause) : (s.closeWindow t c).clusters = s.clusters := by
  unfold Chip.closeWindow; split <;> rfl

@[simp] theorem Chip.still_syncHolds : s.syncHolds.still = s.still := rfl
@[simp] theorem Chip.clusters_syncHolds : s.syncHolds.clusters = s.clusters := rfl

@[simp] theorem Chip.still_sendHost (o : Output) : (s.sendHost o).still = s.still := by
  unfold Chip.sendHost; split <;> rfl
@[simp] theorem Chip.clusters_sendHost (o : Output) : (s.sendHost o).clusters = s.clusters := by
  unfold Chip.sendHost; split <;> rfl

@[simp] theorem Chip.still_signal (fn vec : Nat) : (s.signal fn vec).still = s.still := by
  simp only [Chip.signal]
  split
  · split <;> rfl
  · simp
@[simp] theorem Chip.clusters_signal (fn vec : Nat) : (s.signal fn vec).clusters = s.clusters := by
  simp only [Chip.signal]
  split
  · split <;> rfl
  · simp

/-- What is done for each enabled gable keeps what it keeps for one. -/
theorem Chip.eachGable_keeps {γ : Type} (g : Chip → γ) {f : Chip → Nat → Chip} (h : ∀ s t, g (f s t) = g s) :
    g (s.eachGable f) = g s :=
  foldl_keeps g fun s p => h s p.1

/-! ### A halt (R495, R603) -/

@[simp] theorem Chip.still_haltChange (was : Bool) : (Chip.haltChange was s).still = s.still := by
  unfold Chip.haltChange
  split
  · rfl
  · split
    · rw [Chip.still_signal, Chip.still_syncHolds, Chip.eachGable_keeps _ Chip.still fun s t => s.still_openWindow t _]
      rfl
    · rw [Chip.still_signal, Chip.still_syncHolds, Chip.eachGable_keeps _ Chip.still fun s t => s.still_closeWindow t _]
      rfl

/-- A halt lists no cluster that was not listed. -/
theorem Chip.clusters_haltChange (was : Bool) (h : s.clusters = []) : (Chip.haltChange was s).clusters = [] := by
  unfold Chip.haltChange
  split
  · exact h
  · split
    · simp [Chip.eachGable_keeps _ Chip.clusters, h, SMap.mapVals]
    · simp [Chip.eachGable_keeps _ Chip.clusters, h]

@[simp] theorem Chip.still_raiseFatalHalt : s.raiseFatalHalt.still = s.still := by
  unfold Chip.raiseFatalHalt
  rw [Chip.still_haltChange]
  rfl

theorem Chip.clusters_raiseFatalHalt (h : s.clusters = []) : s.raiseFatalHalt.clusters = [] :=
  Chip.clusters_haltChange _ _ h

/-! ### A fault of the POWER page (R469, R470) -/

theorem bit_setBit_of_bit {w : W} {i j : Nat} (h : bit w j = true) : bit (setBit w i) j = true := by
  simp only [bit, setBit] at h ⊢
  simp [h]

section PowerFault

variable (b : Nat) (cls : Option ErrClass) (detail tint : Nat) (patrol : Bool)

theorem Chip.raiseWith_power_of_bit (h : bit s.powerPage.fault b = true) :
    s.raiseWith .power b cls detail tint patrol = s := by
  simp [Chip.raiseWith, Chip.page, h]

/-- A fault of the POWER page changes that page; the halt of an ENGINE-FATAL one follows. -/
theorem Chip.raiseWith_power_of_not_bit (h : bit s.powerPage.fault b = false) :
    ∃ rs, s.raiseWith .power b cls detail tint patrol =
      if cls = some .engineFatal then (s.modPage .power fun p => p.raised b rs).raiseFatalHalt
      else s.modPage .power fun p => p.raised b rs := by
  simp only [Chip.raiseWith, Chip.page, h, Bool.false_eq_true, if_false]
  cases cls with
  | none => exact ⟨_, rfl⟩
  | some c => cases c <;> exact ⟨_, rfl⟩

/-- A fault of the POWER page sets its bit and clears none, and changes nothing else that lies still. -/
theorem Chip.raiseWith_power_still (hb : b < 64) :
    ∃ q : Page, (s.raiseWith .power b cls detail tint patrol).still = { s.still with powerPage := q } ∧
      bit q.fault b = true ∧ ∀ i, bit s.powerPage.fault i = true → bit q.fault i = true := by
  cases h : bit s.powerPage.fault b with
  | true => rw [s.raiseWith_power_of_bit b cls detail tint patrol h]; exact ⟨s.powerPage, rfl, h, fun _ => id⟩
  | false =>
    obtain ⟨rs, ht⟩ := s.raiseWith_power_of_not_bit b cls detail tint patrol h
    refine ⟨s.powerPage.raised b rs, ?_, bit_setBit_same _ hb, fun i => bit_setBit_of_bit⟩
    rw [ht]
    split
    · rw [Chip.still_raiseFatalHalt]; rfl
    · rfl

theorem Chip.clusters_raiseWith_power (hc : s.clusters = []) :
    (s.raiseWith .power b cls detail tint patrol).clusters = [] := by
  cases h : bit s.powerPage.fault b with
  | true => rw [s.raiseWith_power_of_bit b cls detail tint patrol h, hc]
  | false =>
    obtain ⟨rs, ht⟩ := s.raiseWith_power_of_not_bit b cls detail tint patrol h
    rw [ht]
    split
    exacts [Chip.clusters_raiseFatalHalt _ hc, hc]

end PowerFault

end StillRules

end Sys2Proof.Machine
end

section
/-! O50: a bay that latches off and is relit (R28, R535, R536, R541). -/

namespace Sys2Proof.Machine

open Sys2Proof

/-! ### Places -/

/-- The twelve clusters of a bay lie in it (R17 to R19). -/
theorem clBay_of_mem_bayClusters {b cl : Nat} (h : cl ∈ bayClusters b) : clBay cl = b := by
  simp only [bayClusters, List.mem_map, List.mem_range] at h
  obtain ⟨j, hj, rfl⟩ := h
  have hcol : b / 4 % 12 < 12 := Nat.mod_lt _ (by decide)
  generalize hx : b / 4 % 12 * 8 + b % 4 % 2 * 4 + j % 4 = x
  generalize hy : b / 4 / 12 * 6 + b % 4 / 2 * 3 + j / 4 = y
  have hcx : clX (clAt x y) = x := by unfold clX clAt; omega
  have hcy : clY (clAt x y) = y := by unfold clY clAt; omega
  have hfield : y / 6 * 12 + x / 8 = b / 4 := by omega
  have hplace : y % 6 / 3 * 2 + x % 8 / 4 = b % 4 := by omega
  rw [clBay, clField, clBayK, hcx, hcy, hfield, hplace]
  omega

theorem clBay_ne_of_mem_bayLinks {b : Nat} {p : Nat × Nat} (h : p ∈ bayLinks b) : clBay p.1 ≠ b := by
  simp only [bayLinks, List.mem_flatMap, List.mem_filterMap] at h
  obtain ⟨cl, -, q, -, hq⟩ := h
  split at hq
  · split at hq
    · contradiction
    · cases hq; assumption
  · contradiction

/-! ### Bays as the ownership lights them (R539) -/

/-- A supplied bay takes the state its ownership gives it; no other bay changes. -/
theorem Chip.bay_lightBays (s : Chip) (b : Nat) :
    s.lightBays.bay b =
      if (s.bay b).supplied then { s.bay b with power := if s.wantsLit b then .lit else .shaded } else s.bay b := by
  rw [Chip.bay, Chip.lightBays, SMap.get_mapVals]
  by_cases hk : b ∈ SMap.keys s.bays
  · rw [if_pos hk]; rfl
  · have hunlit : s.bay b = {} := SMap.get_unlisted (α := Bay) {} s.bays b hk
    simp [hk, hunlit, Bay.supplied]

@[simp] theorem Chip.outside_lightBays (s : Chip) : s.lightBays.outside = s.outside := rfl

/-! ### What cluster and bay lose -/

/-- A cluster `x` that has lost what it held when it was `x0`, but for its commitment and its marks. -/
def Cluster.LostFrom (x0 x : Cluster) : Prop :=
  x.cores = [] ∧ x.store = [] ∧ x.mapEn = false ∧ x.lc = x0.lc ∧ x.unusable = x0.unusable ∧ x.hole = x0.hole

/-- The commitment and the marks of a cluster. -/
def Cluster.marks (x : Cluster) : Option Nat × Bool × Bool := (x.lc, x.unusable, x.hole)

theorem Cluster.LostFrom.marks_eq {x0 x : Cluster} (h : Cluster.LostFrom x0 x) : x.marks = x0.marks := by
  obtain ⟨-, -, -, hlc, hunusable, hhole⟩ := h
  simp [Cluster.marks, hlc, hunusable, hhole]

theorem Cluster.lostFrom_dark {x0 x : Cluster} (h : x.marks = x0.marks) : Cluster.LostFrom x0 x.dark := by
  simp only [Cluster.marks, Prod.mk.injEq] at h
  exact ⟨rfl, rfl, rfl, h⟩

/-- The bay that was `x0` at `now`, latched off: hard within a second of its relight. -/
def Bay.LatchedFrom (x0 : Bay) (now : W) (cause : Nat) (x : Bay) : Prop :=
  x.power = (if x0.relitAt.any fun r => decide ((now - r).toNat ≤ 1000000000) then .latchedHard else .latched) ∧
    x.latchCause = cause ∧ x.stack = [] ∧ x.tint = x0.tint

theorem Bay.LatchedFrom.not_supplied {x0 x : Bay} {now : W} {cause : Nat} (h : Bay.LatchedFrom x0 now cause x) :
    x.supplied = false := by
  obtain ⟨hpower, -⟩ := h
  rw [Bay.supplied, hpower]
  split <;> rfl

section LatchRules

variable (s : Chip)

/-! ### Waits and rises of a core -/

@[simp] theorem Chip.still_modCore (cl p : Nat) (f : Core → Core) : (s.modCore cl p f).still = s.still := rfl

@[simp] theorem Chip.still_endWait (cl p : Nat) : (s.endWait cl p).still = s.still := by
  unfold Chip.endWait; dsimp only; split <;> simp

theorem Chip.clusters_endWait (cl p : Nat) :
    (s.endWait cl p).clusters = (s.modCore cl p fun c => { c with wait := .none }).clusters := by
  unfold Chip.endWait; dsimp only; split <;> simp

@[simp] theorem Chip.cl_endWait_other {cl k : Nat} (p : Nat) (h : k ≠ cl) : (s.endWait cl p).cl k = s.cl k := by
  rw [Chip.cl, s.clusters_endWait]; exact s.cl_modCore_other p _ h

@[simp] theorem Chip.marks_endWait (cl p k : Nat) : ((s.endWait cl p).cl k).marks = (s.cl k).marks := by
  rw [Chip.cl, s.clusters_endWait]
  change ((s.modCore cl p fun c => { c with wait := .none }).cl k).marks = _
  by_cases h : k = cl
  · subst h; simp [Chip.modCore, Cluster.marks]
  · simp [h]

@[simp] theorem Chip.still_releaseRises (cl : Nat) : (s.releaseRises cl).still = s.still :=
  foldl_keeps Chip.still fun s p => by split <;> simp

theorem Chip.cl_releaseRises_other {cl k : Nat} (h : k ≠ cl) : (s.releaseRises cl).cl k = s.cl k :=
  foldl_keeps (fun s : Chip => s.cl k) fun s p => by split <;> simp [h]

theorem Chip.marks_releaseRises (cl k : Nat) : ((s.releaseRises cl).cl k).marks = (s.cl k).marks :=
  foldl_keeps (fun s : Chip => (s.cl k).marks) fun s p => by split <;> simp

/-! ### Stretching windows -/

/-- The windows that open and close with a change of levels. -/
theorem Chip.stretchWith_keeps {γ : Type} (g : Chip → γ) (hopen : ∀ s t, g (s.openWindow t .thermal) = g s)
    (hclose : ∀ s t, g (s.closeWindow t .thermal) = g s) (cls : List Nat) (f : Chip → Chip) :
    g (s.stretchWith cls f) = g (f s) :=
  foldl_keeps g fun s cl => by dsimp only; split <;> split <;> simp only [hopen, hclose]

@[simp] theorem Chip.still_stretchWith (cls : List Nat) (f : Chip → Chip) : (s.stretchWith cls f).still = (f s).still :=
  s.stretchWith_keeps Chip.still (fun s t => s.still_openWindow t _) (fun s t => s.still_closeWindow t _) cls f

@[simp] theorem Chip.clusters_stretchWith (cls : List Nat) (f : Chip → Chip) :
    (s.stretchWith cls f).clusters = (f s).clusters :=
  s.stretchWith_keeps Chip.clusters (fun s t => s.clusters_openWindow t _) (fun s t => s.clusters_closeWindow t _) cls f

/-! ### Supply of the clusters -/

/-- The clusters `l` lose what they hold. -/
theorem Chip.lostFrom_darkFold {x0 : Cluster} {k : Nat} (l : List Nat) (hm : (s.cl k).marks = x0.marks)
    (h : k ∈ l ∨ Cluster.LostFrom x0 (s.cl k)) :
    Cluster.LostFrom x0 ((l.foldl (fun s cl => (s.releaseRises cl).modCl cl Cluster.dark) s).cl k) := by
  induction l generalizing s with
  | nil => simpa using h
  | cons cl l ih =>
    have hmarks : ((s.releaseRises cl).cl k).marks = x0.marks := (s.marks_releaseRises cl k).trans hm
    rw [List.foldl_cons]
    by_cases hk : k = cl
    · subst hk
      have hlost := Cluster.lostFrom_dark hmarks
      refine ih _ ?_ (.inr ?_) <;> rw [Chip.cl_modCl, if_pos rfl]
      · exact hlost.marks_eq
      · exact hlost
    · have hcl : ((s.releaseRises cl).modCl cl Cluster.dark).cl k = s.cl k := by
        rw [Chip.cl_modCl, if_neg hk, s.cl_releaseRises_other hk]
      refine ih _ (by rw [hcl]; exact hm) ?_
      rw [hcl]
      exact h.imp_left fun hmem => (List.mem_cons.1 hmem).resolve_left hk

/-! ### Links and chiplets (R328, R394, R433) -/

@[simp] theorem Chip.still_count_cluster (cl off n : Nat) : (s.count (.cluster cl) off n).still = s.still := rfl

@[simp] theorem Chip.cl_count_cluster_other {cl k : Nat} (off n : Nat) (h : k ≠ cl) :
    (s.count (.cluster cl) off n).cl k = s.cl k := by
  simp [Chip.count, Chip.modReg, Chip.modPage, h]

@[simp] theorem Chip.still_raiseWith_cluster (cl b : Nat) (cls : Option ErrClass) (detail tint : Nat) (patrol : Bool) :
    (s.raiseWith (.cluster cl) b cls detail tint patrol).still = s.still := by
  obtain ⟨-, ht⟩ | ⟨rs, ht⟩ := s.raiseWith_cluster cl b cls detail tint patrol <;> rw [ht]
  rfl

@[simp] theorem Chip.still_dropUnrouted (cl : Nat) : (s.dropUnrouted cl).still = s.still := by
  unfold Chip.dropUnrouted; dsimp only; split <;> rfl

@[simp] theorem Chip.cl_dropUnrouted_other {cl k : Nat} (h : k ≠ cl) : (s.dropUnrouted cl).cl k = s.cl k := by
  unfold Chip.dropUnrouted; dsimp only; split <;> simp [Chip.modRouter, h]

@[simp] theorem Chip.still_endOut (cl p : Nat) : (s.endOut cl p).still = s.still := by
  unfold Chip.endOut Chip.raise; dsimp only; split <;> simp [Chip.modLink, Chip.modRouter]

/-- The end of a link changes its own cluster alone. -/
@[simp] theorem Chip.cl_endOut_other {cl k : Nat} (p : Nat) (h : k ≠ cl) : (s.endOut cl p).cl k = s.cl k := by
  unfold Chip.endOut Chip.raise; dsimp only; split <;> simp [Chip.modLink, Chip.modRouter, h]

/-- The links of a bay that go OUT at the neighbouring routers leave the bay's own clusters. -/
theorem Chip.cl_bayLinks_endOut {b k : Nat} (l : List (Nat × Nat)) (hl : ∀ p ∈ l, clBay p.1 ≠ b) (hk : clBay k = b) :
    (l.foldl (fun s p => s.endOut p.1 p.2) s).cl k = s.cl k := by
  induction l generalizing s with
  | nil => rfl
  | cons p l ih =>
    have hp : k ≠ p.1 := fun he => hl p (by simp) (he ▸ hk)
    rw [List.foldl_cons, ih _ fun q hq => hl q (List.mem_cons_of_mem _ hq), s.cl_endOut_other p.2 hp]

section Chiplet

variable {γ : Type} {g : Chip → γ}

/-- A link of an eave port that goes OUT changes the ports alone. -/
theorem Chip.evLinkOut_keeps (hg : ∀ s es, g { s with eaves := es } = g s) (p l : Nat) : g (s.evLinkOut p l) = g s := by
  have hraise (s : Chip) : g (s.raise (.eave p) 1) = g s := by
    simp only [Chip.raise, Chip.raiseWith]
    split
    · rfl
    · exact hg s _
  exact (foldl_keeps g fun s q => hg s _).trans ((hraise _).trans (hg s _))

/-- What a router that is a hole means for its chiplet lies in the ports and the host link. -/
theorem Chip.chipletOff_keeps (he : ∀ s es, g { s with eaves := es } = g s) (hl : ∀ s l, g { s with link := l } = g s)
    (cl : Nat) : g (s.chipletOff cl) = g s := by
  have hport (s : Chip) : g (s.portOff cl) = g s := by
    unfold Chip.portOff
    split
    · rfl
    · exact foldl_keeps g fun s l => by split; exacts [rfl, s.evLinkOut_keeps he _ l]
  have hcur (s : Chip) : g (s.followCur cl) = g s := by
    unfold Chip.followCur
    extract_lets e moved
    have hmoved : g moved = g s := by
      dsimp only [moved]
      split
      · split
        exacts [rfl, he s _]
      · rfl
    split
    exacts [(hl moved _).trans hmoved, hmoved]
  have hhib (s : Chip) : g (s.hibOff cl) = g s := by
    unfold Chip.hibOff
    dsimp only
    split
    exacts [hl s _, rfl]
  rw [Chip.chipletOff, hhib, hcur, hport]

end Chiplet

@[simp] theorem Chip.still_chipletOff (cl : Nat) : (s.chipletOff cl).still = s.still :=
  s.chipletOff_keeps (fun _ _ => rfl) (fun _ _ => rfl) cl

@[simp] theorem Chip.clusters_chipletOff (cl : Nat) : (s.chipletOff cl).clusters = s.clusters :=
  s.chipletOff_keeps (fun _ _ => rfl) (fun _ _ => rfl) cl

/-! ### The report of a latch (R535) -/

/-- The report changes neither bays nor clusters, and BAY_LATCH reads 1 after it. -/
theorem Chip.reportLatch_spec (b : Nat) :
    (s.reportLatch b).bays = s.bays ∧ (s.reportLatch b).clusters = s.clusters ∧
      bit (s.reportLatch b).powerPage.fault 0 = true := by
  have hraise (t : Nat) : ∃ f : W, bit f 0 = true ∧
      (let u := s.raiseWith .power 0 (some .contained) 0 t false
       (u.bays, u.clusters, u.powerPage.fault) = (s.bays, s.clusters, f)) := by
    cases h : bit s.powerPage.fault 0 with
    | true => exact ⟨s.powerPage.fault, h, by rw [s.raiseWith_power_of_bit 0 _ _ _ _ h]⟩
    | false =>
      obtain ⟨rs, hrs⟩ := s.raiseWith_power_of_not_bit 0 (some .contained) 0 t false h
      exact ⟨setBit s.powerPage.fault 0, bit_setBit_same _ (by decide), by rw [hrs]; rfl⟩
  have hne : s.latchTints b ≠ [] := by simp [Chip.latchTints]
  unfold Chip.reportLatch
  dsimp only
  split
  · contradiction
  · rename_i t ts _
    obtain ⟨f, hf, hu⟩ := hraise t
    have hfold := foldl_keeps (fun x : Chip => (x.bays, x.clusters, x.powerPage.fault))
      (f := fun x t => x.modPage .power fun p =>
        { p with reports := p.reports ++ [{ bit := 0, cls := .contained, time := x.now, tint := t }] })
      (l := if bit s.powerPage.fault 0 then t :: ts else ts) (s := s.raiseWith .power 0 (some .contained) 0 t false)
      fun _ _ => rfl
    simp only [hu, Prod.mk.injEq] at hfold
    obtain ⟨hbays, hclusters, hfault⟩ := hfold
    exact ⟨hbays, hclusters, by rw [hfault]; exact hf⟩

/-! ### The end of a save (R511, R512, R541) -/

@[simp] theorem Chip.still_setPhase (cl : Nat) (p : SavePhase) : (s.setPhase cl p).still = s.still := rfl
@[simp] theorem Chip.still_setReg_ctu (cl off : Nat) (v : W) : (s.setReg (.ctu cl) off v).still = s.still := rfl

/-- The cores of cluster `cl` that the end of a failed save stops. -/
def Chip.stopSaved (s : Chip) (cl : Nat) : Chip :=
  (s.cl cl).mappedCores.foldl (fun s p =>
    if (s.core cl p).run = .running then
      (s.endWait cl p).modCore cl p fun c => { c with run := .stopped, cause := .host }
    else s) s

@[simp] theorem Chip.still_stopSaved (cl : Nat) : (s.stopSaved cl).still = s.still :=
  foldl_keeps Chip.still fun s p => by split <;> simp

/-- Only cores that the map of the cluster gives stop. -/
theorem Chip.cl_stopSaved {cl k : Nat} (h : k = cl → (s.cl cl).mapEn = false) : (s.stopSaved cl).cl k = s.cl k := by
  by_cases hk : k = cl
  · simp [Chip.stopSaved, Cluster.mappedCores, h hk]
  · exact foldl_keeps (fun s : Chip => s.cl k) fun s p => by split <;> simp [hk]

/-- Cluster `cl` when the save of its gable ends FAILED. -/
def Chip.failSaved (s : Chip) (cl : Nat) : Chip :=
  Chip.stopSaved (if (s.cl cl).ctu.phase = .saved then
    (s.setPhase cl .failed).setReg (.ctu cl) Off.CTU_SAVE_TIME (s.clTime cl) else s) cl

@[simp] theorem Chip.still_failSaved (cl : Nat) : (s.failSaved cl).still = s.still := by
  unfold Chip.failSaved; split <;> simp

theorem Cluster.LostFrom.failSaved {s : Chip} {x0 : Cluster} {k : Nat} (h : Cluster.LostFrom x0 (s.cl k)) (cl : Nat) :
    Cluster.LostFrom x0 ((s.failSaved cl).cl k) := by
  have hphase : Cluster.LostFrom x0 (Chip.cl (if (s.cl cl).ctu.phase = .saved then
      (s.setPhase cl .failed).setReg (.ctu cl) Off.CTU_SAVE_TIME (s.clTime cl) else s) k) := by
    split
    · by_cases hk : k = cl
      · subst hk; simpa [Chip.setReg, Chip.modPage, Chip.setPhase, Cluster.LostFrom] using h
      · simpa [Chip.setReg, Chip.modPage, Chip.setPhase, hk] using h
    · exact h
  rw [Chip.failSaved, Chip.cl_stopSaved]
  · exact hphase
  · rintro rfl
    obtain ⟨-, -, hmap, -⟩ := hphase
    exact hmap

theorem Cluster.LostFrom.foldl_failSaved {x0 : Cluster} {k : Nat} (l : List Nat) {s : Chip}
    (h : Cluster.LostFrom x0 (s.cl k)) : Cluster.LostFrom x0 ((l.foldl Chip.failSaved s).cl k) := by
  induction l generalizing s with
  | nil => exact h
  | cons cl l ih => exact ih (h.failSaved cl)

/-- A save goes on, or ends with its gable DORMANT or ACTIVE. -/
theorem Chip.saveOver_cases (t : Nat) :
    s.saveOver t = s ∨
      (∃ f v, s.saveOver t = ((s.modGable t f).setReg (.gable t) Off.GB_PREEMPT_TIME v).lightBays) ∨
      ∃ f, s.saveOver t = ((((s.gableLive t).foldl Chip.failSaved s).modGable t f).closeWindow t .preempt).syncHolds := by
  unfold Chip.saveOver
  split
  · exact .inl rfl
  · split
    · exact .inr (.inl ⟨_, _, rfl⟩)
    · exact .inr (.inr ⟨_, rfl⟩)

theorem Chip.powerPage_saveOver (t : Nat) : (s.saveOver t).powerPage = s.powerPage := by
  obtain h | ⟨f, v, h⟩ | ⟨f, h⟩ := s.saveOver_cases t <;> rw [h]
  · rfl
  · have hstill : ((((s.gableLive t).foldl Chip.failSaved s).modGable t f).closeWindow t .preempt).syncHolds.still =
        s.still := by
      simp [foldl_keeps Chip.still fun s cl => s.still_failSaved cl]
    obtain ⟨-, -, hpage, -⟩ := Chip.parts_of_still hstill
    exact hpage

/-- A bay that is not supplied stays as it is. -/
theorem Chip.bay_saveOver (t : Nat) {b : Nat} (hb : (s.bay b).supplied = false) : (s.saveOver t).bay b = s.bay b := by
  obtain h | ⟨f, v, h⟩ | ⟨f, h⟩ := s.saveOver_cases t <;> rw [h]
  · rw [Chip.bay_lightBays]
    exact if_neg (Bool.eq_false_iff.1 hb : ¬ (s.bay b).supplied = true)
  · apply Chip.bay_of_still
    simp [foldl_keeps Chip.still fun s cl => s.still_failSaved cl]

/-- A cluster that has lost what it held stays so. -/
theorem Cluster.LostFrom.saveOver {s : Chip} {x0 : Cluster} {k : Nat} (hk : Cluster.LostFrom x0 (s.cl k)) (t : Nat) :
    Cluster.LostFrom x0 ((s.saveOver t).cl k) := by
  obtain h | ⟨f, v, h⟩ | ⟨f, h⟩ := s.saveOver_cases t <;> rw [h]
  · exact hk
  · exact hk
  · have hcl : ((((s.gableLive t).foldl Chip.failSaved s).modGable t f).closeWindow t .preempt).syncHolds.clusters =
        ((s.gableLive t).foldl Chip.failSaved s).clusters := by simp
    rw [Chip.cl, hcl]
    exact hk.foldl_failSaved _

/-! ### A latch (R28, R535) -/

/-- Bay `b` last came up within the second before now (R536). -/
def Chip.relitLately (s : Chip) (b : Nat) : Bool := (s.bay b).relitAt.any fun r => decide ((s.now - r).toNat ≤ 1000000000)

/-- The supply of bay `b` goes off. -/
def Chip.supplyOff (s : Chip) (b cause : Nat) (power : BayPower) : Chip :=
  ((bayClusters b).foldl (fun s cl => (s.releaseRises cl).modCl cl Cluster.dark) s).modBay b fun x => {
    power := power, latchCause := cause, relitAt := x.relitAt, untested := x.untested, tint := x.tint
    retired := x.retired, gain := x.gain, offset := x.offset }

theorem Chip.latchOff_of_supplied {b : Nat} (cause : Nat) (hs : (s.bay b).supplied = true) (hp : s.powered = true) :
    s.latchOff b cause = ((bayClusters b).foldl Chip.chipletOff ((bayLinks b).foldl (fun s p => s.endOut p.1 p.2)
      (s.stretchWith (bayClusters b) fun s' =>
        s'.supplyOff b cause (if s.relitLately b then .latchedHard else .latched)))).reportLatch b := by
  rw [Chip.latchOff, if_neg (by simp [hs, hp])]
  dsimp only [Chip.supplyOff, Chip.relitLately]
  obtain hr | ⟨r, hr⟩ := Option.eq_none_or_eq_some (s.bay b).relitAt
  · simp only [hr, Option.any_none]
  · simp only [hr, Option.any_some]

/-- What a latch leaves: the bay is off, its clusters have lost what they held, and BAY_LATCH reads 1. -/
def Chip.LatchedOff (s t : Chip) (b cause : Nat) : Prop :=
  Bay.LatchedFrom (s.bay b) s.now cause (t.bay b) ∧ bit t.powerPage.fault 0 = true ∧
    ∀ cl ∈ bayClusters b, Cluster.LostFrom (s.cl cl) (t.cl cl)

/-- A bay and its clusters stay as they are when links outside it go OUT and its latch is reported. -/
theorem Chip.linksOut_reportLatch_spec (b : Nat) (l : List Nat) {ks : List (Nat × Nat)} (hks : ∀ p ∈ ks, clBay p.1 ≠ b)
    {t : Chip} (ht : (l.foldl Chip.chipletOff (ks.foldl (fun s p => s.endOut p.1 p.2) s)).reportLatch b = t) :
    t.bay b = s.bay b ∧ bit t.powerPage.fault 0 = true ∧ ∀ cl, clBay cl = b → t.cl cl = s.cl cl := by
  generalize hout : ks.foldl (fun s p => s.endOut p.1 p.2) s = out at ht
  have houtStill : out.still = s.still := by
    rw [← hout]; exact foldl_keeps Chip.still fun s p => s.still_endOut p.1 p.2
  have houtCl (cl : Nat) (hcl : clBay cl = b) : out.cl cl = s.cl cl := by
    rw [← hout]; exact s.cl_bayLinks_endOut ks hks hcl
  generalize hchip : l.foldl Chip.chipletOff out = chip at ht
  have hchipStill : chip.still = out.still := by rw [← hchip]; exact foldl_keeps Chip.still Chip.still_chipletOff
  have hchipClusters : chip.clusters = out.clusters := by
    rw [← hchip]; exact foldl_keeps Chip.clusters Chip.clusters_chipletOff
  obtain ⟨hbays, hclusters, hfault⟩ := chip.reportLatch_spec b
  rw [ht] at hbays hclusters hfault
  refine ⟨?_, hfault, fun cl hcl => ?_⟩
  · rw [Chip.bay, hbays, Chip.bays_of_still hchipStill, Chip.bays_of_still houtStill, Chip.bay]
  · rw [← houtCl cl hcl, Chip.cl, hclusters, hchipClusters, Chip.cl]

theorem Chip.latchOff_spec {b : Nat} (cause : Nat) (hs : (s.bay b).supplied = true) (hp : s.powered = true) :
    s.LatchedOff (s.latchOff b cause) b cause := by
  have hoff := s.latchOff_of_supplied cause hs hp
  generalize hpower : (if s.relitLately b then BayPower.latchedHard else .latched) = power at hoff
  have hstill := s.still_stretchWith (bayClusters b) fun s' => s'.supplyOff b cause power
  have hclusters := s.clusters_stretchWith (bayClusters b) fun s' => s'.supplyOff b cause power
  generalize s.stretchWith (bayClusters b) (fun s' => s'.supplyOff b cause power) = off at *
  obtain ⟨hbay, hfault, hcl⟩ := off.linksOut_reportLatch_spec b (bayClusters b)
    (fun p hp => clBay_ne_of_mem_bayLinks hp) hoff.symm
  refine ⟨?_, hfault, fun cl hmem => ?_⟩
  · have hdark (l : List Nat) : Chip.still (l.foldl (fun s cl => (s.releaseRises cl).modCl cl Cluster.dark) s) = s.still :=
      foldl_keeps Chip.still fun s cl => ((s.releaseRises cl).still_modCl cl _).trans (s.still_releaseRises cl)
    rw [hbay, Chip.bay_of_still hstill, Chip.supplyOff, Chip.bay_modBay, if_pos rfl, Chip.bay_of_still (hdark _)]
    exact ⟨hpower.symm, rfl, rfl, rfl⟩
  · have hsupply : off.cl cl = (s.supplyOff b cause power).cl cl := by rw [Chip.cl, hclusters, Chip.cl]
    rw [hcl cl (clBay_of_mem_bayClusters hmem), hsupply, Chip.supplyOff, Chip.cl_modBay_frame]
    exact s.lostFrom_darkFold (bayClusters b) rfl (.inl hmem)

/-- The end of a save that the latch brings changes nothing of what the latch leaves. -/
theorem Chip.latched_spec {b : Nat} (cause : Nat) (hs : (s.bay b).supplied = true) (hp : s.powered = true) :
    s.LatchedOff (s.latched b cause) b cause := by
  obtain ⟨hbay, hfault, hlost⟩ := s.latchOff_spec cause hs hp
  have hsaved : s.LatchedOff ((s.latchOff b cause).saveOver (s.bay b).tint) b cause := by
    refine ⟨?_, ?_, fun cl hcl => (hlost cl hcl).saveOver _⟩
    · rw [Chip.bay_saveOver _ _ hbay.not_supplied]; exact hbay
    · rw [Chip.powerPage_saveOver]; exact hfault
  exact hsaved

end LatchRules

section LatchCommands

variable (s : State)

theorem exec_bayLatch {b : Nat} (hb : b < 336) : exec (.bayLatch b) s = .next { s with toChip := s.toChip.latched b 1 } :=
  State.run_onUnit (f := fun x => onUnit (b < 336) (x.latched b 1)) (decide_eq_true hb) rfl

theorem exec_thermalLatch {cl n : Nat} (hcl : cl < 4032) (hn : 920 ≤ n) (hg : s.guarded (clField cl) = true) :
    exec (.thermalLatch cl n) s = .next { s with toChip := s.toChip.latched (clBay cl) 2 } := by
  have hlatch : (if n < 920 || !s.guarded (clField cl) then s.toChip else s.toChip.latched (clBay cl) 2) =
      s.toChip.latched (clBay cl) 2 := by
    rw [hg]; exact if_neg (by simpa using hn)
  rw [← hlatch]
  exact State.run_onUnit (f := fun x => onUnit (cl < 4032)
    (if n < 920 || !x.guarded (clField cl) then x else x.latched (clBay cl) 2)) (decide_eq_true hcl) rfl

end LatchCommands

/-! ### A relight (R536, R539) -/

/-- An access to a page that the host reaches is carried out at once. -/
theorem Chip.cmdWrite_of_reaches {s : Chip} {pg : PageRef} (h : Reaches s pg) (off : Nat) (f : Chip → Chip) :
    s.cmdWrite pg off f = f (s.countAccess pg true) := by
  obtain ⟨hon, hreach, hcheck⟩ := h
  have hsettled : s.finishCheck pg = s := by simp [Chip.finishCheck, hcheck]
  simp [Chip.cmdWrite, Chip.hostAccess, hon, hreach, hsettled, hcheck]

/-- Whether ownership wants a bay Lit depends on its tint, the gables and the inlet. -/
theorem Chip.wantsLit_congr {s t : Chip} {b : Nat} (hgables : t.gables = s.gables) (hinlet : t.module.inlet = s.module.inlet)
    (htint : (t.bay b).tint = (s.bay b).tint) : t.wantsLit b = s.wantsLit b := by
  simp [Chip.wantsLit, Chip.inCorridor, Chip.maskBit, Chip.reg, Chip.page, Chip.gable, hgables, hinlet, htint]

section Relight

variable {s : Chip} {v : W}

theorem Chip.relightWrite_of_latchedHard (hv : bit v 0 = true) (hb : fld (s.reg .power Off.PW_BSEL) 0 9 < 336)
    (hheld : s.bayHeld (fld (s.reg .power Off.PW_BSEL) 0 9) = false)
    (hp : (s.bay (fld (s.reg .power Off.PW_BSEL) 0 9)).power = .latchedHard) :
    s.relightWrite v = s.refuse .power 0x0501 Off.PW_BAY_CMD := by
  simp [Chip.relightWrite, hv, Nat.not_le.2 hb, hheld, hp]

/-- A latched bay of no enabled gable comes up UNTESTED, in the state its ownership gives it. -/
theorem Chip.bay_relightWrite (hv : bit v 0 = true) (hb : fld (s.reg .power Off.PW_BSEL) 0 9 < 336)
    (hheld : s.bayHeld (fld (s.reg .power Off.PW_BSEL) 0 9) = false)
    (hp : (s.bay (fld (s.reg .power Off.PW_BSEL) 0 9)).power = .latched) :
    (s.relightWrite v).bay (fld (s.reg .power Off.PW_BSEL) 0 9) = { s.bay (fld (s.reg .power Off.PW_BSEL) 0 9) with
      power := if s.wantsLit (fld (s.reg .power Off.PW_BSEL) 0 9) then .lit else .shaded
      latchCause := 0, relitAt := some s.now, untested := true } := by
  generalize hbs : fld (s.reg .power Off.PW_BSEL) 0 9 = b at *
  generalize hup : s.modBay b (fun x =>
    { x with power := .shaded, latchCause := 0, relitAt := some s.now, untested := true }) = up
  have hrelit : s.relightWrite v = ((bayClusters b).foldl (fun s cl => s.modRouter cl fun r =>
      { r with up := bit s.bringup.done 6 && !(s.cl cl).hole }) up).lightBays := by
    rw [← hup]
    simp [Chip.relightWrite, hbs, hv, Nat.not_le.2 hb, hheld, hp]
  generalize bayClusters b = l at hrelit
  generalize hrouted : l.foldl (fun s cl => s.modRouter cl fun r =>
    { r with up := bit s.bringup.done 6 && !(s.cl cl).hole }) up = routed at hrelit
  have hbay : routed.bay b = { s.bay b with power := .shaded, latchCause := 0, relitAt := some s.now, untested := true } := by
    have hstill : routed.still = up.still := by rw [← hrouted]; exact foldl_keeps Chip.still fun _ _ => rfl
    rw [Chip.bay_of_still hstill, ← hup, Chip.bay_modBay, if_pos rfl]
  have hwants : routed.wantsLit b = s.wantsLit b := by
    have hkeep : (routed.gables, routed.module) = (up.gables, up.module) := by
      rw [← hrouted]; exact foldl_keeps (fun x : Chip => (x.gables, x.module)) fun _ _ => rfl
    obtain ⟨hgables, hmodule⟩ := Prod.mk.inj hkeep
    rw [← hup] at hgables hmodule
    exact Chip.wantsLit_congr hgables (by rw [hmodule]; rfl) (by rw [hbay])
  rw [hrelit, Chip.bay_lightBays, hwants, hbay]
  exact if_pos rfl

end Relight

theorem Chip.countAccess_power (s : Chip) (write : Bool) : ∃ p, s.countAccess .power write = { s with hib := p } := ⟨_, rfl⟩

/-- A relight that reaches its page carries out the write, once the access is counted on the HIB page. -/
theorem exec_relight {s : State} {v : W} (h : Reaches s.toChip .power) (hv : bit v 0 = true) :
    ∃ p, exec (.relight v) s = .next { s with toChip := Chip.relightWrite { s.toChip with hib := p } v } := by
  obtain ⟨p, hp⟩ := s.toChip.countAccess_power true
  refine ⟨p, State.run_of_next (f := fun x => .next (if bit v 0 then
    x.cmdWrite .power Off.PW_BAY_CMD fun x => x.relightWrite v else x)) ?_⟩
  rw [if_pos hv, Chip.cmdWrite_of_reaches h, hp]

end Sys2Proof.Machine
end

section
/-! O50: readings of the coolant and of the input, and the loss of the 48 V bus (R537). -/

namespace Sys2Proof.Machine

open Sys2Proof

/-! ### The end of a gable, which a cold reset brings (R503, R566, R597) -/

section EndGable

variable (s : Chip)

@[simp] theorem Chip.outside_modGable (t : Nat) (f : Gable → Gable) : (s.modGable t f).outside = s.outside := rfl
@[simp] theorem Chip.outside_modEave (p : Nat) (f : Eave → Eave) : (s.modEave p f).outside = s.outside := rfl
@[simp] theorem Chip.outside_modPage_sec (f : Page → Page) : (s.modPage .sec f).outside = s.outside := rfl
@[simp] theorem Chip.outside_setReg_sec (off : Nat) (v : W) : (s.setReg .sec off v).outside = s.outside := rfl
@[simp] theorem Chip.outside_count_sec (off n : Nat) : (s.count .sec off n).outside = s.outside := rfl

/-- A change of the security block that leaves the counters in flash. -/
theorem Chip.outside_modSec {f : Sec → Sec} (h : ∀ x, (f x).counters = x.counters) : (s.modSec f).outside = s.outside := by
  simp [Chip.outside, Chip.modSec, h]

/-- A key that is loaded or refused leaves the counters in flash. -/
theorem Chip.outside_keyRefuse (code : Nat) : (s.keyRefuse code).outside = s.outside := rfl

theorem Chip.outside_keyAccept (v : W) (bays : List Nat) (p : BitVec 704) : (s.keyAccept v bays p).outside = s.outside := by
  unfold Chip.keyAccept
  dsimp only
  split
  · simp [Chip.outside_modSec, Chip.modSession]
  · simp [Chip.outside_modSec]

theorem Chip.outside_keyOperate (v : W) (bays : List Nat) (blob : BitVec 4096) :
    (s.keyOperate v bays blob).outside = s.outside := by
  unfold Chip.keyOperate
  dsimp only
  split
  · exact s.outside_keyRefuse _
  · exact s.outside_keyAccept v bays _
  · exact s.outside_keyRefuse _

theorem Chip.outside_keySwapped : s.keySwapped.outside = s.outside := by
  unfold Chip.keySwapped
  split
  · rfl
  · exact foldl_keeps Chip.outside fun s b => by split <;> rfl

/-- The blob that waited is judged, and the keys that waited are swapped. -/
theorem Chip.outside_settleLoad (t : Nat) : (s.settleLoad t).outside = s.outside := by
  unfold Chip.settleLoad
  extract_lets mine judged
  have hjudged : judged.outside = s.outside := by
    dsimp only [judged]
    split
    · simp [Chip.outside_keyOperate, Chip.outside_modSec]
    · rfl
  clear_value judged
  split
  · split
    exacts [judged.outside_keySwapped.trans hjudged, hjudged]
  · exact hjudged

theorem Chip.outside_endPeriod (t reason : Nat) (tEnd : W) : (s.endPeriod t reason tEnd).outside = s.outside := by
  have hend (s : Chip) : (s.intervalEnd t).outside = s.outside := by
    unfold Chip.intervalEnd
    dsimp only
    split <;> rfl
  exact (foldl_keeps Chip.outside fun s _ => hend s : (s.intervalEnds t).outside = s.outside)

theorem Chip.still_restClocks (bs : List Nat) : (s.restClocks bs).still = s.still :=
  foldl_keeps Chip.still fun s b => by
    split
    · rfl
    · exact foldl_keeps Chip.still fun _ _ => rfl

theorem Chip.still_corridorBit (t b : Nat) (on : Bool) : (s.corridorBit t b on).still = s.still :=
  foldl_keeps Chip.still fun _ _ => rfl

@[simp] theorem Chip.outside_modLinkH (f : HostLink → HostLink) : (s.modLinkH f).outside = s.outside := rfl
@[simp] theorem Chip.outside_disableSessions (t : Nat) : (s.disableSessions t).outside = s.outside := rfl

theorem Chip.outside_disableGable (t : Nat) : (s.disableGable t).outside = s.outside := by
  have hbind (s : Chip) (bs : List Nat) :
      (bs.foldl (fun s b => if (s.bay b).tint = t then s.bindBay 0 b else s) s).outside = s.outside :=
    foldl_keeps Chip.outside fun s b => by split <;> rfl
  have hcorr (s : Chip) (bs : List Nat) : (bs.foldl (fun s b => s.corridorBit t b false) s).outside = s.outside :=
    foldl_keeps Chip.outside fun s b => Chip.outside_of_still (s.still_corridorBit t b false)
  unfold Chip.disableGable
  dsimp only
  rw [Chip.outside_lightBays, Chip.outside_of_still (Chip.still_restClocks _ _), Chip.outside_modGable,
    Chip.outside_disableSessions, Chip.outside_modLinkH, hcorr, Chip.outside_of_still (Chip.still_stretchWith _ _ _), hbind]
  rfl

theorem Chip.outside_endGable (t : Nat) : (s.endGable t).outside = s.outside := by
  unfold Chip.endGable
  dsimp only
  split
  · exact s.outside_settleLoad t
  · rw [Chip.outside_disableGable]
    split
    · rw [Chip.outside_endPeriod, Chip.outside_settleLoad]
    · exact s.outside_settleLoad t

theorem Chip.outside_endGables : s.endGables.outside = s.outside := by
  unfold Chip.endGables
  dsimp only
  rw [Chip.outside_of_still (Chip.still_haltChange _ _)]
  exact foldl_keeps Chip.outside fun s p => s.outside_endGable p.1

/-! ### A cold reset (R566) -/

/-- A cold reset clears the wafer; the module, the counters in flash and the log stay. -/
theorem Chip.coldReset_spec (kind : Nat) :
    (s.coldReset kind).clusters = [] ∧ (s.coldReset kind).still = { s.outside with
      committed := [], bringup := { s.bringup.restart kind with coldStacks := true } } := by
  have hends := s.outside_endGables
  obtain ⟨-, -, -, hbringup⟩ := Chip.parts_of_outside hends
  change s.endGables.bringup = s.bringup at hbringup
  refine ⟨rfl, ?_⟩
  rw [← hends, ← hbringup]
  rfl

end EndGable

/-! ### Readings (R537, R540) -/

/-- A fault of the POWER page's own unit. -/
theorem Chip.raise_power_still (s : Chip) {b : Nat} (hb : b < 64) :
    ∃ q : Page, (s.raise .power b).still = { s.still with powerPage := q } ∧
      bit q.fault b = true ∧ ∀ i, bit s.powerPage.fault i = true → bit q.fault i = true :=
  s.raiseWith_power_still b _ 0 _ false hb

/-- The faults of inlet reading `n`. -/
def Chip.inletFaults (s : Chip) (n : Nat) : Chip :=
  let s := if n > 3000 then s.raise .power 1 else s
  if n > 4000 then s.raise .power 2 else s

theorem Chip.inletFaults_still (s : Chip) (n : Nat) :
    ∃ q : Page, (s.inletFaults n).still = { s.still with powerPage := q } ∧
      (n > 3000 → bit q.fault 1 = true) ∧ (n > 4000 → bit q.fault 2 = true) := by
  obtain ⟨q, hq, hbit, -⟩ := s.raise_power_still (b := 1) (by decide)
  unfold Chip.inletFaults
  by_cases h3 : n > 3000
  · by_cases h4 : n > 4000
    · obtain ⟨q', hq', hbit', hkeep⟩ := (s.raise .power 1).raise_power_still (b := 2) (by decide)
      obtain ⟨-, -, hpage, -⟩ := Chip.parts_of_still hq
      change (s.raise .power 1).powerPage = q at hpage
      refine ⟨q', ?_, fun _ => hkeep 1 (by rw [hpage]; exact hbit), fun _ => hbit'⟩
      simp only [h3, h4, if_true]
      rw [hq', hq]
    · exact ⟨q, by simpa [h3, h4] using hq, fun _ => hbit, fun h => absurd h h4⟩
  · have h4 : ¬ n > 4000 := by omega
    exact ⟨s.powerPage, by simp only [h3, h4, if_false]; rfl, fun h => absurd h h3, fun h => absurd h h4⟩

/-- A bay that nothing lights while the inlet reads above 40 °C. -/
theorem Chip.wantsLit_of_hot {s : Chip} (h : s.module.inlet.getD 0 > 4000) (b : Nat) : s.wantsLit b = false := by
  simp [Chip.wantsLit, h]

section Inlet

variable {s : State} (n : Nat)

/-- The chip with inlet reading `n`. -/
def Chip.withInlet (s : Chip) (n : Nat) : Chip :=
  { s with module := { s.module with inlet := some n, inletHi := decide (n > 3000) } }

theorem exec_inletSample (hs : s.module.standby = true) (hd : s.module.dark = false) :
    exec (.inletSample n) s = .next { s with
      toChip := if n > 4000 ∨ (s.module.inlet.getD 0) > 4000 then ((s.toChip.withInlet n).inletFaults n).lightBays
        else (s.toChip.withInlet n).inletFaults n } := by
  change execInletSample n s = _
  apply State.run_of_next
  rw [if_neg (by simp [hs]), if_neg (by simp [hd])]
  rfl

theorem exec_inletSample_dark (hs : s.module.standby = true) (hd : s.module.dark = true) :
    exec (.inletSample n) s = .next { s with toChip := { s.toChip with module := { s.module with inlet := some n } } } := by
  change execInletSample n s = _
  apply State.run_of_next
  rw [if_neg (by simp [hs]), if_pos hd]

end Inlet

section Input

variable {s : State} {n : Nat}

theorem exec_inputSample_dark (hs : s.module.standby = true) (hd : s.module.dark = true) :
    exec (.inputSample n) s = .next { s with toChip := { s.toChip with module := { s.module with input := some n } } } := by
  change execInputSample n s = _
  apply State.run_of_next
  rw [if_neg (by simp [hs]), if_pos hd]

theorem exec_inputLoss_dark (hs : s.module.standby = true) (hd : s.module.dark = true) (hn : n < 6500 ∨ 9000 < n) :
    exec (.inputLoss n) s = .next { s with toChip := { s.toChip with module := { s.module with input := some n } } } := by
  have hout : (decide (6500 ≤ n) && decide (n ≤ 9000)) = false := by simp; omega
  change execInputLoss n s = _
  apply State.run_of_next
  rw [if_neg (by simp [hs, hout]), if_pos hd]

theorem exec_inputLoss (hs : s.module.standby = true) (hd : s.module.dark = false) (hn : n < 6500 ∨ 9000 < n) :
    exec (.inputLoss n) s = .next { s with toChip := s.toChip.inputGone n } := by
  have hout : (decide (6500 ≤ n) && decide (n ≤ 9000)) = false := by simp; omega
  change execInputLoss n s = _
  apply State.run_of_next
  rw [if_neg (by simp [hs, hout]), if_neg (by simp [hd])]

theorem exec_inputSample_gone (hs : s.module.standby = true) (hd : s.module.dark = false) (hn : n < 6500 ∨ 9000 < n) :
    exec (.inputSample n) s = .next { s with toChip := s.toChip.inputGone n } := by
  have hout : (decide (n < 6500) || decide (n > 9000)) = true := by simpa using hn
  change execInputSample n s = _
  apply State.run_of_next
  rw [if_neg (by simp [hs]), if_neg (by simp [hd]), if_pos hout]

/-- The chip with input reading `n`, between 650 and 900 V. -/
def Chip.withInput (s : Chip) (n : Nat) : Chip :=
  { s with module := { s.module with
      input := some n, bus48 := s.module.bus48 || !inputOut n
      inputBad := if inputOut n then some (s.module.inputBad.getD s.now) else none } }

theorem exec_inputSample (hs : s.module.standby = true) (hd : s.module.dark = false) (hlo : 6500 ≤ n) (hhi : n ≤ 9000) :
    exec (.inputSample n) s = .next { s with toChip := (s.toChip.withInput n).inputCheck } := by
  have hin : (decide (n < 6500) || decide (n > 9000)) = false := by simp; omega
  change execInputSample n s = _
  apply State.run_of_next
  rw [if_neg (by simp [hs]), if_neg (by simp [hd]), if_neg (by simp [hin])]
  rfl

end Input

section InputCheck

variable {s : Chip} {t0 : W}

theorem Chip.inputCheck_of_none (h : s.module.inputBad = none) : s.inputCheck = s := by
  simp [Chip.inputCheck, h]

theorem Chip.inputCheck_of_recent (h : s.module.inputBad = some t0) (ht : (s.now - t0).toNat < 1000000) :
    s.inputCheck = s := by
  simp only [Chip.inputCheck, h, if_pos ht]

theorem Chip.inputCheck_of_due (h : s.module.inputBad = some t0) (ht : 1000000 ≤ (s.now - t0).toNat) :
    s.inputCheck = s.raise .power 3 := by
  simp only [Chip.inputCheck, h, if_neg (Nat.not_lt.2 ht)]

theorem Chip.fault_inputCheck_of_due (h : s.module.inputBad = some t0) (ht : 1000000 ≤ (s.now - t0).toNat) :
    bit s.inputCheck.powerPage.fault 3 = true := by
  obtain ⟨q, hstill, hbit, -⟩ := s.raise_power_still (b := 3) (by decide)
  obtain ⟨-, -, hpage, -⟩ := Chip.parts_of_still hstill
  rw [Chip.inputCheck_of_due h ht, hpage]
  exact hbit

/-- The check of the input changes nothing that lies still but the POWER page. -/
theorem Chip.inputCheck_still (s : Chip) : ∃ q : Page, s.inputCheck.still = { s.still with powerPage := q } := by
  obtain ⟨q, hstill, -, -⟩ := s.raise_power_still (b := 3) (by decide)
  unfold Chip.inputCheck
  split
  · split
    exacts [⟨s.powerPage, rfl⟩, ⟨q, hstill⟩]
  · exact ⟨s.powerPage, rfl⟩

end InputCheck

/-- The 48 V bus goes: the wafer is clear as after a cold reset, and the fault of the input stands. -/
theorem Chip.inputGone_spec (s : Chip) (n : Nat) :
    (s.inputGone n).clusters = [] ∧ ∃ q : Page, bit q.fault 3 = true ∧ (s.inputGone n).still = { s.outside with
      module := { s.module with input := some n, inputBad := none, bus48 := false, haltedBit := false, fatalHalt := false }
      committed := [], bringup := { s.bringup.restart 3 with coldStacks := true }, powerPage := q } := by
  let read : Chip := { s with module := { s.module with input := some n, inputBad := none } }
  obtain ⟨hclusters, hstill⟩ := read.coldReset_spec 3
  let off : Chip := { read.coldReset 3 with module := { (read.coldReset 3).module with bus48 := false } }
  obtain ⟨q, hq, hbit, -⟩ := off.raise_power_still (b := 3) (by decide)
  have hoff : off.still = { (read.coldReset 3).still with
    module := { (read.coldReset 3).still.module with bus48 := false } } := rfl
  refine ⟨off.clusters_raiseWith_power 3 _ 0 _ false hclusters, q, hbit, ?_⟩
  rw [hoff, hstill] at hq
  exact hq

end Sys2Proof.Machine
end

section
/-! O50: the statement. -/

namespace Sys2Proof.Machine

open Sys2Proof

/-! ### What the commands leave -/

section Commands

variable {s : State}

theorem completes_bayLatch {b : Nat} (hb : b < 336) (hs : (s.bay b).supplied = true) (hp : s.powered = true) :
    Completes (.bayLatch b) s fun t => s.LatchedOff t.toChip b 1 :=
  ⟨_, exec_bayLatch s hb, s.toChip.latched_spec 1 hs hp⟩

theorem completes_thermalLatch {cl n : Nat} (hcl : cl < 4032) (hn : 920 ≤ n) (hg : s.guarded (clField cl) = true)
    (hs : (s.bay (clBay cl)).supplied = true) (hp : s.powered = true) :
    Completes (.thermalLatch cl n) s fun t => s.LatchedOff t.toChip (clBay cl) 2 :=
  ⟨_, exec_thermalLatch s hcl hn hg, s.toChip.latched_spec 2 hs hp⟩

/-- The bay that PW_BSEL names. -/
def Chip.selectedBay (s : Chip) : Nat := fld (s.reg .power Off.PW_BSEL) 0 9

section Relight

variable {v : W} (hreach : Reaches s.toChip .power) (hv : bit v 0 = true) (hb : s.selectedBay < 336)
  (hheld : s.bayHeld s.selectedBay = false)

include hreach hv hb hheld

theorem completes_relight_latched (hp : (s.bay s.selectedBay).power = .latched) :
    Completes (.relight v) s fun t =>
      (t.bay s.selectedBay).power = (if s.wantsLit s.selectedBay then .lit else .shaded) ∧
      (t.bay s.selectedBay).untested = true ∧ (t.bay s.selectedBay).relitAt = some s.now := by
  obtain ⟨p, hexec⟩ := exec_relight hreach hv
  have hbay := Chip.bay_relightWrite (s := { s.toChip with hib := p }) hv hb hheld hp
  refine ⟨_, hexec, ?_⟩
  exact ⟨congrArg Bay.power hbay, congrArg Bay.untested hbay, congrArg Bay.relitAt hbay⟩

theorem completes_relight_latchedHard (hp : (s.bay s.selectedBay).power = .latchedHard) :
    Completes (.relight v) s fun t =>
      (t.bay s.selectedBay).power = .latchedHard ∧ t.powerPage.refused = true ∧
      t.powerPage.refusal = refusalWord 0x0501 Off.PW_BAY_CMD 0 := by
  obtain ⟨p, hexec⟩ := exec_relight hreach hv
  rw [Chip.relightWrite_of_latchedHard (s := { s.toChip with hib := p }) hv hb hheld hp] at hexec
  exact ⟨_, hexec, hp, rfl, rfl⟩

end Relight

/-- An inlet reading (R537). -/
theorem completes_inletSample (n : Nat) (hs : s.module.standby = true) (hd : s.module.dark = false) :
    Completes (.inletSample n) s fun t =>
      t.module.inlet = some n ∧ t.module.inletHi = decide (n > 3000) ∧ (n > 3000 → bit t.powerPage.fault 1 = true) ∧
      (n > 4000 → bit t.powerPage.fault 2 = true ∧ ∀ b, (s.bay b).power = .lit → (t.bay b).power = .shaded) ∧
      (n ≤ 4000 → s.module.inlet.getD 0 ≤ 4000 → t.bays = s.bays) := by
  refine ⟨_, exec_inletSample n hs hd, ?_⟩
  obtain ⟨q, hstill, hbit1, hbit2⟩ := (s.toChip.withInlet n).inletFaults_still n
  generalize (s.toChip.withInlet n).inletFaults n = u at hstill ⊢
  obtain ⟨hbays, -, rfl, -⟩ := Chip.parts_of_still hstill
  obtain ⟨hinlet, hhi, -⟩ := Chip.readings_of_still hstill
  have hbay (b : Nat) : u.bay b = s.bay b := by rw [Chip.bay, hbays]; rfl
  by_cases hn : n > 4000
  · have hdark (b : Nat) : u.wantsLit b = false := Chip.wantsLit_of_hot (by rw [hinlet]; exact hn) b
    rw [if_pos (.inl hn)]
    refine ⟨hinlet, hhi, hbit1, fun _ => ⟨hbit2 hn, fun b hlit => ?_⟩, fun h => absurd hn (Nat.not_lt.2 h)⟩
    have hlit' : (u.bay b).supplied = true := by rw [hbay, Bay.supplied, hlit]; rfl
    change (u.lightBays.bay b).power = .shaded
    rw [Chip.bay_lightBays, if_pos hlit', hdark]
    rfl
  · by_cases hwas : s.module.inlet.getD 0 > 4000
    · rw [if_pos (.inr hwas)]
      exact ⟨hinlet, hhi, hbit1, fun h => absurd h hn, fun _ h => absurd hwas (Nat.not_lt.2 h)⟩
    · rw [if_neg (by simp [hn, hwas])]
      exact ⟨hinlet, hhi, hbit1, fun h => absurd h hn, fun _ _ => hbays⟩

/-- An input reading between 650 and 900 V (R537). -/
theorem completes_inputSample {n : Nat} (hs : s.module.standby = true) (hd : s.module.dark = false) (hlo : 6500 ≤ n)
    (hhi : n ≤ 9000) :
    Completes (.inputSample n) s fun t =>
      t.module.input = some n ∧
      (7000 ≤ n → n ≤ 8600 → t.module.bus48 = true ∧ t.module.inputBad = none ∧ t.powerPage = s.powerPage) ∧
      (n < 7000 ∨ 8600 < n → t.module.bus48 = s.module.bus48 ∧
        (s.module.inputBad = none → t.module.inputBad = some s.now ∧ t.powerPage = s.powerPage) ∧
        ∀ t0, s.module.inputBad = some t0 → t.module.inputBad = some t0 ∧
          (1000000 ≤ (s.now - t0).toNat → bit t.powerPage.fault 3 = true) ∧
          ((s.now - t0).toNat < 1000000 → t.powerPage = s.powerPage)) := by
  refine ⟨_, exec_inputSample hs hd hlo hhi, ?_⟩
  obtain ⟨q, hstill⟩ := (s.toChip.withInput n).inputCheck_still
  obtain ⟨-, -, hinput, hbad, hbus⟩ := Chip.readings_of_still hstill
  have hbus : (s.toChip.withInput n).inputCheck.module.bus48 = (s.module.bus48 || !inputOut n) := hbus
  refine ⟨hinput, fun h7 h86 => ?_, fun hn => ?_⟩
  · have hin : inputOut n = false := by simp [inputOut]; omega
    have hnone : (s.toChip.withInput n).module.inputBad = none := by simp [Chip.withInput, hin]
    refine ⟨hbus.trans (by simp [hin]), hbad.trans hnone, ?_⟩
    rw [Chip.inputCheck_of_none hnone]
    rfl
  · have hout : inputOut n = true := by simpa [inputOut] using hn
    have hsome : (s.toChip.withInput n).module.inputBad = some (s.module.inputBad.getD s.now) := by
      simp [Chip.withInput, hout]
    refine ⟨hbus.trans (by simp [hout]), fun hnew => ?_, fun t0 hold => ?_⟩
    · rw [hnew] at hsome
      refine ⟨hbad.trans hsome, ?_⟩
      rw [Chip.inputCheck_of_recent hsome (by simp [Chip.withInput, Chip.now])]
      rfl
    · rw [hold] at hsome
      refine ⟨hbad.trans hsome, fun hdue => ?_, fun hrecent => ?_⟩
      · exact Chip.fault_inputCheck_of_due hsome hdue
      · rw [Chip.inputCheck_of_recent hsome hrecent]
        rfl

/-- The input leaves 650 to 900 V (R537). -/
theorem lost_of_inputGone (s : Chip) (n : Nat) :
    let t := s.inputGone n
    t.module.bus48 = false ∧ t.module.input = some n ∧ bit t.powerPage.fault 3 = true ∧ t.clusters = [] ∧ t.bays = [] ∧
      t.committed = [] ∧ t.bringup.lastReset = 3 ∧ t.sec.counters = s.sec.counters ∧ t.bringup.wear = s.bringup.wear := by
  obtain ⟨hclusters, q, hbit, hstill⟩ := s.inputGone_spec n
  obtain ⟨hbays, hcommitted, rfl, hcounters, hbringup⟩ := Chip.parts_of_still hstill
  obtain ⟨-, -, hinput, -, hbus⟩ := Chip.readings_of_still hstill
  have hreset : (s.inputGone n).bringup.lastReset = 3 ∧ (s.inputGone n).bringup.wear = s.bringup.wear := by
    rw [hbringup]; exact ⟨rfl, rfl⟩
  exact ⟨hbus, hinput, hbit, hclusters, hbays, hcommitted, hreset.1, hcounters, hreset.2⟩

end Commands

/-- Settles O50: a latch acts within its own bay, since the links that it takes out end outside and the end of a save
touches no cluster that has lost its map; the readings change the POWER page and the bays' power, or clear the wafer. -/
theorem latchCoolantAndInput : Obligations.LatchCoolantAndInput := by
  refine ⟨⟨?_, ?_⟩, ?_, ?_⟩
  · intro s b hb hs hp latched
    have hlatched (t : State) (cause : Nat) (h : s.LatchedOff t.toChip b cause) : latched t cause := by
      obtain ⟨⟨hpower, hcause, hstack, htint⟩, hfault, hlost⟩ := h
      exact ⟨hpower, hcause, hstack, htint, hfault, hlost⟩
    refine ⟨?_, ?_⟩
    · obtain ⟨t, ht, h⟩ := completes_bayLatch hb hs hp
      exact ⟨t, ht, hlatched t 1 h⟩
    · rintro cl n hcl rfl hn hg
      obtain ⟨t, ht, h⟩ := completes_thermalLatch hcl hn hg hs hp
      exact ⟨t, ht, hlatched t 2 h⟩
  · exact fun s v hreach hv hb hheld =>
      ⟨completes_relight_latched hreach hv hb hheld, completes_relight_latchedHard hreach hv hb hheld⟩
  · exact fun s n hs hd => ⟨completes_inletSample n hs hd, completes_inputSample hs hd, fun hn =>
      ⟨⟨_, exec_inputLoss hs hd hn, lost_of_inputGone s.toChip n⟩,
        ⟨_, exec_inputSample_gone hs hd hn, lost_of_inputGone s.toChip n⟩⟩⟩
  · intro s n hs hd
    refine ⟨⟨_, exec_inletSample_dark n hs hd, rfl⟩, fun i hi hn => ?_⟩
    simp only [List.mem_cons, List.not_mem_nil, or_false] at hi
    obtain rfl | rfl := hi
    · exact ⟨_, exec_inputSample_dark hs hd, rfl⟩
    · exact ⟨_, exec_inputLoss_dark hs hd (hn.resolve_left (by simp)), rfl⟩

end Sys2Proof.Machine
end

section
/-! O5: the FP32 instructions, the moves and the conversions of a scalar (R98, R100). -/

namespace Sys2Proof.Machine

open Sys2Proof

/-! ### Core instructions that change their own core alone -/

/-- A write of a scalar register leaves everything else of the core. -/
theorem Core.setS_frame (c : Core) (i : Nat) (v : W32) :
    (c.setS i v).astat = c.astat ∧ (c.setS i v).fstat = c.fstat ∧ (c.setS i v).loops = c.loops ∧
      (c.setS i v).pc = c.pc := by
  by_cases hi : i = 0 <;> simp [Core.setS, hi]

theorem checked_of_reservedOk {u : Uses} {w : BitVec 56} (h : reservedOk u w = true) (x : Cluster) (r : Res) :
    checked u w x r = r := by
  simp [checked, h]

/-- An instruction of one cycle whose effect, its encoding being admitted, is `g` on its own core: the core runs to
what `g` makes of the entered one, moved on. -/
theorem checked_runs {op : Nat → Nat → BitVec 56 → Instr} {w : BitVec 56} {s : State} {cl p : Nat} {k : Uses}
    {g : Core → Core} {u : Cluster → Core → Use} {v : Use}
    (hi : Issues s.toChip cl p) (hn : Follows (fetched s.toChip cl p)) (hw : reservedOk k w = true)
    (hexec : exec (op cl p w) s =
      s.run fun c => coreInstr op cl p w c 1 (fun x c => checked k w x (okCore x p (g c))) u)
    (hu : ∀ x, u x (fetched s.toChip cl p) = v)
    (hg : ∀ c, (g c).fstat = c.fstat ∧ (g c).loops = c.loops ∧ (g c).pc = c.pc) :
    Runs cl p (op cl p w) s fun t => OnlyCore s t cl p (moved (g (entered s.toChip cl p v)) 1 v) := by
  intro hf
  obtain ⟨hs, hl, hp⟩ := hg (entered s.toChip cl p v)
  obtain ⟨t, hrun, hcore⟩ := issue_core (f := fun x c => checked k w x (okCore x p (g c))) hi hf hu hs hl hp hn
    fun x => checked_of_reservedOk hw x _
  exact ⟨t, hexec.trans hrun, hcore⟩

/-! ### Results with status -/

/-- The core with the result `r` in RD, INVALID being set when the operation was invalid. -/
def Core.fpDone (c : Core) (rd : Nat) (r : W32 × Bool × Bool) : Core :=
  { c.setS rd r.1 with astat := c.astat ||| (if r.2.1 then 1#64 else 0#64) }

/-- INVALID is bit 0 of CL_CORE_ASTAT (R87). -/
theorem Status.astat_invalid (b : Bool) : ({ invalid := b } : Status).astat = if b then 1#64 else 0#64 := by
  cases b <;> rfl

theorem Core.status_setS (c : Core) (rd : Nat) (v : W32) (st : Status) :
    (c.setS rd v).status st = { c.setS rd v with astat := c.astat ||| st.astat } := by
  obtain ⟨hastat, -, -, -⟩ := c.setS_frame rd v
  rw [Core.status, hastat]

theorem fpResult_eq (p : Nat) (w : BitVec 56) (x : Cluster) (c : Core) (r : W32 × Bool × Bool) :
    fpResult p w x c r = okCore x p (c.fpDone (fRd w) r) := by
  rw [fpResult, Core.status_setS, Status.astat_invalid, Core.fpDone]

/-- A scalar FP32 instruction whose operation is `g`. -/
theorem fpOp_runs {op : Nat → Nat → BitVec 56 → Instr} {w : BitVec 56} {s : State} {cl p : Nat}
    (g : W32 → W32 → W32 → W32 × Bool × Bool) {u : Cluster → Core → Use} {v : Use}
    (hi : Issues s.toChip cl p) (hn : Follows (fetched s.toChip cl p))
    (hw : reservedOk { rd := true, rs1 := true, b := true } w = true)
    (hexec : exec (op cl p w) s = s.run fun c => coreInstr op cl p w c 1 (fpOp p w g) u)
    (hu : ∀ x, u x (fetched s.toChip cl p) = v) :
    let c := fetched s.toChip cl p
    Runs cl p (op cl p w) s fun t => OnlyCore s t cl p
      (moved ((entered s.toChip cl p v).fpDone (fRd w) (g (c.sreg (fRs1 w)) (opB c w) (c.sreg (fRd w)))) 1 v) := by
  have hop : fpOp p w g = fun x c => checked { rd := true, rs1 := true, b := true } w x
      (okCore x p (c.fpDone (fRd w) (g (c.sreg (fRs1 w)) (opB c w) (c.sreg (fRd w))))) := by
    funext x c
    rw [fpOp, fpResult_eq]
  rw [hop] at hexec
  exact checked_runs (g := fun c => c.fpDone (fRd w) (g (c.sreg (fRs1 w)) (opB c w) (c.sreg (fRd w)))) hi hn hw hexec hu
    fun c => (c.setS_frame (fRd w) _).2

/-- Settles O5: every instruction is an effect on its own core alone (`checked_runs`). -/
theorem scalarFloatAndMoveResults : Obligations.ScalarFloatAndMoveResults := by
  refine ⟨fun s cl p w hi hn hw => ?_, fun s cl p w hi hn => ?_⟩
  · exact ⟨fpOp_runs (op := .fadd) (fun a b _ => fpAdd a b) hi hn hw rfl fun _ => rfl,
      fpOp_runs (op := .fsub) (fun a b _ => fpAdd a (fpNeg b)) hi hn hw rfl fun _ => rfl,
      fpOp_runs (op := .fmul) (fun a b _ => fpMul a b) hi hn hw rfl fun _ => rfl,
      fpOp_runs (op := .ffma) (fun a b d => fpFma a b d) hi hn hw rfl fun _ => rfl,
      fpOp_runs (op := .fmin) (fun a b _ => (fpMin a b, false, false)) hi hn hw rfl fun _ => rfl,
      fpOp_runs (op := .fmax) (fun a b _ => (fpMax a b, false, false)) hi hn hw rfl fun _ => rfl⟩
  · have writeS (c : Core) (v : W32) := (c.setS_frame (fRd w) v).2
    refine ⟨fun hw => ?_, fun hw => ?_, fun hw => ?_, fun hw => ?_, fun hw => ?_, fun hw => ⟨?_, ?_⟩⟩
    · exact checked_runs (op := .li) (g := fun c => c.setS (fRd w) (imm32 w)) hi hn hw rfl (fun _ => rfl)
        fun c => writeS c _
    · exact checked_runs (op := .aadd) (g := fun c => c.setA (fAr w) (c.areg (fAr w) + opB c w)) hi hn hw rfl
        (fun _ => rfl) fun _ => ⟨rfl, rfl, rfl⟩
    · exact checked_runs (op := .amovSa) (g := fun c => c.setA (fAr w) (c.sreg (fRs1 w))) hi hn hw rfl (fun _ => rfl)
        fun _ => ⟨rfl, rfl, rfl⟩
    · exact checked_runs (op := .amovAs) (g := fun c => c.setS (fRd w) (c.areg (fAr w))) hi hn hw rfl (fun _ => rfl)
        fun c => writeS c _
    · exact checked_runs (op := .ali) (g := fun c => c.setA (fAr w) (imm32 w)) hi hn hw rfl (fun _ => rfl)
        fun _ => ⟨rfl, rfl, rfl⟩
    · have h := checked_runs (op := .f2i) (g := fun c =>
        (c.setS (fRd w) (BitVec.ofNat 32 (encodeInt 32 (fpDecode (c.sreg (fRs1 w)))).1)).status
          (encodeInt 32 (fpDecode (c.sreg (fRs1 w)))).2) hi hn hw rfl (fun _ => rfl) fun c => writeS c _
      rw [Core.status_setS] at h
      exact h
    · exact checked_runs (op := .i2f) (g := fun c => c.setS (fRd w) (fpRound (XNum.ofInt (c.sreg (fRs1 w)).toInt)).1) hi hn
        hw rfl (fun _ => rfl) fun c => writeS c _

end Sys2Proof.Machine
end

section
/-! O9: the accumulator entries and the operands of a tensor instruction (R69, R101 to R105). -/

namespace Sys2Proof.Machine

open Sys2Proof

/-! ### Accumulator entries -/

theorem SMap.get_foldl_set {α : Type} [DecidableEq α] (d : α) (v : Nat → α) (e n : Nat) (m : SMap α) (j : Nat) :
    SMap.get d ((List.range n).foldl (fun m i => SMap.set d m (e + i) (v i)) m) j =
      if e ≤ j ∧ j < e + n then v (j - e) else SMap.get d m j := by
  induction n with
  | zero => simp [show ¬ (e ≤ j ∧ j < e) by omega]
  | succ n ih =>
    rw [List.range_succ, List.foldl_append, List.foldl_cons, List.foldl_nil, SMap.get_set, ih]
    by_cases hj : j = e + n
    · subst hj; simp
    · simp only [hj, if_false]
      exact if_congr (by omega) rfl rfl

/-- Entries `e` and on take the values of `vs`; the others stay. -/
theorem Core.accAt_accWrite (c : Core) (e : Nat) (vs : List W32) (j : Nat) :
    (c.accWrite e vs).accAt j = if e ≤ j ∧ j < e + vs.length then vs.getD (j - e) 0#32 else c.accAt j :=
  SMap.get_foldl_set 0#32 (fun i => vs.getD i 0#32) e vs.length c.acc j

/-- Entry `i` of the block of results of `tmulRun` (R69). -/
def Core.dotAt (c : Core) (f : TFields) (zero : Bool) (k : Nat) (bk : Option Nat) (a b : List Byte) (i : Nat) :
    W32 × Status :=
  dotEntry f.fa f.fb (f.kb k) f.n (i / f.n) (i % f.n) bk a b (if zero then 0#32 else c.accAt (f.base + i))

theorem Core.accAt_tmulRun (c : Core) (f : TFields) (zero : Bool) (k : Nat) (bk : Option Nat) (a b : List Byte) (j : Nat) :
    (c.tmulRun f zero k bk a b).accAt j =
      if f.base ≤ j ∧ j < f.base + f.m * f.n then (c.dotAt f zero k bk a b (j - f.base)).1 else c.accAt j := by
  have hrun : (c.tmulRun f zero k bk a b).accAt j =
      (c.accWrite f.base (((List.range (f.m * f.n)).map (c.dotAt f zero k bk a b)).map (·.1))).accAt j := rfl
  rw [hrun, Core.accAt_accWrite]
  simp only [List.length_map, List.length_range]
  refine ite_congr rfl (fun hj => ?_) fun _ => rfl
  have hlt : j - f.base < f.m * f.n := by omega
  simp [List.getD_eq_getElem?_getD, hlt]

/-- What `tmulRun` keeps. -/
theorem Core.tmulRun_frame (c : Core) (f : TFields) (zero : Bool) (k : Nat) (bk : Option Nat) (a b : List Byte) :
    ∃ acc accErr astat, c.tmulRun f zero k bk a b = { c with acc, accErr, astat } :=
  ⟨_, _, _, rfl⟩

/-- The entries of the block of results, and those outside it. -/
theorem Core.accAt_tmulRun_block (c : Core) (f : TFields) (zero : Bool) (k : Nat) (bk : Option Nat) (a b : List Byte) :
    (∀ i, i < f.m * f.n → (c.tmulRun f zero k bk a b).accAt (f.base + i) = (c.dotAt f zero k bk a b i).1) ∧
      ∀ e, e < f.base ∨ f.base + f.m * f.n ≤ e → (c.tmulRun f zero k bk a b).accAt e = c.accAt e := by
  refine ⟨fun i hi => ?_, fun e he => ?_⟩
  · rw [Core.accAt_tmulRun, if_pos (by omega), Nat.add_sub_cancel_left]
  · rw [Core.accAt_tmulRun, if_neg (by omega)]

/-! ### Operands in local memory -/

theorem placeOf_lm {a n : Nat} (h : a + n ≤ 0xC000) : placeOf a n = .lm a := by
  simp [placeOf, h]

theorem Cluster.place_lm (x : Cluster) (p : Nat) {a n : Nat} (h : a + n ≤ 0xC000) : x.place p a n = .lm a := by
  simp [Cluster.place, placeOf_lm h]

theorem Cluster.inRange_lm (x : Cluster) (p : Nat) {a n : Nat} (h : a + n ≤ 0xC000) : x.inRange p a n = true := by
  simp [Cluster.inRange, x.place_lm p h]

theorem storeLead_lm (x : Cluster) (p : Nat) {a n : Nat} (h : a + n ≤ 0xC000) : storeLead x p a n = 0 := by
  simp [storeLead, inStore, x.place_lm p h]

/-- An operand in local memory without errors that no QRECV writes is at hand. -/
theorem getBytes_lm (x : Cluster) (p : Nat) {c : Core} {a n : Nat} (k : Cluster → Core → List Byte → Res)
    (h : a + n ≤ 0xC000) (hq : c.qops = []) (he : c.lmErr = []) : getBytes x p c a n k = k x c (Memory.read c.lm a n) := by
  by_cases hn : n = 0
  · subst hn; simp [getBytes, getBytesIn, Memory.read]
  · simp [getBytes, getBytesIn, hn, x.place_lm p h, Core.lmBusy, hq, Core.lmRead_clean _ _ he]

/-! ### The effect of TMUL.ACC and TMUL.ZERO -/

/-- The core holds no error and no queue instruction in progress, and admits tensor instruction `w` with operand A in
local memory, and B there or in an input queue (R101 to R103). -/
structure AdmitsTensor (c : Core) (w : BitVec 56) : Prop where
  lmErr : c.lmErr = []
  accErr : c.accErr = []
  qops : c.qops = []
  reserved : ibits w 0 13 = 0
  pair : pairRate (tFields w).fa (tFields w).fb ≠ none
  k_pos : 1 ≤ (c.sreg (tFields w).kreg).toNat
  k_le : (c.sreg (tFields w).kreg).toNat ≤ 16384
  entries : (tFields w).base + (tFields w).m * (tFields w).n ≤ 2048
  a_lm : (c.areg (tFields w).areg).toNat + (tFields w).an (c.sreg (tFields w).kreg).toNat ≤ 0xC000
  b_lm : (tFields w).bsrc = 1 → (c.areg (tFields w).bidx).toNat + (tFields w).bn (c.sreg (tFields w).kreg).toNat ≤ 0xC000
  b_queue : (tFields w).bsrc = 0 → (tFields w).bidx < 4

/-- Operand A of tensor instruction `w`. -/
def Core.tensorA (c : Core) (w : BitVec 56) : List Byte :=
  Memory.read c.lm (c.areg (tFields w).areg).toNat ((tFields w).an (c.sreg (tFields w).kreg).toNat)

/-- Operand B of tensor instruction `w` in local memory. -/
def Core.tensorB (c : Core) (w : BitVec 56) : List Byte :=
  Memory.read c.lm (c.areg (tFields w).bidx).toNat ((tFields w).bn (c.sreg (tFields w).kreg).toNat)

/-- The job of tensor instruction `w` that takes its operand B from a queue. -/
def Core.tensorJob (c : Core) (zero : Bool) (w : BitVec 56) : TensorJob :=
  { queue := (tFields w).bidx, word := w, zero, k := (c.sreg (tFields w).kreg).toNat
    addr := (c.areg (tFields w).areg).toNat, a := c.tensorA w }

/-- The core after tensor instruction `w`. -/
def Core.tensorStarted (c : Core) (zero : Bool) (w : BitVec 56) : Core :=
  let f := tFields w
  let k := (c.sreg f.kreg).toNat
  if f.bsrc = 1 then (c.settle.tmulRun f zero k none (c.tensorA w) (c.tensorB w)).occupy (f.occ k)
  else { c.settle with qops := [.tmul (c.tensorJob zero w)] }

/-- The cluster, but for its core, after tensor instruction `w`: the cycles of the multiplier are counted. -/
def Cluster.tensorStarted (x : Cluster) (c : Core) (w : BitVec 56) : Cluster :=
  if (tFields w).bsrc = 1 then x.tensorRan (tFields w).formats ((tFields w).occ (c.sreg (tFields w).kreg).toNat) else x

theorem tFields_bsrc (w : BitVec 56) : (tFields w).bsrc = 0 ∨ (tFields w).bsrc = 1 := by
  have h : (tFields w).bsrc < 2 ^ 1 := Nat.mod_lt _ (by decide)
  omega

theorem tmulOp_of_admits {c : Core} {w : BitVec 56} (h : AdmitsTensor c w) (p : Nat) (zero : Bool) (x : Cluster) :
    tmulOp p zero w x c = okCore (x.tensorStarted c w) p (c.tensorStarted zero w) := by
  have hscan : (if zero then (c.settle, false) else c.settle.accScan (tFields w).base
      ((tFields w).base + (tFields w).m * (tFields w).n)) = (c.settle, false) := by
    cases zero
    · exact Core.accScan_clean (c := c.settle) _ _ h.accErr
    · rfl
  have htensor : c.tensorBusy = none := by simp [Core.tensorBusy, h.qops]
  have hk0 : (c.sreg (tFields w).kreg).toNat ≠ 0 := Nat.one_le_iff_ne_zero.1 h.k_pos
  have hgetA (k : Cluster → Core → List Byte → Res) := getBytes_lm x p (c := c.settle) k h.a_lm h.qops h.lmErr
  simp only [tmulOp, hscan, Core.afterTensor, htensor, h.reserved, h.pair, hk0, Nat.not_lt.2 h.k_le, Nat.not_lt.2 h.entries,
    x.inRange_lm p h.a_lm, hgetA]
  rcases tFields_bsrc w with hb | hb
  · have hq : c.settle.qops = [] := h.qops
    simp [hb, Nat.not_le.2 (h.b_queue hb), hq, storeLead_lm x p h.a_lm, Cluster.tensorStarted, Core.tensorStarted]
    rfl
  · have hgetB (k : Cluster → Core → List Byte → Res) := getBytes_lm x p (c := c.settle) k (h.b_lm hb) h.qops h.lmErr
    simp [hb, x.inRange_lm p (h.b_lm hb), hgetB, storeLead_lm x p h.a_lm, storeLead_lm x p (h.b_lm hb),
      Cluster.tensorStarted, Core.tensorStarted]
    rfl

end Sys2Proof.Machine
end

section
/-! O9: the issue of a tensor instruction and the pump of the queue instructions (R90, R105, R136, R533). -/

namespace Sys2Proof.Machine

open Sys2Proof

/-! ### The issue of an instruction that nothing holds -/

/-- An instruction has left core `p` as `c`, the weave as in `x`, and the other clusters as they were. -/
structure TookEffect (s t : Chip) (cl p : Nat) (x : Cluster) (c : Core) : Prop where
  core : t.core cl p = c
  weave : (t.cl cl).weave = x.weave
  clusters : ∀ k, k ≠ cl → t.cl k = s.cl k

/-- An instruction whose effect is `x` on its cluster, with `e` its core, and that goes on in sequence. -/
theorem issueG_seq {s : Chip} {cl p cyc : Nat} {i : Instr} {gate : Chip → Bool} {held : Chip → Chip}
    {f : Cluster → Core → Res} {u : Cluster → Core → Use} {v : Use} {x : Cluster} {e : Core}
    (hi : Issues s cl p) (hg : Fetches s cl p i) (hn : Follows (fetched s cl p))
    (hu : u ((s.modCore cl p fun _ => fetched s cl p).cl cl) (fetched s cl p) = v)
    (hf : f ((s.modCore cl p fun _ => fetched s cl p).cl cl) (entered s cl p v) = .ok x .seq)
    (hgate : gate (s.modCore cl p fun _ => fetched s cl p) = false)
    (he : x.core p = e) (hs : e.fstat = (fetched s cl p).fstat) (hl : e.loops = (fetched s cl p).loops)
    (hp : e.pc = (fetched s cl p).pc) : TookEffect s (s.issueG i cl p cyc gate held f u) cl p x (moved e cyc v) := by
  have hfetch := hi.fetch_reads hg
  obtain ⟨-, -, hrun, -, -⟩ := hi
  unfold Follows at hn
  unfold entered at hf
  have hn0 : (0 : Int) ≤ ((loopNext (fetched s cl p).loops (fetched s cl p).pc.toNat).2 : Int) ∧
      ((loopNext (fetched s cl p).loops (fetched s cl p).pc.toNat).2 : Int) ≤ 0xBFF8 := by omega
  have hk : (((s.modCore cl p fun _ => fetched s cl p).setCl cl x).modCore cl p fun c => c.issued v cyc).core cl p =
      e.issued v cyc := by
    simp [Chip.core, Chip.modCore, he]
  simp only [Chip.issueG, hrun, hfetch, hu, hf, hgate, hk, Core.fstat_issued, hs, Chip.flagErr_same, Chip.goTo, hn0,
    Bool.not_true, Bool.false_eq_true, if_false, ne_eq, not_true_eq_false, and_self, if_true]
  refine ⟨?_, ?_, fun k hk => ?_⟩
  · simp [Chip.core, Chip.modCore, he, moved, hl, hp]
  · simp [Chip.modCore]
  · simp [Chip.modCore, hk]

/-- An instruction that could take effect and is held. -/
theorem issueG_held {s : Chip} {cl p cyc : Nat} {i : Instr} {gate : Chip → Bool} {held : Chip → Chip}
    {f : Cluster → Core → Res} {u : Cluster → Core → Use} {v : Use} {x : Cluster}
    (hi : Issues s cl p) (hg : Fetches s cl p i)
    (hu : u ((s.modCore cl p fun _ => fetched s cl p).cl cl) (fetched s cl p) = v)
    (hf : f ((s.modCore cl p fun _ => fetched s cl p).cl cl) (entered s cl p v) = .ok x .seq)
    (hgate : gate (s.modCore cl p fun _ => fetched s cl p) = true) :
    s.issueG i cl p cyc gate held f u = held (s.modCore cl p fun _ => fetched s cl p) := by
  have hfetch := hi.fetch_reads hg
  obtain ⟨-, -, hrun, -, -⟩ := hi
  unfold entered at hf
  simp only [Chip.issueG, hrun, hfetch, hu, hf, hgate, Bool.not_true, Bool.false_eq_true, if_false, ne_eq,
    not_true_eq_false, if_true]

/-! ### The pump -/

/-- The core that the pump leaves: `r` are the queue instructions in progress, `n` cycles have counted as work, and no queue
holds it. -/
def Core.pumped (c : Core) (r : List QOp) (n : Nat) : Core :=
  { c with
    qops := r
    work := c.work + BitVec.ofNat 64 n
    acted := c.acted || decide (n > 0)
    wait := match c.wait with | .queue _ => .none | y => y }

theorem Core.pumped_rise {c : Core} (hq : c.qops = []) (hw : c.wait = .rise) : c.pumped [] 0 = c := by
  cases c
  subst hq hw
  simp [Core.pumped]

theorem Cluster.pumpIn_eq {x y : Cluster} {p n m : Nat} {t : W} {c : Core} {r : List QOp}
    (h : pumpOps x p (x.core p) [] n (x.core p).qops = (y, c, r, m)) :
    x.pumpIn p n t = (if m > 0 then y.busyAt t else y).modCore p fun _ => c.pumped r m := by
  rw [Cluster.pumpIn]
  simp only [h]
  rfl

/-- The pump of a core without queue instructions. -/
theorem Cluster.pumpIn_idle (x : Cluster) {p : Nat} (n : Nat) (t : W) (h : (x.core p).qops = []) :
    x.pumpIn p n t = x.modCore p fun c => c.pumped [] 0 := by
  have hops : pumpOps x p (x.core p) [] n (x.core p).qops = (x, x.core p, [], 0) := by rw [h]; rfl
  exact Cluster.pumpIn_eq hops

/-- An output queue that holds up a core has no entry to correct. -/
theorem Chip.queueEcc_out (s : Chip) (cl p : Nat) {q : Nat} (h : 4 ≤ q) : s.queueEcc cl p q = s := by
  simp [Chip.queueEcc, Nat.not_lt.2 h]

/-- The pump of a running core that leaves it without queue instructions. -/
theorem Chip.pumpBy_eq_modCl {s : Chip} {cl p n : Nat} (hrun : (s.core cl p).run = .running) (hheld : s.coreHeld cl = false)
    (h : (((s.cl cl).pumpIn p n s.now).core p).qops = []) :
    s.pumpBy cl p n = s.modCl cl fun x => x.pumpIn p n s.now := by
  have hcore : (s.modCl cl fun x => x.pumpIn p n s.now).core cl p = ((s.cl cl).pumpIn p n s.now).core p := by
    simp [Chip.core]
  simp only [Chip.pumpBy, hrun, hheld, and_self, if_true, hcore, Core.blockedOn, h]
  cases (((s.cl cl).pumpIn p n s.now).core p).backlog.head? with
  | none => rfl
  | some b => exact Chip.queueEcc_out _ _ _ (Nat.le_add_right 4 b.1)

/-- The items that have arrived change nothing of a core without queue instructions but its wait for a queue. -/
theorem Chip.pumpCore_idle (s : Chip) {cl p : Nat} (h : (s.core cl p).qops = []) :
    s.pumpCore cl p = s ∨ s.pumpCore cl p = s.modCore cl p fun c => c.pumped [] 0 := by
  have hpump := (s.cl cl).pumpIn_idle (p := p) 0 s.now h
  by_cases hs : (s.core cl p).run = .running ∧ s.coreHeld cl = false
  · right
    rw [Chip.pumpCore, Chip.pumpBy_eq_modCl hs.1 hs.2 (by rw [hpump]; simp [Core.pumped])]
    exact congrArg (s.setCl cl) hpump
  · exact .inl (if_neg hs)

end Sys2Proof.Machine
end

section
/-! O9: the stream of operand B from an input queue (R105, R137, R648). -/

namespace Sys2Proof.Machine

open Sys2Proof

/-! ### The numbers of a job -/

theorem le_ceilDiv_mul (a : Nat) {b : Nat} (h : 0 < b) : a ≤ ceilDiv a b * b := by
  have := Nat.div_add_mod (a + b - 1) b
  have := Nat.mod_lt (a + b - 1) h
  rw [ceilDiv, Nat.mul_comm]
  omega

theorem ceilDiv_zero {b : Nat} (h : 0 < b) : ceilDiv 0 b = 0 := by
  rw [ceilDiv, Nat.div_eq_of_lt (by omega)]

theorem ceilDiv_pos {a b : Nat} (ha : 0 < a) (hb : 0 < b) : 0 < ceilDiv a b :=
  Nat.div_pos (by omega) hb

theorem pairG_pos (a : Nat) : 0 < pairG a := by
  unfold pairG; split <;> decide

theorem pairRate_getD_pos (a b : Nat) : 0 < (pairRate a b).getD 1 := by
  unfold pairRate
  repeat' split
  all_goals decide

section Job

variable {j : TensorJob}

theorem TensorJob.num_pos : 0 < j.num := Nat.mul_pos (Nat.succ_pos _) (pairG_pos _)

theorem TensorJob.den_pos : 0 < j.den := pairRate_getD_pos _ _

theorem TensorJob.blocks_pos (hk : 1 ≤ j.k) : 0 < j.blocks :=
  Nat.mul_pos (ceilDiv_pos hk (pairG_pos _)) (Nat.succ_pos _)

/-- T cycles suffice for the MACs of all blocks. -/
theorem TensorJob.blocks_mul_num_le : j.blocks * j.num ≤ j.total * j.den := by
  have h := le_ceilDiv_mul (j.f.m * j.f.n * j.f.kb j.k * pairG j.f.fa) (TensorJob.den_pos (j := j))
  calc j.blocks * j.num = j.f.m * j.f.n * j.f.kb j.k * pairG j.f.fa := by
        rw [TensorJob.blocks, TensorJob.num]; ring
    _ ≤ j.total * j.den := h

theorem TensorJob.total_pos (hk : 1 ≤ j.k) : 0 < j.total := by
  have h := j.blocks_mul_num_le
  have hpos := Nat.mul_pos (TensorJob.blocks_pos hk) (TensorJob.num_pos (j := j))
  exact Nat.pos_of_mul_pos_right (Nat.lt_of_lt_of_le hpos h)

/-- No item is removed before the first cycle. -/
theorem TensorJob.removed_zero (hk : 1 ≤ j.k) : j.removed 0 = 0 := by
  have hb := TensorJob.blocks_pos hk
  simp [TensorJob.removed, ceilDiv_zero TensorJob.num_pos, hb.ne]

/-- Every item is removed by the last cycle. -/
theorem TensorJob.removed_total : j.removed j.total = j.items := by
  have hused : j.blocks ≤ ceilDiv (j.total * j.den) j.num :=
    Nat.le_of_mul_le_mul_right (j.blocks_mul_num_le.trans (le_ceilDiv_mul _ TensorJob.num_pos)) TensorJob.num_pos
  simp [TensorJob.removed, Nat.min_eq_left hused]

/-- No time passes: the job stays as it is. -/
theorem TensorJob.advance_zero (q : List Item) : j.advance q 0 = (j, 0) := by
  cases j
  simp [TensorJob.advance]

/-- All items of operand B are there: in the cycles that it needs the job comes to its end. -/
theorem TensorJob.advance_all {q : List Item} (hk : 1 ≤ j.k) (hcyc : j.cyc = 0) (hgot : j.got = [])
    (hq : j.items ≤ q.length) :
    j.advance q (j.lead + j.total) =
      ({ j with lead := 0, cyc := j.total, got := (q.take j.items).flatMap Item.bytes }, j.items) := by
  have hend : max 0 (min (0 + (j.lead + j.total - j.lead)) (j.reach (0 + q.length))) = j.total := by
    rw [TensorJob.reach, if_pos (by omega)]
    omega
  have hlead : j.lead - (j.lead + j.total) = 0 := by omega
  simp only [TensorJob.advance, hcyc, TensorJob.removed_zero hk, hend, hlead, hgot, TensorJob.removed_total, Nat.sub_zero,
    List.nil_append]

end Job

/-! ### The items taken from a queue -/

theorem Weave.iq_take (w : Weave) (qa n q : Nat) : (w.take qa n).iq q = if q = qa then (w.iq qa).drop n else w.iq q :=
  SMap.get_set _ _ _ _ _

theorem Weave.iq_take_zero (w : Weave) (qa q : Nat) : (w.take qa 0).iq q = w.iq q := by
  rw [Weave.iq_take]
  split
  · next h => subst h; rfl
  · rfl

theorem takeWhile_good {l : List Item} (h : ∀ i ∈ l, i.bad = false) : (l.takeWhile fun i => !i.bad) = l :=
  List.takeWhile_eq_self_iff.2 fun i hi => by simp [h i hi]

/-! ### A job that has just started -/

/-- The cluster after `n` items of job `j` of core `p` have been taken in `m` cycles of its multiplier. -/
def Cluster.jobTook (x : Cluster) (p : Nat) (j : TensorJob) (n m : Nat) : Cluster :=
  { x with weave := x.weave.take (x.coreQueue p j.queue) n }.tensorRan j.f.formats m

theorem pumpOps_started (x : Cluster) (p : Nat) (c : Core) {j : TensorJob} (h : j.cyc ≠ j.total) :
    pumpOps x p c [] 0 [.tmul j] = (x.jobTook p j 0 0, c, [.tmul j], 0) := by
  simp only [pumpOps, TensorJob.advance_zero, h]
  simp [Cluster.jobTook]

/-- A fault of a cluster's weave changes its page alone, and nothing where the fault stands already. -/
theorem Chip.raise_weave (s : Chip) (cl b : Nat) :
    s.raise (.weave cl) b = s ∨ ∃ g, s.raise (.weave cl) b = s.modPage (.weave cl) g := by
  by_cases h : bit (s.cl cl).weavePage.fault b = true
  · exact .inl (by simp [Chip.raise, Chip.raiseWith, Chip.page, h])
  · exact .inr ⟨_, by
      simp only [Chip.raise, Chip.raiseWith, Chip.page, h, PageRef.block, Bool.false_eq_true, if_false, reduceCtorEq, false_and]
      rfl⟩

/-- An entry that cannot be corrected stops the weave; cores, queues and the other clusters stay. -/
theorem Chip.queueEcc_frame (s : Chip) (cl p q : Nat) :
    (∀ n, (s.queueEcc cl p q).core cl n = s.core cl n) ∧
      (∀ qa, ((s.queueEcc cl p q).cl cl).weave.iq qa = (s.cl cl).weave.iq qa) ∧
      ∀ k, k ≠ cl → (s.queueEcc cl p q).cl k = s.cl k := by
  unfold Chip.queueEcc
  split
  · unfold Chip.weaveEcc
    generalize ht : (s.modCl cl fun x => { x with weave := { x.weave with faultFreeze := true } }) = t
    have hcl (k : Nat) : t.cl k = if k = cl then { s.cl cl with weave := { (s.cl cl).weave with faultFreeze := true } }
        else s.cl k := by rw [← ht, Chip.cl_modCl]
    obtain hr | ⟨g, hr⟩ := t.raise_weave cl 2
    · rw [hr]
      exact ⟨fun n => by simp [Chip.core, hcl, Cluster.core], fun qa => by simp [hcl, Weave.iq], fun k hk => by simp [hcl, hk]⟩
    · rw [hr]
      exact ⟨fun n => by simp [Chip.core, Chip.modPage, hcl, Cluster.core],
        fun qa => by simp [Chip.modPage, hcl, Weave.iq], fun k hk => by simp [Chip.modPage, hcl, hk]⟩
  · exact ⟨fun _ => rfl, fun _ => rfl, fun _ _ => rfl⟩

/-- The pump of a core with a job that has just started takes nothing from a queue. -/
theorem Chip.pumpCore_started (s : Chip) {cl p : Nat} {j : TensorJob} (h : (s.core cl p).qops = [.tmul j])
    (hj : j.cyc ≠ j.total) :
    ((s.pumpCore cl p).core cl p = s.core cl p ∨
        (s.pumpCore cl p).core cl p = (s.core cl p).pumped [.tmul j] 0) ∧
      (∀ q, ((s.pumpCore cl p).cl cl).weave.iq q = (s.cl cl).weave.iq q) ∧
      ∀ k, k ≠ cl → (s.pumpCore cl p).cl k = s.cl k := by
  have hops : pumpOps (s.cl cl) p ((s.cl cl).core p) [] 0 ((s.cl cl).core p).qops =
      ((s.cl cl).jobTook p j 0 0, (s.cl cl).core p, [.tmul j], 0) := by
    rw [show ((s.cl cl).core p).qops = [.tmul j] from h]
    exact pumpOps_started _ _ _ hj
  have hpump := Cluster.pumpIn_eq (t := s.now) hops
  by_cases hs : (s.core cl p).run = .running ∧ s.coreHeld cl = false
  · have hblock : (((s.core cl p).pumped [.tmul j] 0)).blockedOn = some j.queue := rfl
    generalize ht : (s.modCl cl fun x => x.pumpIn p 0 s.now) = t
    have hcl (k : Nat) : t.cl k =
        if k = cl then ((s.cl cl).jobTook p j 0 0).modCore p fun _ => (s.core cl p).pumped [.tmul j] 0 else s.cl k := by
      rw [← ht, Chip.cl_modCl, hpump]
      rfl
    have hcore : t.core cl p = (s.core cl p).pumped [.tmul j] 0 := by simp [Chip.core, hcl]
    have hrun : s.pumpCore cl p = t.queueEcc cl p j.queue := by
      simp only [Chip.pumpCore, Chip.pumpBy, hs, and_self, if_true, ht, hcore, hblock]
    obtain ⟨hcores, hiq, hclusters⟩ := t.queueEcc_frame cl p j.queue
    rw [hrun]
    refine ⟨.inr ((hcores p).trans hcore), fun q => ?_, fun k hk => ?_⟩
    · rw [hiq, hcl, if_pos rfl]
      exact Weave.iq_take_zero _ _ _
    · rw [hclusters k hk, hcl, if_neg hk]
  · have hidle : s.pumpCore cl p = s := if_neg hs
    rw [hidle]
    exact ⟨.inl rfl, fun _ => rfl, fun _ _ => rfl⟩

end Sys2Proof.Machine
end

section
/-! O9: the results of the tensor instructions, and a rise that is held (R101 to R103, R107, R532, R533). -/

namespace Sys2Proof.Machine

open Sys2Proof

/-! ### The issue of a tensor instruction -/

/-- The fetch of a word from a local memory without errors changes nothing. -/
theorem fetched_clean {s : Chip} {cl p : Nat} (h : (s.core cl p).lmErr = []) : fetched s cl p = s.core cl p := by
  rw [fetched, Core.lmScan_clean _ _ h]

/-- The cycles of its interlocks leave a core that admits a tensor instruction. -/
theorem AdmitsTensor.entered {s : Chip} {cl p : Nat} {w : BitVec 56} (h : AdmitsTensor (s.core cl p) w) (v : Use) :
    AdmitsTensor (entered s cl p v) w := by
  rw [Machine.entered, fetched_clean h.lmErr]
  exact { h with }

/-- The fetch leaves what a rise is told by. -/
theorem riseGate_fetched (s : Chip) (cl p : Nat) :
    riseGate cl (s.modCore cl p fun _ => fetched s cl p) = riseGate cl s := by
  have hcore (q : Nat) : ((s.modCore cl p fun _ => fetched s cl p).core cl q).occ = (s.core cl q).occ ∧
      ((s.modCore cl p fun _ => fetched s cl p).core cl q).tensorBusy = (s.core cl q).tensorBusy := by
    by_cases hq : q = p
    · subst hq; rw [Chip.core_modCore_same]; exact ⟨rfl, rfl⟩
    · rw [Chip.core_modCore_other _ _ _ hq]; exact ⟨rfl, rfl⟩
  have hcl : ((s.modCore cl p fun _ => fetched s cl p).cl cl).busyCyc = (s.cl cl).busyCyc ∧
      ((s.modCore cl p fun _ => fetched s cl p).cl cl).cyc = (s.cl cl).cyc := by simp [Chip.modCore]
  simp only [Chip.core] at hcore
  simp [riseGate, Chip.quiet, hcore, hcl]

/-- The effect of a tensor instruction, whose multiplier is occupied `now`. -/
def tensorEffect (p : Nat) (zero : Bool) (w : BitVec 56) (now : W) (x : Cluster) (c : Core) : Res :=
  match tmulOp p zero w x c with
  | .ok x n => .ok (x.busyAt now) n
  | r => r

/-- The cluster after tensor instruction `w`, with the core `c` that issued it. -/
def Cluster.tensorDone (x : Cluster) (p : Nat) (zero : Bool) (w : BitVec 56) (now : W) (c : Core) : Cluster :=
  ((x.tensorStarted c w).modCore p fun _ => c.tensorStarted zero w).busyAt now

theorem Cluster.weave_tensorDone (x : Cluster) (p : Nat) (zero : Bool) (w : BitVec 56) (now : W) (c : Core) :
    (x.tensorDone p zero w now c).weave = x.weave := by
  have hstart : (x.tensorStarted c w).weave = x.weave := by rw [Cluster.tensorStarted]; split <;> rfl
  exact hstart

theorem tensorEffect_of_admits {c : Core} {w : BitVec 56} (h : AdmitsTensor c w) (p : Nat) (zero : Bool) (now : W)
    (x : Cluster) : tensorEffect p zero w now x c = .ok (x.tensorDone p zero w now c) .seq := by
  rw [tensorEffect, tmulOp_of_admits h]
  rfl

/-- What a core keeps of a tensor instruction that it issues. -/
theorem Core.tensorStarted_frame (c : Core) (zero : Bool) (w : BitVec 56) :
    (c.tensorStarted zero w).fstat = c.fstat ∧ (c.tensorStarted zero w).loops = c.loops ∧
      (c.tensorStarted zero w).pc = c.pc ∧ (c.tensorStarted zero w).lm = c.lm ∧ (c.tensorStarted zero w).s = c.s ∧
      (c.tensorStarted zero w).a = c.a := by
  rw [Core.tensorStarted]
  split
  · obtain ⟨acc, accErr, astat, hrun⟩ := c.settle.tmulRun_frame (tFields w) zero (c.sreg (tFields w).kreg).toNat none
      (c.tensorA w) (c.tensorB w)
    rw [hrun]
    exact ⟨rfl, rfl, rfl, rfl, rfl, rfl⟩
  · exact ⟨rfl, rfl, rfl, rfl, rfl, rfl⟩

/-- Tensor instruction `w` issued or held. -/
def Chip.tensorIssued (s : Chip) (op : Nat → Nat → BitVec 56 → Instr) (cl p : Nat) (zero : Bool) (w : BitVec 56) : Chip :=
  s.issueG (op cl p w) cl p 1 (riseGate cl) (riseHeld cl p) (tensorEffect p zero w s.now) (tmulUse p zero w)

section Issue

variable {s : State} {cl p : Nat} {w : BitVec 56} {op : Nat → Nat → BitVec 56 → Instr} {zero : Bool} {P : State → Prop}

/-- The command of a tensor instruction: issued or held, then pumped. -/
theorem exec_tensorInstr
    (hexec : exec (op cl p w) s = s.run fun x => tensorInstr op cl p w x (tmulOp p zero w) (tmulUse p zero w))
    (hi : Issues s.toChip cl p) :
    exec (op cl p w) s = .next { s with toChip := (s.toChip.tensorIssued op cl p zero w).pumpCore cl p } := by
  obtain ⟨hcl, hp, -⟩ := hi
  refine hexec.trans (State.run_onUnit (b := cl < 4032 && p < 136) (by simp [hcl, hp]) ?_)
  rfl

/-- A tensor instruction that no rise holds is issued, and pumped. -/
theorem tensorInstr_runs
    (hexec : exec (op cl p w) s = s.run fun x => tensorInstr op cl p w x (tmulOp p zero w) (tmulUse p zero w))
    (hi : Issues s.toChip cl p) (hn : Follows (fetched s.toChip cl p)) (hadm : AdmitsTensor (s.core cl p) w)
    (hgate : riseGate cl s.toChip = false)
    (h : ∀ (t : Chip) (v : Use),
      t.core cl p = moved (((s.core cl p).ready v).tensorStarted zero w) 1 v → (t.cl cl).weave = (s.cl cl).weave →
      (∀ k, k ≠ cl → t.cl k = s.cl k) → P { s with toChip := t.pumpCore cl p }) :
    Runs cl p (op cl p w) s P := by
  intro hf
  refine ⟨_, exec_tensorInstr hexec hi, ?_⟩
  generalize hv : tmulUse p zero w ((s.modCore cl p fun _ => fetched s.toChip cl p).cl cl) (fetched s.toChip cl p) = v
  have hentered : entered s.toChip cl p v = (s.core cl p).ready v := by rw [entered, fetched_clean hadm.lmErr]
  obtain ⟨hstat, hloops, hpc, -⟩ := (entered s.toChip cl p v).tensorStarted_frame zero w
  have heffect := issueG_seq (cyc := 1) (gate := riseGate cl) (held := riseHeld cl p) hi hf hn hv
    (tensorEffect_of_admits (hadm.entered v) p zero s.now _) ((riseGate_fetched _ _ _).trans hgate)
    (by simp [Cluster.tensorDone, Cluster.busyAt, Cluster.core, Cluster.modCore]) hstat hloops hpc
  have hweave : ((s.modCore cl p fun _ => fetched s.toChip cl p).cl cl).weave = (s.cl cl).weave := by simp [Chip.modCore]
  rw [hentered] at heffect
  exact h _ v heffect.core (heffect.weave.trans ((Cluster.weave_tensorDone _ p zero w s.now _).trans hweave)) heffect.clusters

/-- A tensor instruction whose start is a rise in a bay that is not armed is held. -/
theorem tensorInstr_held
    (hexec : exec (op cl p w) s = s.run fun x => tensorInstr op cl p w x (tmulOp p zero w) (tmulUse p zero w))
    (hi : Issues s.toChip cl p) (hadm : AdmitsTensor (s.core cl p) w) (hgate : riseGate cl s.toChip = true)
    (h : P { s with toChip := (riseHeld cl p (s.modCore cl p fun _ => fetched s.toChip cl p)).pumpCore cl p }) :
    Runs cl p (op cl p w) s P := by
  intro hf
  refine ⟨_, exec_tensorInstr hexec hi, ?_⟩
  rw [Chip.tensorIssued, issueG_held hi hf rfl (tensorEffect_of_admits (hadm.entered _) p zero s.now _)
    ((riseGate_fetched _ _ _).trans hgate)]
  exact h

end Issue

end Sys2Proof.Machine
end

section
/-! O9: the end of a tensor instruction's occupancy, a held rise, and the statement. -/

namespace Sys2Proof.Machine

open Sys2Proof

/-! ### TENSOR_INSTRUCTION_END (R105, R107, R124) -/

section End

variable {x : Cluster} {s : State} {cl p : Nat} {j : TensorJob}

/-- The core at the end of job `j`, whose operand B came in `items`. -/
def Core.jobEnded (c : Core) (j : TensorJob) (items : List Item) : Core :=
  let c := c.tmulRun j.f j.zero j.k (some j.k) j.a ((items.take j.items).flatMap Item.bytes)
  { c with pend := c.pend ++ [⟨.acc j.f.base (j.f.m * j.f.n), 7⟩] }

theorem Core.jobEnded_frame (c : Core) (j : TensorJob) (items : List Item) :
    ∃ acc accErr astat pend, c.jobEnded j items = { c with acc, accErr, astat, pend } := by
  obtain ⟨acc, accErr, astat, hrun⟩ := c.tmulRun_frame j.f j.zero j.k (some j.k) j.a ((items.take j.items).flatMap Item.bytes)
  exact ⟨acc, accErr, astat, _, by rw [Core.jobEnded, hrun]⟩

theorem Core.accAt_jobEnded (c : Core) (j : TensorJob) (items : List Item) (e : Nat) : (c.jobEnded j items).accAt e =
    (c.tmulRun j.f j.zero j.k (some j.k) j.a ((items.take j.items).flatMap Item.bytes)).accAt e := rfl

/-- What the pump leaves of the core whose job it has ended in `n` cycles. -/
theorem Core.jobEnded_pumped_frame (c : Core) (j : TensorJob) (items : List Item) (n : Nat) :
    let e := (c.jobEnded j items).pumped [] n
    e.qops = [] ∧ e.work = c.work + BitVec.ofNat 64 n ∧ e.lm = c.lm ∧ e.s = c.s ∧ e.a = c.a ∧ e.pc = c.pc := by
  obtain ⟨acc, accErr, astat, pend, hended⟩ := c.jobEnded_frame j items
  rw [hended]
  exact ⟨rfl, rfl, rfl, rfl, rfl, rfl⟩

theorem jobLeft_eq (hj : (x.core p).qops = [.tmul j]) (hk : 1 ≤ j.k) (hcyc : j.cyc = 0)
    (hitems : j.items ≤ (x.weave.iq (x.coreQueue p j.queue)).length) : x.jobLeft p = j.lead + j.total := by
  simp [Cluster.jobLeft, hj, hcyc, TensorJob.removed_zero hk, hitems]

/-- The pump takes the items of operand B and ends the job. -/
theorem pumpOps_ended (c : Core) (hk : 1 ≤ j.k) (hcyc : j.cyc = 0) (hgot : j.got = [])
    (hitems : j.items ≤ (x.weave.iq (x.coreQueue p j.queue)).length)
    (hgood : ∀ i ∈ x.weave.iq (x.coreQueue p j.queue), i.bad = false) :
    pumpOps x p c [] (j.lead + j.total) [.tmul j] =
      (x.jobTook p j j.items j.total, c.jobEnded j (x.weave.iq (x.coreQueue p j.queue)), [], j.lead + j.total) := by
  simp only [pumpOps, List.not_mem_nil, if_false, takeWhile_good hgood, TensorJob.advance_all hk hcyc hgot hitems, hcyc]
  simp [Cluster.jobTook, Core.jobEnded, TensorJob.total, TensorJob.f, Nat.add_comm]

theorem exec_tensorInstructionEnd (hcl : cl < 4032) (hp : p < 136) (hbay : s.bayRuns (clBay cl) = true)
    (hrun : (s.core cl p).run = .running) (hheld : s.coreHeld cl = false) (hocc : (s.core cl p).occ = 0) :
    exec (.tensorInstructionEnd cl p) s =
      .next { s with toChip := s.pumpBy cl p ((s.cl cl).jobLeft p) } := by
  have hexec : exec (.tensorInstructionEnd cl p) s = s.run fun x => onUnit (cl < 4032 && p < 136)
      (if (x.core cl p).run ≠ .running || x.coreHeld cl || !x.bayRuns (clBay cl) then x
       else if (x.core cl p).occ > 0 then x.modCl cl fun y => (y.modCore p Core.settle).busyAt x.now
       else x.pumpBy cl p ((x.cl cl).jobLeft p)) := rfl
  rw [hexec]
  exact State.run_onUnit (b := cl < 4032 && p < 136) (by simp [hcl, hp]) (by simp [hrun, hheld, hbay, hocc])

/-- TENSOR_INSTRUCTION_END with the items of operand B there. -/
theorem tensorInstructionEnd_completes (hcl : cl < 4032) (hp : p < 136) (hbay : s.bayRuns (clBay cl) = true)
    (hrun : (s.core cl p).run = .running) (hheld : s.coreHeld cl = false) (hocc : (s.core cl p).occ = 0)
    (hj : (s.core cl p).qops = [.tmul j]) (hk : 1 ≤ j.k) (hcyc : j.cyc = 0) (hgot : j.got = [])
    (hitems : j.items ≤ ((s.cl cl).weave.iq ((s.cl cl).coreQueue p j.queue)).length)
    (hgood : ∀ i ∈ (s.cl cl).weave.iq ((s.cl cl).coreQueue p j.queue), i.bad = false) :
    Completes (.tensorInstructionEnd cl p) s fun t =>
      t.core cl p = ((s.core cl p).jobEnded j ((s.cl cl).weave.iq ((s.cl cl).coreQueue p j.queue))).pumped []
        (j.lead + j.total) ∧
      (∀ q, (t.cl cl).weave.iq q = if q = (s.cl cl).coreQueue p j.queue then
        ((s.cl cl).weave.iq ((s.cl cl).coreQueue p j.queue)).drop j.items else (s.cl cl).weave.iq q) ∧
      OtherClusters s t cl := by
  have hj' : ((s.cl cl).core p).qops = [.tmul j] := hj
  have hops := pumpOps_ended ((s.cl cl).core p) hk hcyc hgot hitems hgood
  rw [← hj'] at hops
  have hpump := Cluster.pumpIn_eq (t := s.now) hops
  have hby := Chip.pumpBy_eq_modCl (n := j.lead + j.total) hrun hheld (by rw [hpump]; simp [Core.pumped])
  refine ⟨_, exec_tensorInstructionEnd hcl hp hbay hrun hheld hocc, ?_⟩
  rw [jobLeft_eq hj' hk hcyc hitems, hby]
  refine ⟨?_, fun q => ?_, fun k hk => ?_⟩
  · simp [Chip.core, hpump]
  · simp only [Chip.cl_modCl, if_true, hpump, Cluster.weave_modCore, apply_ite Cluster.weave]
    exact (congrArg (fun w : Weave => w.iq q) (ite_self _)).trans (Weave.iq_take _ _ _ _)
  · simp [hk]

end End

/-! ### A held rise (R533) -/

theorem Chip.core_openWindow (s : Chip) (t : Nat) (c : StallCause) (cl p : Nat) :
    (s.openWindow t c).core cl p = s.core cl p := by
  rw [Chip.core, Chip.cl, Chip.clusters_openWindow, ← Chip.cl, ← Chip.core]

theorem Chip.bay_openWindow (s : Chip) (t : Nat) (c : StallCause) (b : Nat) : (s.openWindow t c).bay b = s.bay b :=
  Chip.bay_of_still (s.still_openWindow t c) b

theorem Chip.windows_openWindow (s : Chip) {t : Nat} (c : StallCause) (ht : t ≠ 0) :
    ((s.openWindow t c).gable t).windows = (s.gable t).windows ++ [⟨c, s.now, none⟩] := by
  simp [Chip.openWindow, ht]

theorem Bay.arming_arm (x : Bay) (at_ : W) : (x.arm at_).arming = true := by
  unfold Bay.arm
  split
  · assumption
  · rfl

theorem Bay.tint_arm (x : Bay) (at_ : W) : (x.arm at_).tint = x.tint := by
  unfold Bay.arm
  split <;> rfl

/-- The hold of a rise: the core waits, the arming of its bay has started and a HINTMISS window is open. -/
theorem riseHeld_spec (s : Chip) (cl p : Nat) :
    (riseHeld cl p s).core cl p = { s.core cl p with wait := .rise } ∧ ((riseHeld cl p s).bay (clBay cl)).arming = true ∧
      (s.clTint cl ≠ 0 → ((riseHeld cl p s).gable (s.clTint cl)).windows =
        (s.gable (s.clTint cl)).windows ++ [⟨.hintmiss, s.now, none⟩]) := by
  generalize ht : ((s.modCore cl p fun c => { c with wait := .rise }).modBay (clBay cl) fun b => b.arm s.now) = t
  have hcore : t.core cl p = { s.core cl p with wait := .rise } := by
    rw [← ht]; exact Chip.core_modCore_same s cl p _
  have hbay : t.bay (clBay cl) = (s.bay (clBay cl)).arm s.now := by rw [← ht]; simp
  have htint : t.clTint cl = s.clTint cl := by rw [Chip.clTint, hbay, Bay.tint_arm, Chip.clTint]
  have hgables : t.gables = s.gables := by rw [← ht]; rfl
  have hnow : t.now = s.now := by rw [← ht]; rfl
  have hheld : riseHeld cl p s = (t.openWindow (s.clTint cl) .hintmiss).count .power Off.PW_RISE_HOLDS 1 := by
    rw [← htint, ← ht]; rfl
  rw [hheld]
  refine ⟨?_, ?_, fun h => ?_⟩
  · rw [Chip.core_count, Chip.core_openWindow, hcore]
  · have hpower : (((t.openWindow (s.clTint cl) .hintmiss).count .power Off.PW_RISE_HOLDS 1).bay (clBay cl)) =
        (t.openWindow (s.clTint cl) .hintmiss).bay (clBay cl) := rfl
    rw [hpower, Chip.bay_openWindow, hbay, Bay.arming_arm]
  · have hpower : (((t.openWindow (s.clTint cl) .hintmiss).count .power Off.PW_RISE_HOLDS 1).gable (s.clTint cl)) =
        (t.openWindow (s.clTint cl) .hintmiss).gable (s.clTint cl) := rfl
    rw [hpower, Chip.windows_openWindow _ _ h, hnow, Chip.gable, hgables, Chip.gable]

/-- The pump leaves a core that is held on a rise, its bay and the gables. -/
theorem Chip.pumpCore_rise (s : Chip) {cl p : Nat} (hq : (s.core cl p).qops = []) (hw : (s.core cl p).wait = .rise) :
    (s.pumpCore cl p).core cl p = s.core cl p ∧ (∀ b, (s.pumpCore cl p).bay b = s.bay b) ∧
      ∀ t, (s.pumpCore cl p).gable t = s.gable t := by
  obtain h | h := s.pumpCore_idle hq
  · rw [h]; exact ⟨rfl, fun _ => rfl, fun _ => rfl⟩
  · rw [h, Chip.core_modCore_same, Core.pumped_rise hq hw]; exact ⟨rfl, fun _ => rfl, fun _ => rfl⟩

/-! ### What the registers, the accumulators and the memory of a core hold -/

/-- The registers, the accumulators and the local memory of a core. -/
def Core.content (c : Core) : Core := { s := c.s, a := c.a, acc := c.acc, lm := c.lm }

theorem Core.content_moved (c : Core) (n : Nat) (u : Use) : (moved c n u).content = c.content := rfl
theorem Core.qops_moved (c : Core) (n : Nat) (u : Use) : (moved c n u).qops = c.qops := rfl
theorem Core.content_pumped (c : Core) (r : List QOp) (n : Nat) : (c.pumped r n).content = c.content := rfl

theorem Core.of_content {c e : Core} (h : c.content = e.content) :
    (∀ i, c.accAt i = e.accAt i) ∧ c.lm = e.lm ∧ c.s = e.s ∧ c.a = e.a := by
  have hacc : c.content.acc = e.content.acc := by rw [h]
  have hlm : c.content.lm = e.content.lm := by rw [h]
  have hs : c.content.s = e.content.s := by rw [h]
  have ha : c.content.a = e.content.a := by rw [h]
  exact ⟨fun i => congrArg (SMap.get 0#32 · i) hacc, hlm, hs, ha⟩

section Ready

variable (c : Core) (v : Use) (zero : Bool) (w : BitVec 56)

theorem Core.sreg_ready (i : Nat) : (c.ready v).sreg i = c.sreg i := rfl
theorem Core.tensorA_ready : (c.ready v).tensorA w = c.tensorA w := rfl
theorem Core.tensorB_ready : (c.ready v).tensorB w = c.tensorB w := rfl
theorem Core.tensorJob_ready : (c.ready v).tensorJob zero w = c.tensorJob zero w := rfl

/-- What an issued tensor instruction keeps of the core. -/
theorem Core.tensorStarted_ready_frame :
    ((c.ready v).tensorStarted zero w).lm = c.lm ∧ ((c.ready v).tensorStarted zero w).s = c.s ∧
      ((c.ready v).tensorStarted zero w).a = c.a := by
  obtain ⟨-, -, -, hlm, hs, ha⟩ := (c.ready v).tensorStarted_frame zero w
  exact ⟨hlm, hs, ha⟩

variable {w}

/-- Operand B in local memory: the entries after the instruction. -/
theorem Core.accAt_tensorStarted (hb : (tFields w).bsrc = 1) :
    (∀ i, i < (tFields w).m * (tFields w).n → ((c.ready v).tensorStarted zero w).accAt ((tFields w).base + i) =
      (c.dotAt (tFields w) zero (c.sreg (tFields w).kreg).toNat none (c.tensorA w) (c.tensorB w) i).1) ∧
    ∀ e, e < (tFields w).base ∨ (tFields w).base + (tFields w).m * (tFields w).n ≤ e →
      ((c.ready v).tensorStarted zero w).accAt e = c.accAt e := by
  simp only [Core.tensorStarted, hb, if_true, Core.sreg_ready, Core.tensorA_ready, Core.tensorB_ready]
  exact (c.ready v).settle.accAt_tmulRun_block (tFields w) zero _ none _ _

/-- Operand B in a queue: no entry changes. -/
theorem Core.accAt_tensorStarted_queue (hb : (tFields w).bsrc = 0) (e : Nat) :
    ((c.ready v).tensorStarted zero w).accAt e = c.accAt e := by
  simp only [Core.tensorStarted, hb, Nat.zero_ne_one, if_false, Core.accAt]
  rfl

/-- The queue instructions in progress after the instruction. -/
theorem Core.qops_tensorStarted (hq : c.qops = []) :
    ((c.ready v).tensorStarted zero w).qops = if (tFields w).bsrc = 1 then [] else [.tmul (c.tensorJob zero w)] := by
  rw [Core.tensorStarted]
  split
  · obtain ⟨acc, accErr, astat, hrun⟩ := (c.ready v).settle.tmulRun_frame (tFields w) zero
      ((c.ready v).sreg (tFields w).kreg).toNat none ((c.ready v).tensorA w) ((c.ready v).tensorB w)
    rw [hrun]
    exact hq
  · rw [Core.tensorJob_ready]

end Ready

/-! ### The statement -/

section Results

variable {s : State} {cl p : Nat} {w : BitVec 56} {op : Nat → Nat → BitVec 56 → Instr} {zero : Bool}

/-- TMUL.ACC and TMUL.ZERO with operand B in local memory. -/
theorem tensorInstr_lm_runs
    (hexec : exec (op cl p w) s = s.run fun x => tensorInstr op cl p w x (tmulOp p zero w) (tmulUse p zero w))
    (hi : Issues s.toChip cl p) (hn : Follows (fetched s.toChip cl p)) (hadm : AdmitsTensor (s.core cl p) w)
    (hgate : riseGate cl s.toChip = false) (hb : (tFields w).bsrc = 1) :
    let c := s.core cl p
    let f := tFields w
    Runs cl p (op cl p w) s fun t =>
      (∀ i, i < f.m * f.n → (t.core cl p).accAt (f.base + i) =
        (c.dotAt f zero (c.sreg f.kreg).toNat none (c.tensorA w) (c.tensorB w) i).1) ∧
      (∀ e, e < f.base ∨ f.base + f.m * f.n ≤ e → (t.core cl p).accAt e = c.accAt e) ∧
      (t.core cl p).lm = c.lm ∧ (t.core cl p).s = c.s ∧ (t.core cl p).a = c.a ∧ ∀ j, j ≠ cl → t.cl j = s.cl j := by
  intro c f
  refine tensorInstr_runs hexec hi hn hadm hgate fun t v hcore _ hclusters => ?_
  have hq : (t.core cl p).qops = [] := by
    rw [hcore, Core.qops_moved]
    exact (c.qops_tensorStarted v zero hadm.qops).trans (if_pos hb)
  have hpump : ((t.pumpCore cl p).core cl p).content = ((c.ready v).tensorStarted zero w).content ∧
      ∀ j, j ≠ cl → (t.pumpCore cl p).cl j = t.cl j := by
    obtain h | h := t.pumpCore_idle hq
    · rw [h, hcore, Core.content_moved]; exact ⟨rfl, fun _ _ => rfl⟩
    · rw [h, Chip.core_modCore_same, hcore, Core.content_pumped, Core.content_moved]
      exact ⟨rfl, fun _ hj => Chip.cl_modCore_other _ _ _ hj⟩
  obtain ⟨hcontent, hothers⟩ := hpump
  obtain ⟨hacc, hlm, hs, ha⟩ := Core.of_content hcontent
  obtain ⟨hlm', hs', ha'⟩ := c.tensorStarted_ready_frame v zero w
  obtain ⟨hin, hout⟩ := c.accAt_tensorStarted v zero hb
  exact ⟨fun i hi => (hacc _).trans (hin i hi), fun e he => (hacc e).trans (hout e he), hlm.trans hlm', hs.trans hs',
    ha.trans ha', fun j hj => (hothers j hj).trans (hclusters j hj)⟩

/-- TMUL.ACC and TMUL.ZERO with operand B in an input queue. -/
theorem tensorInstr_queue_runs
    (hexec : exec (op cl p w) s = s.run fun x => tensorInstr op cl p w x (tmulOp p zero w) (tmulUse p zero w))
    (hi : Issues s.toChip cl p) (hn : Follows (fetched s.toChip cl p)) (hadm : AdmitsTensor (s.core cl p) w)
    (hgate : riseGate cl s.toChip = false) (hb : (tFields w).bsrc = 0) :
    let c := s.core cl p
    Runs cl p (op cl p w) s fun t =>
      (t.core cl p).qops = [.tmul (c.tensorJob zero w)] ∧
      (∀ e, (t.core cl p).accAt e = c.accAt e) ∧ (t.core cl p).lm = c.lm ∧ (t.core cl p).s = c.s ∧
      (t.core cl p).a = c.a ∧ (∀ q, (t.cl cl).weave.iq q = (s.cl cl).weave.iq q) ∧ ∀ j, j ≠ cl → t.cl j = s.cl j := by
  intro c
  refine tensorInstr_runs hexec hi hn hadm hgate fun t v hcore hweave hclusters => ?_
  have hq : (t.core cl p).qops = [.tmul (c.tensorJob zero w)] := by
    rw [hcore, Core.qops_moved]
    exact (c.qops_tensorStarted v zero hadm.qops).trans (if_neg (by rw [hb]; decide))
  obtain ⟨hpump, hiq, hothers⟩ := t.pumpCore_started hq (TensorJob.total_pos hadm.k_pos).ne
  have hcontent : ((t.pumpCore cl p).core cl p).content = ((c.ready v).tensorStarted zero w).content ∧
      ((t.pumpCore cl p).core cl p).qops = [.tmul (c.tensorJob zero w)] := by
    obtain h | h := hpump
    · rw [h]; exact ⟨by rw [hcore, Core.content_moved], hq⟩
    · rw [h]; exact ⟨by rw [Core.content_pumped, hcore, Core.content_moved], rfl⟩
  obtain ⟨hacc, hlm, hs, ha⟩ := Core.of_content hcontent.1
  obtain ⟨hlm', hs', ha'⟩ := c.tensorStarted_ready_frame v zero w
  exact ⟨hcontent.2, fun e => (hacc e).trans (c.accAt_tensorStarted_queue v zero hb e), hlm.trans hlm', hs.trans hs',
    ha.trans ha', fun q => (hiq q).trans (by rw [hweave]), fun j hj => (hothers j hj).trans (hclusters j hj)⟩

/-- TMUL.ACC and TMUL.ZERO whose start is a rise in a bay that is not armed. -/
theorem tensorInstr_rise_runs
    (hexec : exec (op cl p w) s = s.run fun x => tensorInstr op cl p w x (tmulOp p zero w) (tmulUse p zero w))
    (hi : Issues s.toChip cl p) (hadm : AdmitsTensor (s.core cl p) w) (hgate : riseGate cl s.toChip = true) :
    let c := s.core cl p
    Runs cl p (op cl p w) s fun t =>
      (t.core cl p).wait = .rise ∧ (t.core cl p).acc = c.acc ∧ (t.core cl p).pc = c.pc ∧
      (t.bay (clBay cl)).arming = true ∧
      (s.clTint cl ≠ 0 → (t.gable (s.clTint cl)).windows =
        (s.gable (s.clTint cl)).windows ++ [⟨.hintmiss, s.now, none⟩]) := by
  intro c
  refine tensorInstr_held hexec hi hadm hgate ?_
  generalize hu : (s.modCore cl p fun _ => fetched s.toChip cl p) = u
  have hfetched : u.core cl p = s.core cl p := by rw [← hu, Chip.core_modCore_same, fetched_clean hadm.lmErr]
  have htint : u.clTint cl = s.clTint cl := by rw [← hu]; rfl
  have hgable : u.gable (s.clTint cl) = s.gable (s.clTint cl) := by rw [← hu]; rfl
  have hnow : u.now = s.now := by rw [← hu]; rfl
  obtain ⟨hcore, harming, hwindows⟩ := riseHeld_spec u cl p
  rw [htint, hgable, hnow] at hwindows
  rw [hfetched] at hcore
  obtain ⟨hkept, hbays, hgables⟩ := (riseHeld cl p u).pumpCore_rise (by rw [hcore]; exact hadm.qops) (by rw [hcore])
  rw [hkept, hcore, hbays, hgables]
  exact ⟨rfl, rfl, rfl, harming, hwindows⟩

end Results

/-- Settles O9: a tensor instruction that nothing holds has its effect and is pumped (`tensorInstr_runs`); its end is the
pump of its job with all its items (`tensorInstructionEnd_completes`); a rise is held (`tensorInstr_held`). -/
theorem tensorResults : Obligations.TensorResults := by
  refine ⟨fun s cl p w hi hn hgate hlm hacc hq => ?_, fun s cl p j hcl hp hbay hrun hheld hocc hj hcyc hgot hk _ => ?_,
    fun s cl p w hi hgate hlm hacc hq => ?_⟩
  · intro c f k aa ba an bn hreserved hpair hk0 hk1 hentries ha result
    refine ⟨fun hb hbn => ?_, fun hb hbq => ?_⟩
    · have hadm : AdmitsTensor c w := ⟨hlm, hacc, hq, hreserved, hpair, hk0, hk1, hentries, ha, fun _ => hbn,
        fun h => absurd (hb.symm.trans h) (by decide)⟩
      exact ⟨tensorInstr_lm_runs (op := .tmulAcc) rfl hi hn hadm hgate hb,
        tensorInstr_lm_runs (op := .tmulZero) rfl hi hn hadm hgate hb⟩
    · have hadm : AdmitsTensor c w := ⟨hlm, hacc, hq, hreserved, hpair, hk0, hk1, hentries, ha,
        fun h => absurd (hb.symm.trans h) (by decide), fun _ => hbq⟩
      exact ⟨tensorInstr_queue_runs (op := .tmulAcc) rfl hi hn hadm hgate hb,
        tensorInstr_queue_runs (op := .tmulZero) rfl hi hn hadm hgate hb⟩
  · intro c f qa items hitems hgood
    obtain ⟨t, hexec, hcore, hiq, hclusters⟩ :=
      tensorInstructionEnd_completes hcl hp hbay hrun hheld hocc hj hk hcyc hgot hitems hgood
    obtain ⟨hin, hout⟩ := c.accAt_tmulRun_block f j.zero j.k (some j.k) j.a ((items.take j.items).flatMap Item.bytes)
    obtain ⟨hq, hwork, hlm, hs, ha, hpc⟩ := c.jobEnded_pumped_frame j items (j.lead + j.total)
    obtain ⟨hacc, -, -, -⟩ := Core.of_content ((c.jobEnded j items).content_pumped [] (j.lead + j.total))
    have hentry (e : Nat) := (hacc e).trans (c.accAt_jobEnded j items e)
    refine ⟨t, hexec, ?_⟩
    beta_reduce
    rw [hcore, hiq, if_pos rfl]
    exact ⟨fun i hi => (hentry _).trans (hin i hi), fun e he => (hentry e).trans (hout e he), rfl, hq, hwork, hlm, hs, ha, hpc,
      hclusters⟩
  · intro c f k hreserved hpair hk0 hk1 hentries ha hb hbq i hmem
    have hadm : AdmitsTensor c w := ⟨hlm, hacc, hq, hreserved, hpair, hk0, hk1, hentries, ha, hb, hbq⟩
    simp only [List.mem_cons, List.not_mem_nil, or_false] at hmem
    obtain rfl | rfl := hmem
    · exact tensorInstr_rise_runs (op := .tmulAcc) rfl hi hadm hgate
    · exact tensorInstr_rise_runs (op := .tmulZero) rfl hi hadm hgate

end Sys2Proof.Machine
end

section
/-! O22: the gutter's reads, writes and positions in the cluster's own store (R179, R343). -/

namespace Sys2Proof.Machine

open Sys2Proof

/-! ### Bytes and numbers -/

theorem length_leBytes (n x : Nat) : (leBytes n x).length = n := by
  induction n generalizing x with
  | zero => rfl
  | succ n ih => rw [leBytes, List.length_cons, ih]

theorem leNat_lt (bs : List Byte) : leNat bs < 256 ^ bs.length := by
  induction bs with
  | nil => decide
  | cons b bs ih =>
    have hb : b.toNat < 256 := b.isLt
    rw [leNat, List.length_cons, Nat.pow_succ]
    omega

theorem Memory.length_read (m : Mem) (a n : Nat) : (Memory.read m a n).length = n := by
  rw [Memory.read, List.length_map, List.length_range]

theorem Memory.readNat_lt (m : Mem) (a n : Nat) : Memory.readNat m a n < 256 ^ n := by
  have h := leNat_lt (Memory.read m a n)
  rwa [Memory.length_read] at h

/-- Bytes written are read back. -/
theorem Memory.read_write_same (m : Mem) (a : Nat) (bs : List Byte) :
    Memory.read (Memory.write m a bs) a bs.length = bs := by
  refine List.ext_getElem (Memory.length_read _ _ _) fun i _ hi => ?_
  simp [Memory.read, Memory.readByte_write_in bs m a i hi]

/-- The bytes of one value. -/
theorem cutBytes_one {w : Nat} (hw : 0 < w) {bs : List Byte} (h : bs.length = w) : cutBytes w bs = [leNat bs] := by
  have hdiv : bs.length / w = 1 := by rw [h, Nat.div_self hw]
  have htake : bs.take w = bs := List.take_of_length_le h.le
  simp [cutBytes, hdiv, htake]

theorem cutBytes_nil (w : Nat) : cutBytes w [] = [] := by
  simp [cutBytes]

/-! ### The state of a gutter at work -/

/-- The gutter of cluster `cl` at work on its own store: `m` are the bytes of the store, which holds no error, `vs` the
valleys, `l` the commands in progress and `h` the bytes in hand. The other clusters are as in `s`. -/
structure GutterHas (s t : Chip) (cl : Nat) (m : Mem) (vs : SMap Valley) (l : List Active) (h : SMap (List Byte)) : Prop where
  store : (t.cl cl).store = m
  clean : (t.cl cl).storeErr = []
  valleys : (t.cl cl).valleys = vs
  list : (t.cl cl).gutter.list 0 = l
  hand : (t.cl cl).gutter.hand = h
  others : ∀ k, k ≠ cl → t.cl k = s.cl k

section Rules

variable {s t : Chip} {cl : Nat} {m : Mem} {vs : SMap Valley} {l : List Active} {h : SMap (List Byte)}

theorem GutterHas.of_cl_eq {u : Chip} (hg : GutterHas s t cl m vs l h) (hu : ∀ k, u.cl k = t.cl k) :
    GutterHas s u cl m vs l h := by
  obtain ⟨hstore, hclean, hvalleys, hlist, hhand, hothers⟩ := hg
  exact ⟨by rw [hu, hstore], by rw [hu, hclean], by rw [hu, hvalleys], by rw [hu, hlist], by rw [hu, hhand],
    fun k hk => (hu k).trans (hothers k hk)⟩

/-- A change of the gutter alone. -/
theorem GutterHas.modEngine {l' : List Active} {h' : SMap (List Byte)} (hg : GutterHas s t cl m vs l h)
    {f : Engine → Engine} (hl : (f (t.cl cl).gutter).list 0 = l') (hh : (f (t.cl cl).gutter).hand = h') :
    GutterHas s (t.modEngine cl 3 f) cl m vs l' h' := by
  have hcl : (t.modEngine cl 3 f).cl cl = { t.cl cl with gutter := f (t.cl cl).gutter } := by
    simp [Chip.modEngine, Cluster.modEngine]
  obtain ⟨hstore, hclean, hvalleys, -, -, hothers⟩ := hg
  refine ⟨?_, ?_, ?_, ?_, ?_, fun k hk => (Chip.cl_modEngine_other t 3 f hk).trans (hothers k hk)⟩
  all_goals rw [hcl]
  exacts [hstore, hclean, hvalleys, hl, hh]

/-- A register of the gutter's page. -/
theorem GutterHas.modReg (hg : GutterHas s t cl m vs l h) (off : Nat) (f : W → W) :
    GutterHas s (t.modReg (.gutter cl) off f) cl m vs l h :=
  hg.modEngine hg.list hg.hand

theorem GutterHas.count (hg : GutterHas s t cl m vs l h) (off n : Nat) :
    GutterHas s (t.count (.gutter cl) off n) cl m vs l h := hg.modReg off _

theorem GutterHas.noteMiss (hg : GutterHas s t cl m vs l h) (tint : Nat) : GutterHas s (t.noteMiss tint) cl m vs l h := by
  refine hg.of_cl_eq fun k => ?_
  unfold Chip.noteMiss
  split <;> rfl

/-- The status of a command (R88, R181, R182). -/
theorem GutterHas.gutterStatus (hg : GutterHas s t cl m vs l h) (st : Status) (miss : Bool) (tag : Nat) :
    GutterHas s (t.gutterStatus cl st miss tag) cl m vs l h := by
  simp only [Chip.gutterStatus]
  split
  · exact GutterHas.noteMiss ((hg.modReg _ _).modReg _ fun _ => BitVec.ofNat 64 tag) _
  · exact hg.modReg _ _

theorem GutterHas.dropHost (hg : GutterHas s t cl m vs l h) (q : Nat) : GutterHas s (t.dropHost cl 3 q) cl m vs l h :=
  hg.modEngine hg.list hg.hand

theorem GutterHas.emptyHand (hg : GutterHas s t cl m vs l h) (pl : Nat) :
    GutterHas s (t.emptyHand cl pl) cl m vs l (h.filter fun p => p.1 / 128 ≠ pl) :=
  hg.modEngine hg.list (by rw [hg.hand])

theorem GutterHas.setValley (hg : GutterHas s t cl m vs l h) (v : Nat) (y : Valley) :
    GutterHas s (t.setValley cl v y) cl m (SMap.set {} vs v y) l h := by
  obtain ⟨hstore, hclean, hvalleys, hlist, hhand, hothers⟩ := hg
  refine ⟨?_, ?_, ?_, ?_, ?_, fun k hk => ?_⟩
  all_goals simp [Chip.setValley, *]

theorem GutterHas.setProgress (hg : GutterHas s t cl m vs l h) (pl n : Nat) :
    GutterHas s (t.setProgress cl 3 0 pl n) cl m vs (l.map fun a => if a.place = pl then { a with progress := n } else a) h :=
  hg.modEngine (by rw [Engine.modCmd_list, hg.list]) hg.hand

theorem GutterHas.finish (hg : GutterHas s t cl m vs l h) (pl : Nat) :
    GutterHas s (t.finish cl 3 0 pl) cl m vs (l.map fun a => if a.place = pl then { a with finished := true } else a) h :=
  hg.modEngine (by rw [Engine.modCmd_list, hg.list]) hg.hand

/-- A read of the store. -/
theorem GutterHas.unitRead (hg : GutterHas s t cl m vs l h) (pl o n : Nat) :
    ∃ u, t.unitRead cl 3 0 pl false (.store o) n = .ok u (Memory.read m o n) ∧ GutterHas s u cl m vs l h := by
  obtain ⟨hstore, hclean, hvalleys, hlist, hhand, hothers⟩ := hg
  obtain ⟨-, hkept, hclean'⟩ := Cluster.storeRead_clean o n hclean
  refine ⟨_, by rw [Chip.unitRead_store _ _ _ _ _ _ hclean, hstore], ?_, ?_, ?_, ?_, ?_, fun k hk => ?_⟩
  · rw [Chip.cl_setCl, if_pos rfl, hkept, hstore]
  · rw [Chip.cl_setCl, if_pos rfl, hclean']
  · rw [Chip.cl_setCl, if_pos rfl]; exact hvalleys
  · rw [Chip.cl_setCl, if_pos rfl]; exact hlist
  · rw [Chip.cl_setCl, if_pos rfl]; exact hhand
  · rw [Chip.cl_setCl, if_neg hk, hothers k hk]

/-- A write of the store leaves the valleys and the gutter. -/
theorem Cluster.storeWrite_gutter (x : Cluster) (a : Nat) (bs : List Byte) :
    (x.storeWrite a bs).1.valleys = x.valleys ∧ (x.storeWrite a bs).1.gutter = x.gutter := by
  by_cases h1 : a % 8 = 0 <;> by_cases h2 : (a + bs.length) % 8 = 0 <;>
    simp only [Cluster.storeWrite, Cluster.storeWriteIn, h1, h2, if_true, if_false] <;> split <;> exact ⟨rfl, rfl⟩

/-- A write of the store. -/
theorem GutterHas.unitWrite (hg : GutterHas s t cl m vs l h) (pl o : Nat) (bs : List Byte) :
    ∃ u, t.unitWrite cl 3 0 pl (.store o) bs = .ok u () ∧ GutterHas s u cl (Memory.write m o bs) vs l h := by
  obtain ⟨hstore, hclean, hvalleys, hlist, hhand, hothers⟩ := hg
  obtain ⟨-, hwritten, hclean'⟩ := Cluster.storeWrite_clean o bs hclean
  obtain ⟨hvalleys', hgutter⟩ := (t.cl cl).storeWrite_gutter o bs
  refine ⟨_, Chip.unitWrite_store _ _ _ _ _ hclean, ?_, ?_, ?_, ?_, ?_, fun k hk => ?_⟩
  · rw [Chip.cl_setCl, if_pos rfl, hwritten, hstore]
  · rw [Chip.cl_setCl, if_pos rfl, hclean']
  · rw [Chip.cl_setCl, if_pos rfl, hvalleys', hvalleys]
  · rw [Chip.cl_setCl, if_pos rfl, hgutter, hlist]
  · rw [Chip.cl_setCl, if_pos rfl, hgutter, hhand]
  · rw [Chip.cl_setCl, if_neg hk, hothers k hk]

/-- A read of a piece's operand that is not yet in the hand. -/
theorem GutterHas.handRead (hg : GutterHas s t cl m vs l h) {pl i : Nat} (o n : Nat) (hi : SMap.get [] h (128 * pl + i) = []) :
    ∃ u, t.handRead cl pl i (.store o) n = .ok u (Memory.read m o n) ∧
      GutterHas s u cl m vs l (SMap.set [] h (128 * pl + i) (Memory.read m o n)) := by
  obtain ⟨u, hread, hu⟩ := hg.unitRead pl o n
  have hengine : ((t.cl cl).engine 3).hand = h := hg.hand
  have hhand : SMap.get [] ((t.cl cl).engine 3).hand (128 * pl + i) = [] := by rw [hengine, hi]
  refine ⟨u.setHand cl 3 (128 * pl + i) (Memory.read m o n), ?_, hu.modEngine hu.list (by rw [hu.hand])⟩
  simp only [Chip.handRead, hhand, hread, Acc.bind]

end Rules

end Sys2Proof.Machine
end

section
/-! O22: the integer path and FSUM on one element (R181, R182, R186). -/

namespace Sys2Proof.Machine

open Sys2Proof

/-! ### A command of the gutter -/

/-- The one command in progress, started at place 0, goes on; it is then no more as it was. -/
theorem gutterExec_next {s : State} {i : Instr} {cl op : Nat} {c : BitVec 512} {t : Chip}
    (hexec : exec i s = s.run fun x => gutterExec cl op x) (hcl : cl < 4032) (hruns : s.ringRuns cl 3 0 = true)
    (hlist : (s.cl cl).gutter.list 0 = [{ cmd := c }]) (hop : gOp c = op) (hgo : s.toChip.gutterGo cl 0 = t)
    (ht : (t.cl cl).gutter.list 0 ≠ [{ cmd := c }]) : exec i s = .next { s with toChip := t } := by
  have hrun : s.toChip.gutterRun cl op = t := by
    have hfilter : ([{ cmd := c }] : List Active).filter (fun a => !a.finished && gOp a.cmd = op) = [{ cmd := c }] := by
      simp [hop]
    simp only [Chip.gutterRun, hruns, hlist, hfilter, List.foldl_cons, List.foldl_nil, hgo, Bool.not_true, Bool.false_eq_true,
      if_false]
    simp [ht]
  rw [hexec, State.run_onUnit (b := decide (cl < 4032)) (x := s.toChip.gutterRun cl op) (by simp [hcl]) rfl, hrun]

section Lane

variable {s t : Chip} {cl a b d : Nat} {c : BitVec 512} {m : Mem} {vs : SMap Valley} {l : List Active}
  {h : SMap (List Byte)}

/-! ### The operands of one element -/

/-- The element of operand A, and for IADD that of operand B. -/
theorem laneRead_one (hg : GutterHas s t cl m vs l h) (hop : gOp c ≠ 0x06) (hw : 0 < (laneSizes (gOp c)).1)
    (h0 : SMap.get [] h 0 = []) (h1 : SMap.get [] h 1 = []) :
    ∃ u st miss h', t.laneRead cl 0 c (.store a) (.store b) 0 1 =
        .ok u ([(laneOp (gOp c) (gScale c) (Memory.readNat m a (laneSizes (gOp c)).1)
          (if gOp c = 0x02 then Memory.readNat m b (laneSizes (gOp c)).1 else 0)).1], st, miss) ∧
      GutterHas s u cl m vs l h' := by
  obtain ⟨u, hreadA, hu⟩ := hg.handRead (pl := 0) (i := 0) a (laneSizes (gOp c)).1 h0
  have hcutA := cutBytes_one hw (Memory.length_read m a (laneSizes (gOp c)).1)
  simp only [Chip.laneRead, hop, if_false, Loc.plus, Nat.mul_zero, Nat.add_zero, Nat.mul_one, hreadA, Acc.bind, hcutA]
  by_cases h2 : gOp c = 0x02
  · obtain ⟨u', hreadB, hu'⟩ := hu.handRead (pl := 0) (i := 1) b (laneSizes (gOp c)).1
      ((SMap.get_set_other [] h (by decide) _).trans h1)
    have hcutB := cutBytes_one hw (Memory.length_read m b (laneSizes (gOp c)).1)
    simp only [h2, if_true] at hreadB hcutB ⊢
    simp only [hreadB, hcutB]
    exact ⟨u', _, _, _, rfl, hu'⟩
  · simp only [h2, if_false, cutBytes_nil]
    exact ⟨u, _, _, _, rfl, hu⟩

theorem XNum.eq_nan_of_isNan {x : XNum} (h : x.isNan = true) : x = .nan := by
  cases x with
  | nan => rfl
  | inf _ => cases h
  | fin _ _ _ => cases h

/-- An FP32 sum depends on the value of its first addend alone: any NaN acts as the canonical one. -/
theorem fpAdd_canonical (x y : W32) :
    fpAdd (if (fpDecode x).isNan then BitVec.ofNat 32 fp32F.nan else x) y = fpAdd x y := by
  split
  · next hx =>
    have hcanonical : fpDecode (BitVec.ofNat 32 fp32F.nan) = .nan := by decide
    rw [fpAdd, fpAdd, hcanonical, XNum.eq_nan_of_isNan hx]
  · rfl

/-- FSUM of two vectors of one element. -/
theorem laneRead_fsum (hg : GutterHas s t cl m vs l h) (hop : gOp c = 0x06) (hn : gNsrc c = 2)
    (h0 : SMap.get [] h 0 = []) (h1 : SMap.get [] h 1 = []) :
    ∃ u st miss h', t.laneRead cl 0 c (.store a) (.store b) 0 1 =
        .ok u ([(fpAdd (BitVec.ofNat 32 (Memory.readNat m a 4)) (BitVec.ofNat 32 (Memory.readNat m (a + gStride c) 4))).1.toNat],
          st, miss) ∧ GutterHas s u cl m vs l h' := by
  obtain ⟨u, hreadA, hu⟩ := hg.handRead (pl := 0) (i := 0) a 4 h0
  obtain ⟨u', hreadB, hu'⟩ := hu.handRead (pl := 0) (i := 1) (a + gStride c) 4 ((SMap.get_set_other [] h (by decide) _).trans h1)
  have hcut (o : Nat) := cutBytes_one (w := 4) (by decide) (Memory.length_read m o 4)
  have hrange : List.range 2 = [0, 1] := rfl
  refine ⟨u', {}, false, _, ?_, hu'⟩
  simp only [Chip.laneRead, hop, if_true, hn, hrange, Chip.fsumRead, Loc.plus, Nat.mul_zero, Nat.zero_mul, Nat.one_mul,
    Nat.add_zero, Nat.mul_one, hreadA, hreadB, Acc.bind, hcut]
  simp [fsumElem, fpAdd_canonical, Memory.readNat]

/-! ### The element written -/

theorem pieceLen_one (w r x y : Nat) : pieceLen 1 w r x y = 1 := by
  unfold pieceLen; omega

theorem min_one_max_one (n : Nat) : min 1 (max 1 n) = 1 := by omega

theorem foldl_min_max_one {α : Type} (g : α → Nat) (l : List α) : l.foldl (fun m j => min m (max 1 (g j))) 1 = 1 := by
  induction l with
  | nil => rfl
  | cons x l ih => rw [List.foldl_cons, min_one_max_one, ih]

/-- A command of one element: its result is written and it has finished. -/
theorem laneMoves_one (hcount : gCount c = 1) {x : Nat} {st : Status} {miss : Bool} {u : Chip}
    (hread : t.laneRead cl 0 c (.store a) (.store b) 0 1 = .ok u ([x], st, miss))
    (hu : GutterHas s u cl m vs [{ cmd := c }] h) :
    ∃ h', GutterHas s (Chip.laneMoves cl 0 c (.store a) (.store b) (.store d) 2 0 t) cl
      (Memory.write m d (leBytes (laneSizes (gOp c)).2 x)) vs [{ cmd := c, progress := 1, finished := true }] h' := by
  obtain ⟨u', hwrite, hu'⟩ := hu.unitWrite 0 d (leBytes (laneSizes (gOp c)).2 x)
  have hdone := ((((((hu'.gutterStatus st miss (cmdTag 3 c)).count Off.GT_LINES
    (laneLines c (.store a) (.store b) 0 1)).dropHost 0).emptyHand 0).setProgress 0 1).finish 0)
  have hmoves : Chip.laneMoves cl 0 c (.store a) (.store b) (.store d) 2 0 t =
      ((((((u'.gutterStatus cl st miss (cmdTag 3 c)).count (.gutter cl) Off.GT_LINES
        (laneLines c (.store a) (.store b) 0 1)).dropHost cl 3 0).emptyHand cl 0).setProgress cl 3 0 0 1).finish cl 3 0 0) := by
    rw [Chip.laneMoves]
    simp only [hcount, ge_iff_le, (by decide : ¬ 1 ≤ 0), if_false, Nat.sub_zero, pieceLen_one, min_one_max_one,
      foldl_min_max_one, ite_self, hread, Loc.plus, Nat.mul_zero, Nat.add_zero, List.flatMap_cons, List.flatMap_nil,
      List.append_nil, hwrite, Nat.zero_add]
    rw [Chip.laneMoves]
    simp only [hcount, ge_iff_le, Nat.le_refl, if_true]
  rw [hmoves]
  exact ⟨_, hdone⟩

end Lane

/-! ### The commands -/

/-- The one command in progress is `c`, on places of the cluster's own store, and its ring runs with an empty hand. -/
structure GutterReady (s : State) (cl a b d : Nat) (c : BitVec 512) : Prop where
  cluster : cl < 4032
  runs : s.ringRuns cl 3 0 = true
  list : (s.cl cl).gutter.list 0 = [{ cmd := c }]
  hand : (s.cl cl).gutter.hand = []
  clean : (s.cl cl).storeErr = []
  srcA : locOf false (cmdFld c 8 8) = some (.store a)
  srcB : locOf false (cmdFld c 16 8) = some (.store b)
  dst : locOf false (cmdFld c 24 8) = some (.store d)

section Commands

variable {s : State} {i : Instr} {cl a b d : Nat} {c : BitVec 512}

theorem GutterReady.has (hr : GutterReady s cl a b d c) :
    GutterHas s.toChip s.toChip cl (s.cl cl).store (s.cl cl).valleys [{ cmd := c }] [] :=
  ⟨rfl, hr.clean, rfl, hr.list, hr.hand, fun _ _ => rfl⟩

theorem GutterReady.cmdAt (hr : GutterReady s cl a b d c) : (s.cl cl).gutter.cmdAt 0 0 = some { cmd := c } := by
  simp [Engine.cmdAt, hr.list]

/-- What the started command goes on to do. -/
theorem GutterReady.go_lane (hr : GutterReady s cl a b d c) (hop : gOp c ≤ 0x06) (hcount : gCount c = 1) :
    s.toChip.gutterGo cl 0 =
      Chip.laneMoves cl 0 c (.store a) (.store (if gOp c = 0x02 then b else a)) (.store d) 2 0 s.toChip := by
  have hb : (if gOp c = 0x02 then Loc.store b else .store a) = .store (if gOp c = 0x02 then b else a) :=
    (apply_ite Loc.store _ _ _).symm
  simp [Chip.gutterGo, hr.cmdAt, hr.runs, hr.srcA, hr.srcB, hr.dst, hop, hcount, hb]

/-- Command `c` has written the result element `x` of `n` bytes at `d`, and nothing else, and has finished. -/
def LaneWritten (s t : State) (cl d : Nat) (c : BitVec 512) (n x : Nat) : Prop :=
  Memory.read (t.cl cl).store d n = leBytes n x ∧
    (∀ k, k < d ∨ d + n ≤ k → Memory.readByte (t.cl cl).store k = Memory.readByte (s.cl cl).store k) ∧
    (t.cl cl).gutter.list 0 = [{ cmd := c, progress := 1, finished := true }] ∧ OtherClusters s t cl

/-- A command of one element whose operands give `x`. -/
theorem lane_completes {op x : Nat} (hr : GutterReady s cl a b d c)
    (hexec : exec i s = s.run fun y => gutterExec cl op y) (hop : gOp c = op) (hlane : op ≤ 0x06) (hcount : gCount c = 1)
    (hread : ∃ u st miss h', s.toChip.laneRead cl 0 c (.store a) (.store (if gOp c = 0x02 then b else a)) 0 1 =
        .ok u ([x], st, miss) ∧
      GutterHas s.toChip u cl (s.cl cl).store (s.cl cl).valleys [{ cmd := c }] h') :
    Completes i s fun t => LaneWritten s t cl d c (laneSizes op).2 x := by
  obtain ⟨u, st, miss, h', hok, hu⟩ := hread
  obtain ⟨h'', hdone⟩ := laneMoves_one (d := d) hcount hok hu
  have hlen := length_leBytes (laneSizes (gOp c)).2 x
  refine ⟨_, gutterExec_next hexec hr.cluster hr.runs hr.list hop (hr.go_lane (hop ▸ hlane) hcount) ?_, ?_, fun k hk => ?_,
    hdone.list, hdone.others⟩
  · rw [hdone.list]; simp
  · subst hop
    have hsame := Memory.read_write_same (s.cl cl).store d (leBytes (laneSizes (gOp c)).2 x)
    rw [hlen] at hsame
    rw [hdone.store, hsame]
  · subst hop
    rw [hdone.store, Memory.readByte_write_out _ _ _ _ (by rw [hlen]; exact hk)]

/-- The integer path on one element of `w` bytes. -/
theorem laneOp_completes {op w n x : Nat} (hr : GutterReady s cl a b d c)
    (hexec : exec i s = s.run fun y => gutterExec cl op y) (hop : gOp c = op) (hlane : op < 0x06) (hcount : gCount c = 1)
    (hsizes : laneSizes op = (w, n))
    (hx : (laneOp op (gScale c) (Memory.readNat (s.cl cl).store a w)
      (if op = 0x02 then Memory.readNat (s.cl cl).store b w else 0)).1 = x) :
    Completes i s fun t => LaneWritten s t cl d c n x := by
  subst hop hx
  have hw : 0 < (laneSizes (gOp c)).1 := by unfold laneSizes; split <;> decide
  have hread := laneRead_one (a := a) (b := if gOp c = 0x02 then b else a) hr.has hlane.ne hw rfl rfl
  have hn : (laneSizes (gOp c)).2 = n := by rw [hsizes]
  rw [hsizes] at hread
  rw [← hn]
  refine lane_completes hr hexec rfl hlane.le hcount ?_
  by_cases h2 : gOp c = 0x02
  · simpa only [h2, if_true] using hread
  · simpa only [h2, if_false] using hread

/-- FSUM of two vectors of one element. -/
theorem fsum_completes (hr : GutterReady s cl a b d c) (hexec : exec i s = s.run fun y => gutterExec cl 0x06 y)
    (hop : gOp c = 0x06) (hn : gNsrc c = 2) (hcount : gCount c = 1) :
    Completes i s fun t => LaneWritten s t cl d c 4
      (fpAdd (BitVec.ofNat 32 (Memory.readNat (s.cl cl).store a 4))
        (BitVec.ofNat 32 (Memory.readNat (s.cl cl).store (a + gStride c) 4))).1.toNat :=
  lane_completes hr hexec hop (Nat.le_refl _) hcount (laneRead_fsum hr.has hop hn rfl rfl)

end Commands

/-! ### The results of the integer path -/

/-- A code and its two's complement value differ by a multiple of 2^w. -/
theorem signedOf_emod (w x : Nat) : signedOf w x % 2 ^ w = (x : Int) % 2 ^ w := by
  simp only [signedOf]
  split <;> simp

section Results

variable (scale : Int) (x y : Nat)

theorem laneOp_quant : (laneOp 0x01 scale x y).1 = codeOf 64 (quantLane scale (fp32F.decode x)).1 := rfl

theorem laneOp_iadd : (laneOp 0x02 scale x y).1 = (x + y) % 2 ^ 64 := by
  have hsum : (signedOf 64 x + signedOf 64 y) % 2 ^ 64 = (((x + y) % 2 ^ 64 : Nat) : Int) := by
    rw [Int.add_emod, signedOf_emod, signedOf_emod, ← Int.add_emod]
    push_cast
    rfl
  show ((signedOf 64 x + signedOf 64 y) % 2 ^ 64).toNat = _
  rw [hsum, Int.toNat_natCast]

theorem laneOp_dequant : (laneOp 0x03 scale x y).1 =
    (fp32F.encodeIeee (.fin (decide (signedOf 64 x < 0)) (signedOf 64 x).natAbs scale)).1 := rfl

theorem laneOp_pack48 : (laneOp 0x04 scale x y).1 =
    codeOf 48 (max (-(2 ^ 47 - 1)) (min (2 ^ 47 - 1) (signedOf 64 x))) := rfl

theorem laneOp_unpack48 : (laneOp 0x05 scale x y).1 = codeOf 64 (signedOf 48 x) := rfl

end Results

end Sys2Proof.Machine
end

section
/-! O22: the valley commands on one term (R77 to R83, R180), and the statement. -/

namespace Sys2Proof.Machine

open Sys2Proof

section Valleys

variable {s t : Chip} {cl a b d : Nat} {c : BitVec 512} {m : Mem} {vs : SMap Valley} {l : List Active}
  {h : SMap (List Byte)}

/-! ### VDOT and VADD -/

/-- The first FP32 value of a run. -/
theorem runRead_fp32 (hg : GutterHas s t cl m vs l h) {i : Nat} (hi : SMap.get [] h i = []) :
    ∃ u, t.runRead cl 0 i (.store a) 0 0 1 = .ok u [fp32F.decode (Memory.readNat m a 4)] ∧
      GutterHas s u cl m vs l (SMap.set [] h i (Memory.read m a 4)) := by
  have hkey : 128 * 0 + i = i := by omega
  obtain ⟨u, hread, hu⟩ := hg.handRead (pl := 0) (i := i) a 4 (by rw [hkey, hi])
  rw [hkey] at hu
  have hlt : leNat (Memory.read m a 4) < 2 ^ 32 := Memory.readNat_lt m a 4
  have helem : elemDecode 0 (elemAt 32 (leNat (Memory.read m a 4)) 0) = fp32F.decode (leNat (Memory.read m a 4)) := by
    have hbits : elemAt 32 (leNat (Memory.read m a 4)) 0 = leNat (Memory.read m a 4) := by
      rw [elemAt, bits, Nat.mul_zero, Nat.shiftRight_zero, Nat.mod_eq_of_lt hlt]
    rw [hbits]
    rfl
  refine ⟨u, ?_, hu⟩
  simp only [Chip.runRead, show elemWidth 0 = 32 from rfl, Nat.zero_mul, Nat.zero_div, Nat.mul_zero, Nat.zero_add, Loc.plus,
    Nat.add_zero, Nat.reduceAdd, Nat.reduceMul, Nat.reduceDiv, Nat.reduceSub, hread, Acc.bind, Nat.shiftRight_zero]
  simp [helem, Memory.readNat]

theorem runRoom_pos (x : Loc) (f p : Nat) : 1 ≤ runRoom x f p := Nat.le_max_left _ _

/-- The one term of command `c` has left valley `v` as `y`, and the command has finished. -/
def Chip.termDone (t : Chip) (cl v : Nat) (y : Valley) (st : Status) : Chip :=
  ((((((t.setValley cl v y).gutterStatus cl st false 0).count (.gutter cl) Off.GT_TERMS 1).dropHost cl 3 0).emptyHand cl
    0).setProgress cl 3 0 0 1).finish cl 3 0 0

theorem GutterHas.termDone (hg : GutterHas s t cl m vs [{ cmd := c }] h) (v : Nat) (y : Valley) (st : Status) :
    ∃ h', GutterHas s (t.termDone cl v y st) cl m (SMap.set {} vs v y) [{ cmd := c, progress := 1, finished := true }] h' :=
  ⟨_, ((((((hg.setValley v y).gutterStatus st false 0).count Off.GT_TERMS 1).dropHost 0).emptyHand 0).setProgress 0 1).finish 0⟩

/-- VDOT of one product. -/
theorem termMoves_dot (hg : GutterHas s t cl m vs [{ cmd := c }] []) (hop : gOp c = 0x10) (hcount : gCount c = 1)
    (hfa : gFmtA c = 0) (hfb : gFmtB c = 0) :
    let p := XNum.mul (fp32F.decode (Memory.readNat m a 4)) (fp32F.decode (Memory.readNat m b 4))
    ∃ h', GutterHas s (Chip.termMoves cl 0 c (.store a) (.store b) 2 0 t) cl m
      (SMap.set {} vs (gValley c) ((SMap.get {} vs (gValley c)).addTerm p.1 p.2).1)
      [{ cmd := c, progress := 1, finished := true }] h' := by
  intro p
  obtain ⟨u, hreadA, hu⟩ := runRead_fp32 (a := a) hg (i := 0) rfl
  obtain ⟨u', hreadB, hu'⟩ := runRead_fp32 (a := b) hu (i := 1) rfl
  have hm : min 1 (min (runRoom (.store a) 0 0) (runRoom (.store b) 0 0)) = 1 := by
    have := runRoom_pos (.store a) 0 0; have := runRoom_pos (.store b) 0 0; omega
  have hvalley : (u'.cl cl).valley (gValley c) = SMap.get {} vs (gValley c) := by rw [Cluster.valley, hu'.valleys]
  have hmoves : Chip.termMoves cl 0 c (.store a) (.store b) 2 0 t = u'.termDone cl (gValley c)
      ((SMap.get {} vs (gValley c)).addTerm p.1 p.2).1 (({} : Status).or ((SMap.get {} vs (gValley c)).addTerm p.1 p.2).2) := by
    rw [Chip.termMoves]
    simp only [hcount, hop, hfa, hfb, ge_iff_le, (by decide : ¬ 1 ≤ 0), if_false, if_true, Nat.sub_zero,
      (by decide : min 1 64 = 1), hm, hreadA, hreadB, List.zipWith_cons_cons, List.zipWith_nil_left, List.foldl_cons,
      List.foldl_nil, hvalley, Nat.zero_add]
    rw [Chip.termMoves]
    simp only [hcount, ge_iff_le, Nat.le_refl, if_true]
    rfl
  rw [hmoves]
  exact hu'.termDone _ _ _

/-- VADD of one value. -/
theorem termMoves_add (hg : GutterHas s t cl m vs [{ cmd := c }] []) (hop : gOp c = 0x11) (hcount : gCount c = 1)
    (hfa : gFmtA c = 0) :
    ∃ h', GutterHas s (Chip.termMoves cl 0 c (.store a) (.store b) 2 0 t) cl m
      (SMap.set {} vs (gValley c) ((SMap.get {} vs (gValley c)).addTerm (fp32F.decode (Memory.readNat m a 4)) false).1)
      [{ cmd := c, progress := 1, finished := true }] h' := by
  obtain ⟨u, hread, hu⟩ := runRead_fp32 (a := a) hg (i := 0) rfl
  have hm : min 1 (min (runRoom (.store a) 0 0) 64) = 1 := by
    have := runRoom_pos (.store a) 0 0; omega
  have hvalley : (u.cl cl).valley (gValley c) = SMap.get {} vs (gValley c) := by rw [Cluster.valley, hu.valleys]
  have hmoves : Chip.termMoves cl 0 c (.store a) (.store b) 2 0 t = u.termDone cl (gValley c)
      ((SMap.get {} vs (gValley c)).addTerm (fp32F.decode (Memory.readNat m a 4)) false).1
      (({} : Status).or ((SMap.get {} vs (gValley c)).addTerm (fp32F.decode (Memory.readNat m a 4)) false).2) := by
    rw [Chip.termMoves]
    simp only [hcount, hop, hfa, ge_iff_le, (by decide : ¬ 1 ≤ 0), (by decide : ¬ 0x11 = 0x10), if_false, Nat.sub_zero,
      (by decide : min 1 64 = 1), hm, hread, List.map_cons, List.map_nil, List.foldl_cons, List.foldl_nil, hvalley,
      Nat.zero_add]
    rw [Chip.termMoves]
    simp only [hcount, ge_iff_le, Nat.le_refl, if_true]
    rfl
  rw [hmoves]
  exact hu.termDone _ _ _

/-! ### VMERGE, VADDRAW, VCLR and VREAD -/

/-- Command `c`, one effect, has left valley `v` as `y`, and has finished. -/
def Chip.valleyDone (t : Chip) (cl v : Nat) (y : Valley) (st : Status) : Chip :=
  (((t.setValley cl v y).gutterStatus cl st false 0).dropHost cl 3 0).finish cl 3 0 0

theorem GutterHas.valleyDone (hg : GutterHas s t cl m vs [{ cmd := c }] h) (v : Nat) (y : Valley) (st : Status) :
    GutterHas s (t.valleyDone cl v y st) cl m (SMap.set {} vs v y) [{ cmd := c, finished := true }] h :=
  (((hg.setValley v y).gutterStatus st false 0).dropHost 0).finish 0

theorem valleyOne_merge (hg : GutterHas s t cl m vs [{ cmd := c }] h) (hop : gOp c = 0x12) :
    GutterHas s (t.valleyOne cl 0 c (.store a) (.store d)) cl m
      (SMap.set {} vs (gValley c) ((SMap.get {} vs (gValley c)).merge (SMap.get {} vs (gValleyB c))).1)
      [{ cmd := c, finished := true }] h := by
  have hvalley (v : Nat) : (t.cl cl).valley v = SMap.get {} vs v := by rw [Cluster.valley, hg.valleys]
  have hone : t.valleyOne cl 0 c (.store a) (.store d) = t.valleyDone cl (gValley c)
      ((SMap.get {} vs (gValley c)).merge (SMap.get {} vs (gValleyB c))).1
      ((SMap.get {} vs (gValley c)).merge (SMap.get {} vs (gValleyB c))).2 := by
    simp only [Chip.valleyOne, hop, hvalley]
    rfl
  rw [hone]
  exact hg.valleyDone _ _ _

theorem valleyOne_addraw (hg : GutterHas s t cl m vs [{ cmd := c }] h) (hop : gOp c = 0x15) {y : Valley}
    (hy : Valley.ofRaw (Memory.read m a 88) = some y) :
    GutterHas s (t.valleyOne cl 0 c (.store a) (.store d)) cl m
      (SMap.set {} vs (gValley c) ((SMap.get {} vs (gValley c)).merge y).1) [{ cmd := c, finished := true }] h := by
  obtain ⟨u, hread, hu⟩ := hg.unitRead 0 a 88
  have hvalley : (u.cl cl).valley (gValley c) = SMap.get {} vs (gValley c) := by rw [Cluster.valley, hu.valleys]
  have hone : t.valleyOne cl 0 c (.store a) (.store d) = u.valleyDone cl (gValley c)
      ((SMap.get {} vs (gValley c)).merge y).1 ((SMap.get {} vs (gValley c)).merge y).2 := by
    simp only [Chip.valleyOne, hop, hread, hy, hvalley]
    rfl
  rw [hone]
  exact hu.valleyDone _ _ _

theorem valleyOne_clr (hg : GutterHas s t cl m vs [{ cmd := c }] h) (hop : gOp c = 0x14) :
    GutterHas s (t.valleyOne cl 0 c (.store a) (.store d)) cl m (SMap.set {} vs (gValley c) {})
      [{ cmd := c, finished := true }] h := by
  simp only [Chip.valleyOne, hop]
  exact (hg.setValley (gValley c) {}).finish 0

/-- What VREAD writes of valley `y`. -/
def Valley.readBytes (y : Valley) (raw : Bool) : List Byte := if raw then y.raw else leBytes 4 y.toFp32.1.toNat

theorem valleyOne_read (hg : GutterHas s t cl m vs [{ cmd := c }] h) (hop : gOp c = 0x13) :
    GutterHas s (t.valleyOne cl 0 c (.store a) (.store d)) cl
      (Memory.write m d ((SMap.get {} vs (gValley c)).readBytes (gRaw c))) vs [{ cmd := c, finished := true }] h := by
  obtain ⟨u, hwrite, hu⟩ := hg.unitWrite 0 d ((SMap.get {} vs (gValley c)).readBytes (gRaw c))
  have hvalley : (t.cl cl).valley (gValley c) = SMap.get {} vs (gValley c) := by rw [Cluster.valley, hg.valleys]
  have hdone (st : Status) := (hu.gutterStatus st false 0).finish 0
  cases hraw : gRaw c
  · rw [hraw, Valley.readBytes, if_neg Bool.false_ne_true] at hwrite hdone
    simp only [Chip.valleyOne, hop, hvalley, hraw, Bool.false_eq_true, if_false, hwrite]
    exact hdone _
  · rw [hraw, Valley.readBytes, if_pos rfl] at hwrite hdone
    simp only [Chip.valleyOne, hop, hvalley, hraw, if_true, hwrite]
    exact hdone _

end Valleys

/-! ### The commands -/

section Commands

variable {s : State} {i : Instr} {cl a b d op : Nat} {c : BitVec 512} {t : Chip} {m : Mem} {vs : SMap Valley}
  {l : List Active} {h : SMap (List Byte)}

theorem GutterReady.go_terms (hr : GutterReady s cl a b d c) (hlo : 0x06 < gOp c) (hop : gOp c ≤ 0x11) (hcount : gCount c = 1) :
    s.toChip.gutterGo cl 0 = Chip.termMoves cl 0 c (.store a) (.store b) 2 0 s.toChip := by
  simp [Chip.gutterGo, hr.cmdAt, hr.runs, hr.srcA, hr.srcB, Nat.not_le.2 hlo, hop, hcount]

theorem GutterReady.go_valley (hr : GutterReady s cl a b d c) (hop : 0x11 < gOp c) :
    s.toChip.gutterGo cl 0 = s.toChip.valleyOne cl 0 c (.store a) (.store d) := by
  have hlo : ¬ gOp c ≤ 0x06 := by omega
  simp [Chip.gutterGo, hr.cmdAt, hr.runs, hr.srcA, hr.dst, hlo, Nat.not_le.2 hop]

/-- A command that goes on to `t` and has then finished. -/
theorem GutterReady.completes {n : Nat} (hr : GutterReady s cl a b d c) (hexec : exec i s = s.run fun y => gutterExec cl op y)
    (hop : gOp c = op) (hgo : s.toChip.gutterGo cl 0 = t)
    (ht : GutterHas s.toChip t cl m vs [{ cmd := c, progress := n, finished := true }] h) :
    Completes i s fun u => u.toChip = t := by
  refine ⟨_, gutterExec_next hexec hr.cluster hr.runs hr.list hop hgo ?_, rfl⟩
  rw [ht.list]
  simp

/-- A valley command that leaves its valley as `y`. -/
theorem valley_completes {n : Nat} {y : Valley} (hr : GutterReady s cl a b d c)
    (hexec : exec i s = s.run fun y => gutterExec cl op y) (hop : gOp c = op)
    (ht : GutterHas s.toChip (s.toChip.gutterGo cl 0) cl (s.cl cl).store (SMap.set {} (s.cl cl).valleys (gValley c) y)
      [{ cmd := c, progress := n, finished := true }] h) :
    Completes i s fun t =>
      (t.cl cl).valley (gValley c) = y ∧ (∀ k, k ≠ gValley c → (t.cl cl).valley k = (s.cl cl).valley k) ∧
      (t.cl cl).store = (s.cl cl).store ∧ ((t.cl cl).gutter.list 0).all (·.finished) = true ∧ OtherClusters s t cl := by
  obtain ⟨u, hnext, hu⟩ := hr.completes hexec hop rfl ht
  refine ⟨u, hnext, ?_⟩
  rw [← hu] at ht
  refine ⟨?_, fun k hk => ?_, ht.store, by rw [ht.list]; rfl, ht.others⟩
  · rw [Cluster.valley, ht.valleys, SMap.get_set_same]
  · rw [Cluster.valley, ht.valleys, SMap.get_set_other _ _ hk, Cluster.valley]

/-- VREAD. -/
theorem vread_completes (hr : GutterReady s cl a b d c) (hexec : exec i s = s.run fun y => gutterExec cl 0x13 y)
    (hop : gOp c = 0x13) :
    let bs := ((s.cl cl).valley (gValley c)).readBytes (gRaw c)
    Completes i s fun t => Memory.read (t.cl cl).store d bs.length = bs ∧ (t.cl cl).valleys = (s.cl cl).valleys ∧
      ((t.cl cl).gutter.list 0).all (·.finished) = true ∧ OtherClusters s t cl := by
  intro bs
  have ht := valleyOne_read (a := a) (d := d) hr.has hop
  obtain ⟨u, hnext, hu⟩ := hr.completes hexec hop (hr.go_valley (by omega)) ht
  rw [← hu] at ht
  exact ⟨u, hnext, by rw [ht.store]; exact Memory.read_write_same _ _ _, ht.valleys, by rw [ht.list]; rfl, ht.others⟩

end Commands

/-! ### The statement -/

/-- Settles O22: the one command in progress goes on (`gutterExec_next`) through its operands, its effect and its end, each
a rule of `GutterHas`. -/
theorem gutterAndValleyResults : Obligations.GutterAndValleyResults := by
  refine ⟨fun s cl a b d c hcl hruns hlist hhand hclean hcount ha hb hd => ?_,
    fun s cl a b d c hcl hruns hlist hhand hclean ha hb hd => ?_⟩
  · have hr : GutterReady s cl a b d c := ⟨hcl, hruns, hlist, hhand, hclean, ha, hb, hd⟩
    intro m result
    refine ⟨fun hop => ?_, fun hop => ?_, fun hop => ?_, fun hop => ?_, fun hop => ?_, fun hop hn => ?_⟩
    · exact laneOp_completes (i := .quant cl) hr rfl hop (by decide) hcount rfl (laneOp_quant _ _ _)
    · exact laneOp_completes (i := .iadd cl) hr rfl hop (by decide) hcount rfl (by rw [if_pos rfl]; exact laneOp_iadd _ _ _)
    · exact laneOp_completes (i := .dequant cl) hr rfl hop (by decide) hcount rfl (laneOp_dequant _ _ _)
    · exact laneOp_completes (i := .pack48 cl) hr rfl hop (by decide) hcount rfl (laneOp_pack48 _ _ _)
    · exact laneOp_completes (i := .unpack48 cl) hr rfl hop (by decide) hcount rfl (laneOp_unpack48 _ _ _)
    · exact fsum_completes (i := .fsum cl) hr rfl hop hn hcount
  · have hr : GutterReady s cl a b d c := ⟨hcl, hruns, hlist, hhand, hclean, ha, hb, hd⟩
    intro x m v valley read
    refine ⟨fun hop hcount hfa hfb => ?_, fun hop hcount hfa => ?_, fun hop => ?_, fun hop => ?_, fun hop y hy => ?_,
      fun hop hraw => ?_, fun hop hraw => ?_⟩
    · obtain ⟨h, ht⟩ := termMoves_dot (a := a) (b := b) hr.has hop hcount hfa hfb
      rw [← hr.go_terms (by omega) (by omega) hcount] at ht
      exact valley_completes (i := .vdot cl) hr rfl hop ht
    · obtain ⟨h, ht⟩ := termMoves_add (a := a) (b := b) hr.has hop hcount hfa
      rw [← hr.go_terms (by omega) (by omega) hcount] at ht
      exact valley_completes (i := .vadd cl) hr rfl hop ht
    · have ht := valleyOne_merge (a := a) (d := d) hr.has hop
      rw [← hr.go_valley (by omega)] at ht
      exact valley_completes (i := .vmerge cl) hr rfl hop ht
    · have ht := valleyOne_clr (a := a) (d := d) hr.has hop
      rw [← hr.go_valley (by omega)] at ht
      exact valley_completes (i := .vclr cl) hr rfl hop ht
    · have ht := valleyOne_addraw (d := d) hr.has hop hy
      rw [← hr.go_valley (by omega)] at ht
      exact valley_completes (i := .vaddraw cl) hr rfl hop ht
    · have h := vread_completes (i := .vread cl) hr rfl hop
      rw [hraw] at h
      exact h
    · have h := vread_completes (i := .vread cl) hr rfl hop
      rw [hraw] at h
      exact h

end Sys2Proof.Machine
end

section
/-! O3, O4 and O12: the registers of a core, the scalar integer instructions, a set and a clear of a flag. -/

namespace Sys2Proof.Machine

open Sys2Proof

/-! ### Registers (R91) -/

theorem Core.areg_setS (c : Core) (i j : Nat) (v : W32) : (c.setS i v).areg j = c.areg j := by
  by_cases hi : i = 0 <;> simp [Core.setS, Core.areg, hi]

theorem Core.sreg_setA (c : Core) (i j : Nat) (v : W32) : (c.setA i v).sreg j = c.sreg j := rfl

/-- Settles O3: the laws of the registers, s0 apart. -/
theorem registerZero : Obligations.RegisterZero := fun c v =>
  ⟨c.sreg_zero, c.setS_zero v, fun i j => ⟨c.sreg_setS i j v, c.areg_setA i j v, c.sreg_setA i j v, c.areg_setS i j v⟩⟩

/-! ### Scalar integer instructions (R98, R100) -/

/-- A scalar integer instruction whose operation is `g` and whose result is usable in `latency` cycles. -/
theorem aluOp_runs {op : Nat → Nat → BitVec 56 → Instr} {w : BitVec 56} {s : State} {cl p latency : Nat}
    (g : W32 → W32 → W32) (hi : Issues s.toChip cl p) (hn : Follows (fetched s.toChip cl p))
    (hw : reservedOk { rd := true, rs1 := true, b := true } w = true)
    (hexec : exec (op cl p w) s = s.run fun c => coreInstr op cl p w c 1 (aluOp p w g) (aluUse latency w)) :
    let c := fetched s.toChip cl p
    let v := aluUse latency w (s.cl cl) c
    Runs cl p (op cl p w) s fun t => OnlyCore s t cl p
      (moved ((entered s.toChip cl p v).setS (fRd w) (g (c.sreg (fRs1 w)) (opB c w))) 1 v) :=
  checked_runs (g := fun c => c.setS (fRd w) (g (c.sreg (fRs1 w)) (opB c w))) hi hn hw hexec (fun _ => rfl)
    fun c => (c.setS_frame (fRd w) _).2

theorem boolW_slt (a b : W32) : boolW (BitVec.slt a b) = if a.toInt < b.toInt then 1#32 else 0#32 := by
  simp [boolW, BitVec.slt]

theorem boolW_ult (a b : W32) : boolW (BitVec.ult a b) = if a.toNat < b.toNat then 1#32 else 0#32 := by
  simp [boolW, BitVec.ult]

theorem boolW_eq (a b : W32) : boolW (a = b) = if a = b then 1#32 else 0#32 := by
  simp [boolW]

theorem ite_slt (a b x y : W32) : (if BitVec.slt a b then x else y) = if a.toInt < b.toInt then x else y := by
  simp [BitVec.slt]

/-- Settles O4: each instruction is its operation on RS1 and b (`aluOp_runs`). -/
theorem scalarIntegerResults : Obligations.ScalarIntegerResults := by
  intro s cl p w hi hn hw
  have slt := aluOp_runs (op := .slt) (fun a b => boolW (BitVec.slt a b)) hi hn hw rfl
  have sltu := aluOp_runs (op := .sltu) (fun a b => boolW (BitVec.ult a b)) hi hn hw rfl
  have seq := aluOp_runs (op := .seq) (fun a b => boolW (a = b)) hi hn hw rfl
  have min := aluOp_runs (op := .min) (fun a b => if BitVec.slt b a then b else a) hi hn hw rfl
  have max := aluOp_runs (op := .max) (fun a b => if BitVec.slt a b then b else a) hi hn hw rfl
  simp only [boolW_slt, boolW_ult, boolW_eq, ite_slt] at slt sltu seq min max
  exact ⟨aluOp_runs (op := .add) (fun a b => a + b) hi hn hw rfl,
    aluOp_runs (op := .sub) (fun a b => a - b) hi hn hw rfl,
    aluOp_runs (op := .and) (fun a b => a &&& b) hi hn hw rfl,
    aluOp_runs (op := .or) (fun a b => a ||| b) hi hn hw rfl,
    aluOp_runs (op := .xor) (fun a b => a ^^^ b) hi hn hw rfl,
    aluOp_runs (op := .shl) (fun a b => a <<< (b.toNat % 32)) hi hn hw rfl,
    aluOp_runs (op := .shr) (fun a b => a >>> (b.toNat % 32)) hi hn hw rfl,
    aluOp_runs (op := .sra) (fun a b => a.sshiftRight (b.toNat % 32)) hi hn hw rfl,
    slt, sltu, seq, min, max,
    aluOp_runs (op := .mul) (fun a b => a * b) hi hn hw rfl⟩

/-! ### Flags (R115, R116, R120) -/

theorem bit_putFld_below (w : W) {i lo n v : Nat} (h : i < lo) : bit (putFld w lo n v) i = bit w i := by
  have hmask (x : Nat) : (BitVec.ofNat 64 (x <<< lo)).getLsbD i = false := by
    simp [BitVec.getLsbD_ofNat, Nat.testBit_shiftLeft, Nat.not_le.2 h]
  simp only [bit, putFld, BitVec.getLsbD_or, BitVec.getLsbD_and, BitVec.getLsbD_not, hmask]
  by_cases hi : i < 64
  · simp [hi]
  · simp [BitVec.getLsbD_of_ge w i (Nat.not_lt.1 hi)]

/-- A new record of a flag error sets its bit, which lies below the number recorded. -/
theorem bit_fstatNote (v : W) {b lo : Nat} (f : Nat) (hb : b < lo) (h64 : b < 64) :
    bit (fstatNote v b lo f) b = true := by
  unfold fstatNote
  split
  · assumption
  · rw [bit_putFld_below _ hb, bit_setBit_same _ h64]

section Flags

variable {c : Core} {f : Nat}

theorem Core.applySet_clear (h : (c.flag f).isSet = false) : c.applySet f = c.setFlag f { isSet := true, count := 0 } := by
  simp [Core.applySet, h]

theorem Core.applySet_room (h : (c.flag f).isSet = true) (hn : (c.flag f).count < 15) :
    c.applySet f = c.setFlag f { isSet := true, count := (c.flag f).count + 1 } := by
  simp [Core.applySet, h, hn]

theorem Core.applySet_full (h : (c.flag f).isSet = true) (hn : 15 ≤ (c.flag f).count) :
    c.applySet f = { c with fstat := fstatNote c.fstat 0 8 f } := by
  simp [Core.applySet, h, Nat.not_lt.2 hn]

theorem Core.applyClear_clear (h : (c.flag f).isSet = false) :
    c.applyClear f = { c with fstat := fstatNote c.fstat 1 16 f } := by
  simp [Core.applyClear, h]

theorem Core.applyClear_counted (h : (c.flag f).isSet = true) (hn : 0 < (c.flag f).count) :
    c.applyClear f = c.setFlag f { isSet := true, count := (c.flag f).count - 1 } := by
  simp [Core.applyClear, h, hn]

theorem Core.applyClear_last (h : (c.flag f).isSet = true) (hn : (c.flag f).count = 0) :
    c.applyClear f = c.setFlag f {} := by
  simp [Core.applyClear, h, hn]

/-- A set or a clear changes one flag, or records an error. -/
theorem Core.applySet_cases (c : Core) (f : Nat) :
    (∃ g, c.applySet f = c.setFlag f g) ∨ ∃ v, c.applySet f = { c with fstat := v } := by
  unfold Core.applySet
  dsimp only
  split
  · exact .inl ⟨_, rfl⟩
  · split
    exacts [.inl ⟨_, rfl⟩, .inr ⟨_, rfl⟩]

theorem Core.applyClear_cases (c : Core) (f : Nat) :
    (∃ g, c.applyClear f = c.setFlag f g) ∨ ∃ v, c.applyClear f = { c with fstat := v } := by
  unfold Core.applyClear
  dsimp only
  split
  · exact .inr ⟨_, rfl⟩
  · split <;> exact .inl ⟨_, rfl⟩

theorem Core.flag_applySet_other {g : Nat} (h : g ≠ f) : (c.applySet f).flag g = c.flag g := by
  obtain ⟨x, hx⟩ | ⟨v, hv⟩ := c.applySet_cases f
  · rw [hx, Core.flag_setFlag, if_neg h]
  · rw [hv]; rfl

theorem Core.flag_applyClear_other {g : Nat} (h : g ≠ f) : (c.applyClear f).flag g = c.flag g := by
  obtain ⟨x, hx⟩ | ⟨v, hv⟩ := c.applyClear_cases f
  · rw [hx, Core.flag_setFlag, if_neg h]
  · rw [hv]; rfl

theorem Core.flag_setFlag_same (x : Flag) : (c.setFlag f x).flag f = x := by
  rw [Core.flag_setFlag, if_pos rfl]

end Flags

/-- Settles O12: the cases of a set and of a clear. -/
theorem flagSetAndClear : Obligations.FlagSetAndClear := by
  intro c f
  refine ⟨fun h => ?_, fun h hn => ?_, fun h hn => ?_, fun h hn => ?_, fun h hn => ?_, fun h => ?_, fun g hg => ?_⟩
  · rw [Core.applySet_clear h]; exact ⟨Core.flag_setFlag_same _, rfl⟩
  · rw [Core.applySet_room h hn]; exact ⟨Core.flag_setFlag_same _, rfl⟩
  · rw [Core.applySet_full h hn.ge]
    refine ⟨?_, bit_fstatNote _ f (by decide) (by decide)⟩
    rw [← h, ← hn]; rfl
  · rw [Core.applyClear_counted h hn]; exact ⟨Core.flag_setFlag_same _, rfl⟩
  · rw [Core.applyClear_last h hn]; exact ⟨by rw [Core.flag_setFlag_same], rfl⟩
  · rw [Core.applyClear_clear h]; exact ⟨h, bit_fstatNote _ f (by decide) (by decide)⟩
  · exact ⟨Core.flag_applySet_other hg, Core.flag_applyClear_other hg⟩

end Sys2Proof.Machine
end

section
/-! What the issue of a core instruction leaves: the rule that the statements on core instructions share
(R90, R95, R99, R124). -/

namespace Sys2Proof.Machine

open Sys2Proof

/-! ### Where a core goes on -/

/-- The core that fetched as `c` and that its instruction left as `e` goes on with the loop levels and at the address
given (R95, R99). -/
inductive Next.GoesTo (c e : Core) : Next → List LoopLevel → Int → Prop
  | seq : GoesTo c e .seq (loopNext c.loops c.pc.toNat).1 (loopNext c.loops c.pc.toNat).2
  | after (last : Nat) : GoesTo c e (.after last) (loopNext c.loops last).1 (loopNext c.loops last).2
  | jump (target : Int) : GoesTo c e (.jump target) e.loops target

/-- The core after an instruction of `cyc` cycles with effect `e`, gone on to `a`. -/
def Core.went (e : Core) (cyc : Nat) (u : Use) (loops : List LoopLevel) (a : Int) : Core :=
  { e.issued u cyc with pc := BitVec.ofInt 16 a, loops, wait := .none }

theorem Core.went_seq {c e : Core} (hl : e.loops = c.loops) (hp : e.pc = c.pc) (cyc : Nat) (u : Use) :
    e.went cyc u (loopNext c.loops c.pc.toNat).1 (loopNext c.loops c.pc.toNat).2 = moved e cyc u := by
  simp [Core.went, moved, hl, hp]

theorem Core.went_jump (e : Core) (cyc : Nat) (u : Use) {a : Int} (h : 0 ≤ a) :
    e.went cyc u e.loops a = jumped e cyc a.toNat u := by
  obtain ⟨n, rfl⟩ := Int.eq_ofNat_of_zero_le h
  simp [Core.went, jumped]

/-! ### The effect of an instruction -/

/-- The cluster when an instruction of core `p` takes effect: the fetch is behind it. -/
def atIssue (s : Chip) (cl p : Nat) : Cluster := (s.cl cl).modCore p fun _ => fetched s cl p

theorem Chip.cl_modCore_same (s : Chip) (cl p : Nat) (f : Core → Core) :
    (s.modCore cl p f).cl cl = (s.cl cl).modCore p f := by
  simp [Chip.modCore]

@[simp] theorem Chip.core_setCl_same (s : Chip) (cl p : Nat) (x : Cluster) : (s.setCl cl x).core cl p = x.core p := by
  simp [Chip.core]

@[simp] theorem Chip.core_flagErr (s : Chip) (cl : Nat) (was now : W) (k q : Nat) :
    (s.flagErr cl was now).core k q = s.core k q := by
  unfold Chip.flagErr
  split
  · rfl
  · exact Chip.core_raiseWith_cluster _ _ _ _ _ _ _ _ _

@[simp] theorem Chip.cl_flagErr_other (s : Chip) {cl k : Nat} (was now : W) (h : k ≠ cl) :
    (s.flagErr cl was now).cl k = s.cl k := by
  unfold Chip.flagErr
  split
  · rfl
  · exact Chip.cl_raiseWith_cluster_other _ _ _ _ _ _ _ h

/-- Instruction `i` of core `p`, of `cyc` cycles, is not held: with the interlocks `v` it makes `x` of its cluster and goes
on as `n` says. -/
def TakesEffect (s : State) (cl p : Nat) (i : Instr) (cyc : Nat) (v : Use) (x : Cluster) (n : Next) : Prop :=
  ∃ gate held f u, exec i s = .next { s with toChip := s.toChip.issueG i cl p cyc gate held f u } ∧
    u (atIssue s.toChip cl p) (fetched s.toChip cl p) = v ∧
    f (atIssue s.toChip cl p) (entered s.toChip cl p v) = .ok x n ∧
    gate (s.toChip.modCore cl p fun _ => fetched s.toChip cl p) = false

theorem exec_next_of_onUnit {s : State} {i : Instr} {cl p : Nat} {g : Chip → Eff} {t : Chip} (hi : Issues s.toChip cl p)
    (hexec : exec i s = s.run g) (hg : g s.toChip = onUnit (cl < 4032 && p < 136) t) :
    exec i s = .next { s with toChip := t } := by
  obtain ⟨hcl, hp, -, -, -⟩ := hi
  exact hexec.trans (State.run_onUnit (by simp [hcl, hp]) hg)

theorem takesEffect_coreInstr {op : Nat → Nat → BitVec 56 → Instr} {w : BitVec 56} {s : State} {cl p cyc : Nat}
    {f : Cluster → Core → Res} {u : Cluster → Core → Use} {v : Use} {x : Cluster} {n : Next}
    (hi : Issues s.toChip cl p)
    (hexec : exec (op cl p w) s = s.run fun c => coreInstr op cl p w c cyc f u)
    (hu : u (atIssue s.toChip cl p) (fetched s.toChip cl p) = v)
    (hf : f (atIssue s.toChip cl p) (entered s.toChip cl p v) = .ok x n) :
    TakesEffect s cl p (op cl p w) cyc v x n :=
  ⟨_, _, _, _, exec_next_of_onUnit hi hexec rfl, hu, hf, rfl⟩

/-! ### What an instruction leaves -/

/-- Core `p` of cluster `cl` is `c`, the rest of its cluster is as in `x`, and everything else is as it was. -/
structure Leaves (s t : State) (cl p : Nat) (x : Cluster) (c : Core) : Prop where
  core : t.core cl p = c
  cores : ∀ q, q ≠ p → t.core cl q = x.core q
  cluster : { t.cl cl with cores := [] } = { x with cores := [] }
  clusters : OtherClusters s t cl
  rest : { t with clusters := [] } = { s with clusters := [] }

theorem Leaves.onlyCore {s t : State} {cl p : Nat} {c e : Core} {g : Core → Core}
    (h : Leaves s t cl p (((s.cl cl).modCore p g).modCore p fun _ => e) c) : OnlyCore s t cl p c := by
  obtain ⟨hcore, hcores, hcluster, hclusters, hrest⟩ := h
  refine ⟨hcore, fun q hq => ?_, hrest, hclusters, hcluster⟩
  rw [hcores q hq]
  simp [hq, Chip.core]

/-- The chip after an instruction that takes effect: its cluster is `x`, its cycles are counted, a flag error that it made
shows on the cluster's page (R120), and the core goes on. -/
def Chip.afterIssue (s : Chip) (cl p cyc : Nat) (v : Use) (x : Cluster) (ls : List LoopLevel) (a : Int) : Chip :=
  let c := fetched s cl p
  let s := ((s.modCore cl p fun _ => c).setCl cl x).modCore cl p fun c => c.issued v cyc
  (s.flagErr cl c.fstat (x.core p).fstat).modCore cl p fun c => { c with pc := BitVec.ofInt 16 a, loops := ls, wait := .none }

section Issue

variable {s : State} {i : Instr} {cl p cyc : Nat} {v : Use} {x : Cluster} {n : Next} {ls : List LoopLevel} {a : Int}

theorem TakesEffect.exec_eq (h : TakesEffect s cl p i cyc v x n) (hi : Issues s.toChip cl p) (hg : Fetches s.toChip cl p i)
    (hgo : n.GoesTo (fetched s.toChip cl p) (x.core p) ls a) (hlo : 0 ≤ a) (hhi : a ≤ 0xBFF8) :
    exec i s = .next { s with toChip := s.toChip.afterIssue cl p cyc v x ls a } := by
  obtain ⟨gate, held, f, u, hexec, hu, hf, hgate⟩ := h
  have hfetch := hi.fetch_reads hg
  obtain ⟨-, -, hrun, -, -⟩ := hi
  rw [hexec]
  unfold atIssue at hu hf
  unfold entered at hf
  rw [← Chip.cl_modCore_same] at hu hf
  generalize hm : (s.toChip.modCore cl p fun _ => fetched s.toChip cl p) = m at *
  have hk : ((m.setCl cl x).modCore cl p fun c => c.issued v cyc).core cl p = (x.core p).issued v cyc := by
    simp [Chip.core, Chip.modCore]
  simp only [Chip.issueG, hrun, hfetch, hm, hu, hf, hgate, hk, Core.fstat_issued, Bool.not_true, Bool.false_eq_true, if_false,
    ne_eq, not_true_eq_false]
  cases hgo <;> simp only [Chip.afterIssue, hm, Chip.goTo, hlo, hhi, and_self, if_true, Chip.core_flagErr, hk, Core.loops_issued]

/-- A core and the other clusters after an instruction that takes effect; a flag error that it makes shows on the cluster's
page (R120). -/
theorem TakesEffect.runs_core (h : TakesEffect s cl p i cyc v x n) (hi : Issues s.toChip cl p)
    (hgo : n.GoesTo (fetched s.toChip cl p) (x.core p) ls a) (hlo : 0 ≤ a) (hhi : a ≤ 0xBFF8) :
    Runs cl p i s fun t => t.core cl p = (x.core p).went cyc v ls a ∧ OtherClusters s t cl := by
  intro hg
  refine ⟨_, h.exec_eq hi hg hgo hlo hhi, ?_, fun k hk => ?_⟩
  · simp only [Chip.afterIssue, Chip.core_modCore_same, Chip.core_flagErr, Chip.core_setCl_same]
    rfl
  · simp [Chip.afterIssue, hk]

/-- An instruction that takes effect and makes no flag error changes its cluster as its effect says, and nothing else. -/
theorem TakesEffect.runs (h : TakesEffect s cl p i cyc v x n) (hi : Issues s.toChip cl p)
    (hs : (x.core p).fstat = (fetched s.toChip cl p).fstat)
    (hgo : n.GoesTo (fetched s.toChip cl p) (x.core p) ls a) (hlo : 0 ≤ a) (hhi : a ≤ 0xBFF8) :
    Runs cl p i s fun t => Leaves s t cl p x ((x.core p).went cyc v ls a) := by
  intro hg
  refine ⟨_, h.exec_eq hi hg hgo hlo hhi, ?_⟩
  simp only [Chip.afterIssue, hs, Chip.flagErr_same]
  refine ⟨?_, fun q hq => ?_, ?_, fun k hk => ?_, ?_⟩
  · simp only [Chip.core_modCore_same, Chip.core_setCl_same]
    rfl
  · simp only [Chip.core_modCore_other _ _ _ hq]
    simp [Chip.core]
  · simp [Chip.cl_modCore_same]
  · simp [hk]
  · simp [Chip.modCore, Chip.modCl, Chip.setCl]

/-- An instruction whose effect is on its own core alone and that goes on in sequence. -/
theorem TakesEffect.runs_moved {e : Core}
    (h : TakesEffect s cl p i cyc v ((atIssue s.toChip cl p).modCore p fun _ => e) .seq)
    (hi : Issues s.toChip cl p) (hn : Follows (fetched s.toChip cl p)) (hs : e.fstat = (fetched s.toChip cl p).fstat)
    (hl : e.loops = (fetched s.toChip cl p).loops) (hp : e.pc = (fetched s.toChip cl p).pc) :
    Runs cl p i s fun t => OnlyCore s t cl p (moved e cyc v) := by
  intro hg
  have hx : ((atIssue s.toChip cl p).modCore p fun _ => e).core p = e := by simp
  obtain ⟨t, ht, hleaves⟩ := h.runs hi (by rw [hx, hs]) .seq (Int.natCast_nonneg _) (by unfold Follows at hn; omega) hg
  rw [hx, Core.went_seq hl hp] at hleaves
  exact ⟨t, ht, hleaves.onlyCore⟩

end Issue

theorem Runs.imp {cl p : Nat} {i : Instr} {s : State} {P Q : State → Prop} (h : Runs cl p i s P) (hpq : ∀ t, P t → Q t) :
    Runs cl p i s Q := fun hf => by
  obtain ⟨t, ht, hp⟩ := h hf
  exact ⟨t, ht, hpq t hp⟩

end Sys2Proof.Machine
end

section
/-! O7: jumps, branches and LOOP (R99, R100). -/

namespace Sys2Proof.Machine

open Sys2Proof

/-! ### Displacements -/

theorem bits_low (x n : Nat) : bits x 0 n = x % 2 ^ n := by simp [bits]

theorem dispOk_of_mod {w : BitVec 56} (h : w.toNat % 8 = 0) : dispOk w = true := by
  simp [dispOk, ibits, bits_low, h]

/-- IMM as a signed number is the signed value of the low word. -/
theorem immS_eq (w : BitVec 56) : immS w = (BitVec.ofNat 32 w.toNat).toInt := by
  rw [immS, signedOf, ibits, bits_low, BitVec.toInt_eq_toNat_cond, BitVec.toNat_ofNat]
  simp
  omega

/-! ### Cycles one after the other -/

theorem agePend_agePend (l : List Pend) (m n : Nat) : agePend (agePend l m) n = agePend l (m + n) := by
  induction l with
  | nil => rfl
  | cons q l ih =>
    simp only [agePend, List.filterMap_cons] at ih ⊢
    by_cases hm : m < q.left
    · by_cases hn : n < q.left - m
      · simp [hm, hn, show m + n < q.left by omega, ih, Nat.sub_sub]
      · simp [hm, hn, show ¬ m + n < q.left by omega, ih]
    · simp [hm, show ¬ m + n < q.left by omega, ih]

theorem Core.workCycles_workCycles (c : Core) (m n : Nat) : (c.workCycles m).workCycles n = c.workCycles (m + n) := by
  simp [Core.workCycles, agePend_agePend, Nat.sub_sub, BitVec.ofNat_add, BitVec.add_assoc]

/-- The cycle that a branch takes more when it is taken. -/
theorem Core.issued_workCycles (c : Core) {u : Use} (hu : u.leaves = []) (m n : Nat) :
    (c.workCycles m).issued u n = c.issued u (m + n) := by
  simp [Core.issued, hu, agePend, Core.workCycles_workCycles]

/-! ### Instructions that jump -/

section Jumps

variable {s : State} {cl p : Nat} {w : BitVec 56}

theorem TakesEffect.runs_jumped {i : Instr} {cyc : Nat} {v : Use} {e : Core} {target : Int}
    (h : TakesEffect s cl p i cyc v ((atIssue s.toChip cl p).modCore p fun _ => e) (.jump target))
    (hi : Issues s.toChip cl p) (hs : e.fstat = (fetched s.toChip cl p).fstat) (hlo : 0 ≤ target) (hhi : target ≤ 0xBFF8) :
    Runs cl p i s fun t => OnlyCore s t cl p (jumped e cyc target.toNat v) := by
  intro hg
  have hx : ((atIssue s.toChip cl p).modCore p fun _ => e).core p = e := by simp
  obtain ⟨t, ht, hleaves⟩ := h.runs hi (by rw [hx, hs]) (.jump target) hlo hhi hg
  rw [hx, Core.went_jump e cyc v hlo] at hleaves
  exact ⟨t, ht, hleaves.onlyCore⟩

theorem j_runs (hi : Issues s.toChip cl p) (hw : reservedOk { imm := true } w = true) (h8 : w.toNat % 8 = 0)
    (hlo : 0 ≤ ((fetched s.toChip cl p).pc.toNat : Int) + immS w)
    (hhi : ((fetched s.toChip cl p).pc.toNat : Int) + immS w ≤ 0xBFF8) :
    Runs cl p (.j cl p w) s fun t => OnlyCore s t cl p
      (jumped (entered s.toChip cl p) 1 (((fetched s.toChip cl p).pc.toNat : Int) + immS w).toNat) := by
  refine (takesEffect_coreInstr (op := .j) (w := w) (u := fun _ _ => {}) hi rfl rfl ?_).runs_jumped hi rfl hlo hhi
  simp only [hw, dispOk_of_mod h8, Bool.and_self, if_true]
  rfl

theorem jr_runs (hi : Issues s.toChip cl p) (hw : reservedOk { rs1 := true, imm := true } w = true) :
    let c := fetched s.toChip cl p
    let v := regUse [.s (fRs1 w)] (s.cl cl) c
    let target := (c.sreg (fRs1 w) + imm32 w).toNat
    target % 8 = 0 → target ≤ 0xBFF8 →
      Runs cl p (.jr cl p w) s fun t => OnlyCore s t cl p (jumped (entered s.toChip cl p v) 2 target v) := by
  intro c v target h8 hhi
  refine (takesEffect_coreInstr (op := .jr) (u := regUse [.s (fRs1 w)]) (v := v) hi rfl rfl ?_).runs_jumped
    (e := entered s.toChip cl p v) (target := target) hi rfl
    (Int.natCast_nonneg _) (by omega)
  have ht : ((entered s.toChip cl p v).sreg (fRs1 w) + imm32 w).toNat % 8 = 0 := h8
  simp only [checked_of_reservedOk hw, ht, if_true]
  rfl

/-- A branch on the condition `g` of RS1 and RS2. -/
theorem branchOp_runs {op : Nat → Nat → BitVec 56 → Instr} (g : W32 → W32 → Bool) (hi : Issues s.toChip cl p)
    (hw : reservedOk { rs1 := true, rs2 := true, imm := true } w = true) (h8 : w.toNat % 8 = 0)
    (hexec : exec (op cl p w) s = s.run fun c => coreInstr op cl p w c 1 (branchOp p w g) (regUse [.s (fRs1 w), .s (fRs2 w)])) :
    let c := fetched s.toChip cl p
    let v := regUse [.s (fRs1 w), .s (fRs2 w)] (s.cl cl) c
    let target : Int := c.pc.toNat + immS w
    if g (c.sreg (fRs1 w)) (c.sreg (fRs2 w)) then 0 ≤ target → target ≤ 0xBFF8 →
      Runs cl p (op cl p w) s fun t => OnlyCore s t cl p (jumped (entered s.toChip cl p v) 2 target.toNat v)
    else Follows c → Runs cl p (op cl p w) s fun t => OnlyCore s t cl p (moved (entered s.toChip cl p v) 1 v) := by
  intro c v target
  have hok : (reservedOk { rs1 := true, rs2 := true, imm := true } w && dispOk w) = true := by
    rw [hw, dispOk_of_mod h8]; rfl
  have hbranch {n : Next} {e : Core} (h : branchOp p w g (atIssue s.toChip cl p) (entered s.toChip cl p v) =
      okCore (atIssue s.toChip cl p) p e n) := takesEffect_coreInstr (f := branchOp p w g) (v := v) hi hexec rfl h
  split
  case isTrue ht =>
    intro hlo hhi
    have hj := (hbranch (n := .jump target) (e := (entered s.toChip cl p v).workCycles 1) (by
      have ht' : g ((entered s.toChip cl p v).sreg (fRs1 w)) ((entered s.toChip cl p v).sreg (fRs2 w)) = true := ht
      simp only [branchOp, hok, ht', if_true]
      rfl)).runs_jumped hi rfl hlo hhi
    rw [jumped, Core.issued_workCycles _ rfl] at hj
    exact hj
  case isFalse ht =>
    intro hn
    refine (hbranch (n := .seq) (e := entered s.toChip cl p v) ?_).runs_moved hi hn rfl rfl rfl
    have ht' : ¬ g ((entered s.toChip cl p v).sreg (fRs1 w)) ((entered s.toChip cl p v).sreg (fRs2 w)) = true := ht
    simp only [branchOp, hok, if_true, if_neg ht']

/-! ### LOOP -/

/-- The level that LOOP opens over the instructions from PC + 8 to PC + IMM. -/
def loopLevel (pc n : Nat) (imm : Int) : LoopLevel := { start := pc + 8, last := pc + imm.toNat, remaining := n - 1 }

section Loop

variable (hi : Issues s.toChip cl p) (hw : reservedOk { rs1 := true, imm := true } w = true) (h8 : w.toNat % 8 = 0)
  (himm : 8 ≤ immS w) (hloops : (fetched s.toChip cl p).loops.length < 2)

include hi hw h8 himm hloops

/-- LOOP admitted: it opens its level, or with a count of 0 skips the body. -/
theorem loop_takesEffect :
    let c := fetched s.toChip cl p
    let v := regUse [.s (fRs1 w)] (s.cl cl) c
    let e := entered s.toChip cl p v
    let n := (c.sreg (fRs1 w)).toNat
    let x := atIssue s.toChip cl p
    (n = 0 → TakesEffect s cl p (.loop cl p w) 1 v (x.modCore p fun _ => e) (.after (c.pc.toNat + (immS w).toNat))) ∧
    (n ≠ 0 → TakesEffect s cl p (.loop cl p w) 1 v
      (x.modCore p fun _ => { e with loops := loopLevel c.pc.toNat n (immS w) :: c.loops }) (.jump (c.pc.toNat + 8))) := by
  intro c v e n x
  have hok : (!(reservedOk { rs1 := true, imm := true } w && dispOk w && decide (8 ≤ immS w))) = false := by
    rw [hw, dispOk_of_mod h8, decide_eq_true himm]; rfl
  have hl : ¬ (entered s.toChip cl p v).loops.length ≥ 2 := by
    rw [entered_loops]; omega
  have loops {e' : Core} {m : Next} := takesEffect_coreInstr (op := .loop) (u := regUse [.s (fRs1 w)]) (v := v)
    (x := x.modCore p fun _ => e') (n := m) hi rfl rfl
  refine ⟨fun hn => loops ?_, fun hn => loops ?_⟩
  · have hn' : ((entered s.toChip cl p v).sreg (fRs1 w)).toNat = 0 := hn
    simp only [hok, Bool.false_eq_true, if_false, if_neg hl, hn', if_true]
    rfl
  · have hn' : ((entered s.toChip cl p v).sreg (fRs1 w)).toNat ≠ 0 := hn
    simp only [hok, Bool.false_eq_true, if_false, if_neg hl, if_neg hn']
    rfl

theorem loop_runs :
    let c := fetched s.toChip cl p
    let v := regUse [.s (fRs1 w)] (s.cl cl) c
    let e := entered s.toChip cl p v
    let n := (c.sreg (fRs1 w)).toNat
    (n ≠ 0 → c.pc.toNat + 8 ≤ 0xBFF8 → Runs cl p (.loop cl p w) s fun t => OnlyCore s t cl p
      { jumped e 1 (c.pc.toNat + 8) v with loops := loopLevel c.pc.toNat n (immS w) :: c.loops }) ∧
    (n = 0 → (loopNext c.loops (c.pc.toNat + (immS w).toNat)).2 ≤ 0xBFF8 → Runs cl p (.loop cl p w) s fun t =>
      OnlyCore s t cl p { jumped e 1 (loopNext c.loops (c.pc.toNat + (immS w).toNat)).2 v with
        loops := (loopNext c.loops (c.pc.toNat + (immS w).toNat)).1 }) := by
  intro c v e n
  obtain ⟨hskip, hopen⟩ := loop_takesEffect hi hw h8 himm hloops
  refine ⟨fun hn hpc => (hopen hn).runs_jumped hi rfl (Int.natCast_nonneg _) (Int.ofNat_le.2 hpc), fun hn hpc hg => ?_⟩
  have hx : ((atIssue s.toChip cl p).modCore p fun _ => e).core p = e := by simp
  obtain ⟨t, ht, hleaves⟩ := (hskip hn).runs hi (by rw [hx]; rfl) (.after _) (Int.natCast_nonneg _) (Int.ofNat_le.2 hpc) hg
  refine ⟨t, ht, ?_⟩
  have hcore := hleaves.onlyCore
  rw [hx, Core.went, BitVec.ofInt_natCast] at hcore
  exact hcore

end Loop

/-- The end of a body with passes left: back to its first instruction. -/
theorem loopNext_again (l : LoopLevel) (ls : List LoopLevel) {k : Nat} (h : l.remaining = k + 1) :
    loopNext (l :: ls) l.last = ({ l with remaining := k } :: ls, l.start) := by
  simp [loopNext, h]

end Jumps

/-- Settles O7: where each instruction jumps (`runs_jumped`), and the levels that LOOP opens and its body's end counts. -/
theorem controlFlowResults : Obligations.ControlFlowResults := by
  refine ⟨fun s cl p w hi => ⟨fun hw h8 => ?_, fun hw => ?_, fun hw h8 => ?_⟩, fun s cl p w hi hw h8 => ?_,
    fun l ls k h => loopNext_again l ls h⟩
  · have h := j_runs hi hw h8
    rw [immS_eq] at h
    exact h
  · exact jr_runs hi hw
  · have beq := branchOp_runs (op := .beq) (fun a b => a = b) hi hw h8 rfl
    have bne := branchOp_runs (op := .bne) (fun a b => a ≠ b) hi hw h8 rfl
    have blt := branchOp_runs (op := .blt) (fun a b => BitVec.slt a b) hi hw h8 rfl
    have bge := branchOp_runs (op := .bge) (fun a b => !BitVec.slt a b) hi hw h8 rfl
    have hge (a b : W32) : (!BitVec.slt a b) = decide (b.toInt ≤ a.toInt) := by
      rw [BitVec.slt, ← decide_not, decide_eq_decide, Int.not_lt]
    simp only [immS_eq, hge] at beq bne blt bge
    exact ⟨beq, bne, blt, bge⟩
  · intro c imm n e himm hloops
    have h := loop_runs hi hw h8 (by rw [immS_eq]; exact himm) hloops
    rw [immS_eq] at h
    exact h

end Sys2Proof.Machine
end

section
/-! O13 and O14: the flag instructions, native and virtual (R118 to R122, R196). -/

namespace Sys2Proof.Machine

open Sys2Proof

/-! ### A set and a clear leave the rest of the core -/

theorem Core.applyClear_frame (c : Core) (f : Nat) :
    (c.applyClear f).loops = c.loops ∧ (c.applyClear f).pc = c.pc ∧ (c.applyClear f).waitCycles = c.waitCycles := by
  obtain ⟨x, hx⟩ | ⟨v, hv⟩ := c.applyClear_cases f
  · rw [hx]; exact ⟨rfl, rfl, rfl⟩
  · rw [hv]; exact ⟨rfl, rfl, rfl⟩

/-- A clear of a set flag is no error. -/
theorem Core.fstat_applyClear {c : Core} {f : Nat} (h : (c.flag f).isSet = true) : (c.applyClear f).fstat = c.fstat := by
  by_cases hn : (c.flag f).count = 0
  · rw [Core.applyClear_last h hn]; rfl
  · rw [Core.applyClear_counted h (Nat.pos_of_ne_zero hn)]; rfl

/-! ### An instruction that stops its core -/

@[simp] theorem Chip.sets_raiseWith_cluster (s : Chip) (cl b : Nat) (cls : Option ErrClass) (detail tint : Nat) (patrol : Bool) :
    ((s.raiseWith (.cluster cl) b cls detail tint patrol).cl cl).sets = (s.cl cl).sets := by
  obtain ⟨-, ht⟩ | ⟨rs, ht⟩ := s.raiseWith_cluster cl b cls detail tint patrol
  · rw [ht]
  · simp [ht, Chip.modPage]

theorem Chip.sets_stopCore {s : Chip} {cl p : Nat} {cause : StopCause} (h : (s.core cl p).wait ≠ .rise) :
    ((s.stopCore cl p cause).cl cl).sets = (s.cl cl).sets := by
  simp only [Chip.stopCore, s.endWait_of_ne_rise cl p h]
  split
  · simp [Chip.modCore]
  · rw [Chip.sets_raiseWith_cluster]; simp [Chip.modCore]

section Stop

variable {s : State} {i : Instr} {cl p : Nat} {cause : StopCause}

/-- Instruction `i` stops core `p` with `cause`, and nothing else becomes of its cluster. -/
def StopsAt (s : State) (cl p : Nat) (i : Instr) (cause : StopCause) : Prop :=
  ∃ cyc gate held f u, exec i s = .next { s with toChip := s.toChip.issueG i cl p cyc gate held f u } ∧
    ∀ v, f (atIssue s.toChip cl p) (entered s.toChip cl p v) = .stopAt (atIssue s.toChip cl p) cause

theorem StopsAt.runs (h : StopsAt s cl p i cause) (hi : Issues s.toChip cl p) (hc : cause ≠ .done) :
    Runs cl p i s fun t =>
      t.core cl p = { fetched s.toChip cl p with wait := .none, run := .stopped, cause := cause } ∧
      (t.cl cl).sets = (s.cl cl).sets := by
  intro hg
  obtain ⟨cyc, gate, held, f, u, hexec, hf⟩ := h
  have hfetch := hi.fetch_reads hg
  have hw : (fetched s.toChip cl p).wait ≠ .rise := hi.wait_ne_rise
  obtain ⟨-, -, hrun, -, -⟩ := hi
  refine ⟨_, hexec, ?_⟩
  unfold atIssue entered at hf
  rw [← Chip.cl_modCore_same] at hf
  have hissue : s.toChip.issueG i cl p cyc gate held f u =
      (Chip.setCl (s.toChip.modCore cl p fun _ => fetched s.toChip cl p) cl
        ((s.toChip.modCore cl p fun _ => fetched s.toChip cl p).cl cl)).stopCore cl p cause := by
    simp only [Chip.issueG, hrun, hfetch, hf, Bool.not_true, Bool.false_eq_true, if_false, ne_eq, not_true_eq_false]
  have hcore : (Chip.setCl (s.toChip.modCore cl p fun _ => fetched s.toChip cl p) cl
      ((s.toChip.modCore cl p fun _ => fetched s.toChip cl p).cl cl)).core cl p = fetched s.toChip cl p := by
    rw [Chip.core_setCl_same]; exact Chip.core_modCore_same _ _ _ _
  rw [hissue]
  refine ⟨?_, ?_⟩
  · rw [(Chip.stopCore_fault _ cl p hc (by rw [hcore]; exact hw)).1, hcore]
  · rw [Chip.sets_stopCore (by rw [hcore]; exact hw)]
    simp [Chip.modCore]

theorem stopsAt_coreInstr {op : Nat → Nat → BitVec 56 → Instr} {w : BitVec 56} {cyc : Nat}
    {f : Cluster → Core → Res} {u : Cluster → Core → Use} (hi : Issues s.toChip cl p)
    (hexec : exec (op cl p w) s = s.run fun c => coreInstr op cl p w c cyc f u)
    (hf : ∀ v, f (atIssue s.toChip cl p) (entered s.toChip cl p v) = .stopAt (atIssue s.toChip cl p) cause) :
    StopsAt s cl p (op cl p w) cause :=
  ⟨_, _, _, _, _, exec_next_of_onUnit hi hexec rfl, hf⟩

theorem stopsAt_waitInstr {op : Nat → Nat → BitVec 56 → Instr} {w : BitVec 56} {cyc : Nat}
    {g : Cluster → Core → Except Res Nat} {consume : Bool} (hi : Issues s.toChip cl p)
    (hexec : exec (op cl p w) s = s.run fun c => waitInstr op cl p w cyc c g consume)
    (hg : ∀ v, g (atIssue s.toChip cl p) (entered s.toChip cl p v) = .error (.stopAt (atIssue s.toChip cl p) cause)) :
    StopsAt s cl p (op cl p w) cause :=
  ⟨_, _, _, _, _, exec_next_of_onUnit hi hexec rfl, fun v => by simp only [hg v]⟩

end Stop

/-! ### FWAIT, FWAITC and their virtual forms (R119, R121) -/

section Wait

variable {op : Nat → Nat → BitVec 56 → Instr} {w : BitVec 56} {s : State} {cl p cyc f : Nat}
  {g : Cluster → Core → Except Res Nat} {consume : Bool}
  (hi : Issues s.toChip cl p)
  (hexec : exec (op cl p w) s = s.run fun c => waitInstr op cl p w cyc c g consume)
  (hg : ∀ c, c.o2 = (fetched s.toChip cl p).o2 → g (atIssue s.toChip cl p) c = .ok f)

include hg

/-- The flag that the instruction asks for, once it is fetched. -/
theorem waitInstr_flag :
    g ((s.toChip.modCore cl p fun _ => fetched s.toChip cl p).cl cl)
      ((s.toChip.modCore cl p fun _ => fetched s.toChip cl p).core cl p) = .ok f ∧
    (s.toChip.modCore cl p fun _ => fetched s.toChip cl p).core cl p = fetched s.toChip cl p := by
  have hcore := s.toChip.core_modCore_same cl p fun _ => fetched s.toChip cl p
  rw [Chip.cl_modCore_same, hcore]
  exact ⟨hg _ rfl, rfl⟩

include hi hexec

/-- The flag is set: the core goes on, with one clear where the instruction consumes. -/
theorem waitInstr_set_runs (hn : Follows (fetched s.toChip cl p)) (hset : ((fetched s.toChip cl p).flag f).isSet = true) :
    Runs cl p (op cl p w) s fun t => OnlyCore s t cl p
      (moved (if consume then (entered s.toChip cl p).applyClear f else entered s.toChip cl p) cyc) := by
  obtain ⟨hwaits, hcore⟩ := waitInstr_flag hg
  rw [hcore] at hwaits
  have heffect : TakesEffect s cl p (op cl p w) cyc {} ((atIssue s.toChip cl p).modCore p fun _ =>
      if consume then (entered s.toChip cl p).applyClear f else entered s.toChip cl p) .seq := by
    refine ⟨_, _, _, _, exec_next_of_onUnit hi hexec rfl, rfl, ?_, ?_⟩
    · have hset' : ((entered s.toChip cl p).flag f).isSet = true := hset
      simp only [hg (entered s.toChip cl p) rfl, hset', Bool.and_true]
      rfl
    · simp only [hcore, hwaits, hset, if_true, Option.isSome_none]
  have hclear := (entered s.toChip cl p).applyClear_frame f
  refine heffect.runs_moved hi hn ?_ ?_ ?_ <;> cases consume
  · rfl
  · exact Core.fstat_applyClear (c := entered s.toChip cl p) hset
  · rfl
  · exact hclear.1
  · rfl
  · exact hclear.2.1

/-- The flag is clear: the core waits at the instruction. -/
theorem waitInstr_clear_runs (hclear : ((fetched s.toChip cl p).flag f).isSet = false) :
    Runs cl p (op cl p w) s fun t => OnlyCore s t cl p
      { (fetched s.toChip cl p).workCycles cyc with wait := .flag f consume } := by
  intro hf
  obtain ⟨hwaits, hcore⟩ := waitInstr_flag hg
  rw [hcore] at hwaits
  refine ⟨_, exec_next_of_onUnit hi hexec rfl, ?_⟩
  rw [issueG_held (v := {}) hi hf rfl (x := (atIssue s.toChip cl p).modCore p fun _ => entered s.toChip cl p) ?_ ?_]
  · simp only [hcore, hwaits, hclear, Bool.false_eq_true, if_false]
    exact ((OnlyCore.refl s cl p).modCore fun _ => fetched s.toChip cl p).modCore _
  · have hclear' : ((entered s.toChip cl p).flag f).isSet = false := hclear
    have hg' := hg (entered s.toChip cl p) rfl
    unfold atIssue at hg' ⊢
    simp only [Chip.cl_modCore_same, hg', hclear', Bool.and_false, Bool.false_eq_true, if_false]
    rfl
  · simp only [hcore, hwaits, hclear, Bool.false_eq_true, if_false, Option.isSome_some]

end Wait

/-! ### FSET and VFSET -/

section Sets

variable {s : State} {i : Instr} {cl p cyc : Nat} {g : SetTarget}

/-- An instruction that hands a set to the flag unit. -/
theorem coreSet_runs (hi : Issues s.toChip cl p) (hn : Follows (fetched s.toChip cl p))
    (h : TakesEffect s cl p i cyc {}
      ((coreSet (atIssue s.toChip cl p) p g).modCore p fun _ => entered s.toChip cl p) .seq) :
    Runs cl p i s fun t =>
      (t.cl cl).sets = (s.cl cl).sets ++ [⟨.core (((s.cl cl).logical p).getD 128), g⟩] ∧
      t.core cl p = moved (entered s.toChip cl p) cyc ∧ OtherClusters s t cl := by
  intro hf
  have hx : ((coreSet (atIssue s.toChip cl p) p g).modCore p fun _ => entered s.toChip cl p).core p =
      entered s.toChip cl p := by simp
  obtain ⟨t, ht, hleaves⟩ := h.runs hi (by rw [hx]; rfl) .seq (Int.natCast_nonneg _) (Int.ofNat_le.2 hn) hf
  refine ⟨t, ht, congrArg Cluster.sets hleaves.cluster, ?_, hleaves.clusters⟩
  rw [hleaves.core, hx]
  exact Core.went_seq (c := fetched s.toChip cl p) (e := entered s.toChip cl p) rfl rfl _ _

/-- An instruction that clears a flag of its own core. -/
theorem applyClear_runs {f : Nat} (hi : Issues s.toChip cl p) (hn : Follows (fetched s.toChip cl p))
    (h : TakesEffect s cl p i cyc {}
      ((atIssue s.toChip cl p).modCore p fun _ => (entered s.toChip cl p).applyClear f) .seq) :
    Runs cl p i s fun t =>
      t.core cl p = moved ((entered s.toChip cl p).applyClear f) cyc ∧ OtherClusters s t cl := by
  have hx : ((atIssue s.toChip cl p).modCore p fun _ => (entered s.toChip cl p).applyClear f).core p =
      (entered s.toChip cl p).applyClear f := by simp
  obtain ⟨hloops, hpc, -⟩ := (entered s.toChip cl p).applyClear_frame f
  have hrun := h.runs_core hi .seq (Int.natCast_nonneg _) (Int.ofNat_le.2 hn)
  rw [hx, Core.went_seq (c := fetched s.toChip cl p) hloops hpc] at hrun
  exact hrun

end Sets

/-! ### Native flags -/

/-- Settles O13: FSET is `coreSet_runs`, FCLR `applyClear_runs`, and the waits are `waitInstr_set_runs` and
`waitInstr_clear_runs`. -/
theorem nativeFlagInstructions : Obligations.NativeFlagInstructions := by
  intro s cl p w hi hn c e f sets
  refine ⟨fun hw ht hf => ?_, fun hw hlo hhi => ?_, fun hf => ⟨fun hw => ?_, fun hw => ?_⟩⟩
  · refine coreSet_runs hi hn (takesEffect_coreInstr (op := .fset) hi rfl rfl ?_)
    have hf' : ¬ fFlag w ≥ 48 := Nat.not_le.2 hf
    have hd : ¬ fTarget w > 0x8A := by omega
    simp [hw, ht, hf', hd]
    rfl
  · refine coreSet_runs hi hn (takesEffect_coreInstr (op := .fset) hi rfl rfl ?_)
    have ht : ¬ fTarget w < 0x80 := Nat.not_lt.2 hlo
    have hd : ¬ fTarget w > 0x8A := Nat.not_lt.2 hhi
    simp [hw, ht, hd]
    rfl
  · have hf' : ¬ fFlag w ≥ 48 := Nat.not_le.2 hf
    have native (x : Cluster) (k : Core) : nativeFlag w x k = .ok f := by
      simp [nativeFlag, hw, hf']
      rfl
    refine ⟨applyClear_runs hi hn (takesEffect_coreInstr (op := .fclr) hi rfl rfl ?_), fun hset => ⟨?_, ?_⟩,
      fun hclear => ⟨?_, ?_⟩⟩
    · simp [hw, hf']
      rfl
    · exact waitInstr_set_runs (op := .fwait) hi rfl (fun k _ => native _ k) hn hset
    · exact waitInstr_set_runs (op := .fwaitc) hi rfl (fun k _ => native _ k) hn hset
    · exact waitInstr_clear_runs (op := .fwait) hi rfl (fun k _ => native _ k) hclear
    · exact waitInstr_clear_runs (op := .fwaitc) hi rfl (fun k _ => native _ k) hclear
  · have hf' : ¬ fFlag w ≥ 48 := Nat.not_le.2 hf
    have hcount : b2n (c.flag f).isSet + 2 * (if (c.flag f).isSet then (c.flag f).count else 0) =
        if (c.flag f).isSet then 1 + 2 * (c.flag f).count else 0 := by
      cases (c.flag f).isSet <;> rfl
    have hframe := e.setS_frame (fRd w) (BitVec.ofNat 32 (if (c.flag f).isSet then 1 + 2 * (c.flag f).count else 0))
    obtain ⟨-, hs, hl, hp⟩ := hframe
    refine TakesEffect.runs_moved (v := {}) (takesEffect_coreInstr (op := .ftest) hi rfl rfl ?_) hi hn hs hl hp
    rw [← hcount]
    simp [hw, hf']
    rfl

/-! ### Virtual flags -/

/-- Settles O14: as the native flags, once the entry of the virtual ID has given the flag; without one the core stops. -/
theorem virtualFlagInstructions : Obligations.VirtualFlagInstructions := by
  intro s cl p w hi hn c e x misses ho2 hw
  have hres : vfReserved w = true := by simp [vfReserved, hw]
  have hentry : (atIssue s.toChip cl p).vflag (ibits w 0 12) = x.vflag (ibits w 0 12) := rfl
  have hlogical : (atIssue s.toChip cl p).logical p = x.logical p := rfl
  have miss {i : Instr} (h : StopsAt s cl p i .vflagMiss) : misses i := (h.runs hi (by decide)).imp fun t ht => by
    obtain ⟨hcore, hsets⟩ := ht
    rw [hcore]
    exact ⟨rfl, rfl, rfl, fun _ => rfl, hsets⟩
  have missAll (h : ∀ k, k.o2 = true → virtualFlag p w (atIssue s.toChip cl p) k =
      .error (.stopAt (atIssue s.toChip cl p) .vflagMiss)) :
      misses (.vfclr cl p w) ∧ misses (.vfwait cl p w) ∧ misses (.vfwaitc cl p w) := by
    have hstop (v : Use) := h (entered s.toChip cl p v) ho2
    exact ⟨miss (stopsAt_coreInstr (op := .vfclr) hi rfl fun v => by simp only [hstop v]),
      miss (stopsAt_waitInstr (op := .vfwait) hi rfl hstop), miss (stopsAt_waitInstr (op := .vfwaitc) hi rfl hstop)⟩
  refine ⟨fun hnone => ?_, fun own f hsome => ⟨?_, fun hown => ?_, fun hother => ?_⟩⟩
  · refine ⟨miss (stopsAt_coreInstr (op := .vfset) hi rfl fun v => ?_), missAll fun k hk => ?_⟩
    · have ho2' : (entered s.toChip cl p v).o2 = true := ho2
      simp [hres, ho2', hentry, hnone]
    · simp [virtualFlag, hres, hk, hentry, hnone]
  · refine coreSet_runs hi hn (takesEffect_coreInstr (op := .vfset) hi rfl rfl ?_)
    have ho2' : (entered s.toChip cl p).o2 = true := ho2
    simp [hres, ho2', hentry, hsome]
    rfl
  · have hgives (k : Core) (hk : k.o2 = c.o2) : virtualFlag p w (atIssue s.toChip cl p) k = .ok f := by
      simp [virtualFlag, hres, hk, ho2, hentry, hsome, hlogical, hown]
    have hclr : virtualFlag p w (atIssue s.toChip cl p) (entered s.toChip cl p) = .ok f := hgives _ rfl
    refine ⟨applyClear_runs hi hn (takesEffect_coreInstr (op := .vfclr) hi rfl rfl ?_), fun hset => ⟨?_, ?_⟩,
      fun hclear => ⟨?_, ?_⟩⟩
    · simp only [hclr]
      rfl
    · exact waitInstr_set_runs (op := .vfwait) hi rfl hgives hn hset
    · exact waitInstr_set_runs (op := .vfwaitc) hi rfl hgives hn hset
    · exact waitInstr_clear_runs (op := .vfwait) hi rfl hgives hclear
    · exact waitInstr_clear_runs (op := .vfwaitc) hi rfl hgives hclear
  · exact missAll fun k hk => by simp [virtualFlag, hres, hk, hentry, hsome, hlogical, hother]

end Sys2Proof.Machine
end

section
/-! O15: the end of a flag wait and of a tensor instruction's occupancy; NOP, ASCLR and HINT (R106, R119, R123, R124). -/

namespace Sys2Proof.Machine

open Sys2Proof

/-! ### FLAG_WAIT_END -/

/-- A core that moves on to an address of local memory. -/
theorem Chip.goTo_inside (s : Chip) (cl p : Nat) (ls : List LoopLevel) {a : Nat} (h : a ≤ 0xBFF8) :
    s.goTo cl p ls a = s.modCore cl p fun c => { c with pc := BitVec.ofNat 16 a, loops := ls, wait := .none } := by
  have ha : (0 : Int) ≤ a ∧ (a : Int) ≤ 0xBFF8 := ⟨Int.natCast_nonneg _, Int.ofNat_le.2 h⟩
  simp only [Chip.goTo, ha, and_self, if_true, BitVec.ofInt_natCast]

theorem Chip.modCoreF_same {s : Chip} {cl p : Nat} {f : Core → Core} (h : (f (s.core cl p)).fstat = (s.core cl p).fstat) :
    s.modCoreF cl p f = s.modCore cl p f := by
  simp only [Chip.modCoreF, Chip.core_modCore_same, h, Chip.flagErr_same]

/-- The core once its wait of `n` cycles for flag `f` has ended. -/
def Core.flagWaited (c : Core) (n f : Nat) (consume : Bool) : Core :=
  if consume then (c.waited n).applyClear f else c.waited n

theorem Core.flagWaited_frame (c : Core) (n f : Nat) (consume : Bool) :
    (c.flagWaited n f consume).loops = c.loops ∧ (c.flagWaited n f consume).pc = c.pc ∧
      (c.flagWaited n f consume).waitCycles = (c.waited n).waitCycles := by
  cases consume
  · exact ⟨rfl, rfl, rfl⟩
  · exact (c.waited n).applyClear_frame f

/-- The clear finds the flag as it was before the wait. -/
theorem Core.flag_flagWaited {c : Core} {f : Nat} (h : (c.flag f).isSet = true) (n : Nat) (consume : Bool) :
    (c.flagWaited n f consume).flag f = if consume then (c.applyClear f).flag f else c.flag f := by
  cases consume
  · rfl
  · have h' : ((c.waited n).flag f).isSet = true := h
    by_cases hn : (c.flag f).count = 0
    · have hn' : ((c.waited n).flag f).count = 0 := hn
      simp only [Core.flagWaited, if_true, Core.applyClear_last h hn, Core.applyClear_last h' hn', Core.flag_setFlag_same]
    · have hn' : 0 < ((c.waited n).flag f).count := Nat.pos_of_ne_zero hn
      simp only [Core.flagWaited, if_true, Core.applyClear_counted h (Nat.pos_of_ne_zero hn), Core.applyClear_counted h' hn',
        Core.flag_setFlag_same]
      rfl

section WaitEnd

variable {s : State} {cl p n f : Nat} {consume : Bool}

theorem exec_flagWaitEnd (hcl : cl < 4032) (hp : p < 136) (hwait : (s.core cl p).wait = .flag f consume)
    (hset : ((s.core cl p).flag f).isSet = true) (hrun : (s.core cl p).run = .running) (hheld : s.coreHeld cl = false)
    (hbay : s.bayRuns (clBay cl) = true) :
    let l := loopNext (s.core cl p).loops (s.core cl p).pc.toNat
    exec (.flagWaitEnd cl p n) s =
      .next { s with toChip := (s.toChip.modCore cl p fun c => c.flagWaited n f consume).goTo cl p l.1 l.2 } := by
  intro l
  change execFlagWaitEnd cl p n s = _
  refine State.run_onUnit (b := decide (cl < 4032) && decide (p < 136)) (by simp [hcl, hp]) ?_
  have hstat : ((s.core cl p).flagWaited n f consume).fstat = (s.core cl p).fstat := by
    cases consume
    · rfl
    · exact Core.fstat_applyClear (c := (s.core cl p).waited n) hset
  simp only [hwait, hset, hrun, hheld, hbay, decide_true, Bool.not_false, Bool.and_self, if_true]
  have hwaited : (s.toChip.modCoreF cl p fun c => if consume then (c.waited n).applyClear f else c.waited n) =
      s.toChip.modCore cl p fun c => c.flagWaited n f consume := Chip.modCoreF_same hstat
  rw [hwaited]

end WaitEnd

/-! ### TENSOR_INSTRUCTION_END -/

theorem exec_tensorInstructionEnd_occupied {s : State} {cl p : Nat} (hcl : cl < 4032) (hp : p < 136)
    (hocc : (s.core cl p).occ ≠ 0) (hrun : (s.core cl p).run = .running) (hheld : s.coreHeld cl = false)
    (hbay : s.bayRuns (clBay cl) = true) :
    exec (.tensorInstructionEnd cl p) s =
      .next { s with toChip := s.toChip.modCl cl fun x => (x.modCore p Core.settle).busyAt s.now } := by
  change execTensorInstructionEnd cl p s = _
  refine State.run_onUnit (b := decide (cl < 4032) && decide (p < 136)) (by simp [hcl, hp]) ?_
  simp [hrun, hheld, hbay, Nat.pos_of_ne_zero hocc]

theorem Chip.core_settled (s : Chip) (cl p : Nat) :
    (s.modCl cl fun x => (x.modCore p Core.settle).busyAt s.now).core cl p = (s.core cl p).settle := by
  have hcore : (((s.cl cl).modCore p Core.settle).busyAt s.now).core p = ((s.cl cl).modCore p Core.settle).core p := rfl
  simp [Chip.core, hcore]

/-! ### HINT -/

/-- The queue of 8 hints, the oldest of which gives way. -/
theorem Cluster.hints_pushHint (x : Cluster) (h : Hint) :
    (x.hints.length < 8 → (x.pushHint h).hints = x.hints ++ [h]) ∧
      (8 ≤ x.hints.length → (x.pushHint h).hints = x.hints.drop 1 ++ [h]) := by
  refine ⟨fun hl => ?_, fun hl => ?_⟩
  · rw [Cluster.pushHint, if_pos hl]
  · rw [Cluster.pushHint, if_neg (Nat.not_lt.2 hl)]

theorem hint_runs {s : State} {cl p : Nat} {w : BitVec 56} (hi : Issues s.toChip cl p)
    (hn : Follows (fetched s.toChip cl p)) (hw : ibits w 16 16 = 0) :
    let h : Hint := ⟨s.clTime cl, ibits w 32 24, ibits w 0 16⟩
    Runs cl p (.hint cl p w) s fun t =>
      t.core cl p = moved (entered s.toChip cl p) 1 ∧ (t.cl cl).hints = ((atIssue s.toChip cl p).pushHint h).hints := by
  intro h hf
  have hx : (((atIssue s.toChip cl p).pushHint h).modCore p fun _ => entered s.toChip cl p).core p =
      entered s.toChip cl p := by simp
  have hexec : exec (.hint cl p w) s = s.run fun c => coreInstr .hint cl p w c 1 fun x k =>
      if ibits w 16 16 ≠ 0 then .stopAt x .illegal
      else okCore (x.pushHint ⟨c.clTime cl, ibits w 32 24, ibits w 0 16⟩) p k := rfl
  have heffect : TakesEffect s cl p (.hint cl p w) 1 {}
      (((atIssue s.toChip cl p).pushHint h).modCore p fun _ => entered s.toChip cl p) .seq := by
    refine ⟨_, _, _, _, exec_next_of_onUnit hi hexec rfl, rfl, ?_, rfl⟩
    simp only [hw, ne_eq, not_true_eq_false, if_false]
    rfl
  obtain ⟨t, ht, hleaves⟩ := heffect.runs hi (by rw [hx]; rfl) .seq (Int.natCast_nonneg _) (Int.ofNat_le.2 hn) hf
  have hhints := congrArg Cluster.hints hleaves.cluster
  refine ⟨t, ht, ?_, hhints⟩
  rw [hleaves.core, hx]
  exact Core.went_seq (c := fetched s.toChip cl p) (e := entered s.toChip cl p) rfl rfl _ _

/-- Settles O15: the states that the two ends leave, and the effects of the three instructions. -/
theorem waitEndAndSystemInstructions : Obligations.WaitEndAndSystemInstructions := by
  intro s cl p hcl hp
  refine ⟨fun n f consume hwait hset hrun hheld hbay hn => ?_, fun hocc hrun hheld hbay => ?_, fun hi hn => ⟨?_, fun w hw => ?_,
    fun w hw => ?_⟩⟩
  · refine ⟨_, exec_flagWaitEnd hcl hp hwait hset hrun hheld hbay, ?_⟩
    rw [Chip.goTo_inside _ _ _ _ hn]
    have honly := ((OnlyCore.refl s cl p).modCore fun c => c.flagWaited n f consume).modCore fun c =>
      { c with
        pc := BitVec.ofNat 16 (loopNext (s.core cl p).loops (s.core cl p).pc.toNat).2
        loops := (loopNext (s.core cl p).loops (s.core cl p).pc.toNat).1
        wait := .none }
    obtain ⟨hloops, hpc, hcycles⟩ := (s.core cl p).flagWaited_frame n f consume
    have hcore := honly.1
    refine ⟨?_, ?_, ?_⟩
    · rw [← hloops, ← hpc] at honly ⊢
      exact honly
    · rw [hcore]
      exact hcycles
    · rw [hcore]
      exact Core.flag_flagWaited hset n consume
  · refine ⟨_, exec_tensorInstructionEnd_occupied hcl hp hocc hrun hheld hbay, ?_⟩
    have hcore := s.toChip.core_settled cl p
    simp only [hcore]
    simp [Core.settle, Core.workCycles]
  · exact TakesEffect.runs_moved (v := {}) (takesEffect_coreInstr (op := .nop) hi rfl rfl rfl) hi hn rfl rfl rfl
  · refine TakesEffect.runs_moved (v := {}) (takesEffect_coreInstr (op := .asclr) hi rfl rfl ?_) hi hn rfl rfl rfl
    simp only [hw, ne_eq, not_true_eq_false, if_false]
    rfl
  · refine (hint_runs hi hn hw).imp fun t ht => ?_
    obtain ⟨hcore, hhints⟩ := ht
    rw [hhints]
    obtain ⟨hroom, hfull⟩ := (atIssue s.toChip cl p).hints_pushHint ⟨s.clTime cl, ibits w 32 24, ibits w 0 16⟩
    exact ⟨hcore, hroom, hfull⟩

end Sys2Proof.Machine
end

section
/-! O6: loads and stores of local memory and of the cluster store (R94, R95, R98, R141, R167). -/

namespace Sys2Proof.Machine

open Sys2Proof

/-! ### Bytes -/

theorem getElem_leBytes (n x i : Nat) (h : i < (leBytes n x).length) : (leBytes n x)[i] = BitVec.ofNat 8 (x / 256 ^ i) := by
  induction n generalizing x i with
  | zero => exact absurd h (Nat.not_lt_zero _)
  | succ n ih =>
    cases i with
    | zero => simp [leBytes]
    | succ i =>
      simp only [leBytes, List.getElem_cons_succ]
      rw [ih, Nat.div_div_eq_div_mul, Nat.pow_succ']

theorem leBytes_ne_nil {n : Nat} (h : 0 < n) (x : Nat) : (leBytes n x).isEmpty = false := by
  cases n with
  | zero => exact absurd h (Nat.lt_irrefl 0)
  | succ n => rfl

theorem Memory.read_succ (m : Mem) (a n : Nat) : Memory.read m a (n + 1) = Memory.readByte m a :: Memory.read m (a + 1) n := by
  simp only [Memory.read, List.range_succ_eq_map, List.map_cons, List.map_map, Nat.add_zero]
  congr 1
  refine List.map_congr_left fun i _ => ?_
  simp [Nat.add_assoc, Nat.add_comm 1 i]

theorem Memory.readNat_succ (m : Mem) (a n : Nat) :
    Memory.readNat m a (n + 1) = (Memory.readByte m a).toNat + 256 * Memory.readNat m (a + 1) n := by
  rw [Memory.readNat, Memory.read_succ, leNat, Memory.readNat]

theorem Memory.readNat_zero (m : Mem) (a : Nat) : Memory.readNat m a 0 = 0 := rfl

/-! ### Accesses to local memory -/

section Local

variable (x : Cluster) (p acc : Nat) {c : Core} {a : Nat}

/-- Bytes in local memory without errors that no QRECV writes are at hand. -/
theorem getBytesIn_lm {n : Nat} (k : Cluster → Core → List Byte → Res) (h : a + n ≤ 0xC000) (hq : c.qops = [])
    (he : c.lmErr = []) : getBytesIn acc x p c a n k = k x c (Memory.read c.lm a n) := by
  by_cases hn : n = 0
  · subst hn; simp [getBytesIn, Memory.read]
  · simp [getBytesIn, hn, x.place_lm p h, Core.lmBusy, hq, Core.lmRead_clean _ _ he]

/-- Bytes are stored in local memory without errors that no queue instruction reads or writes. -/
theorem putBytesIn_lm {bs : List Byte} (k : Cluster → Core → Res) (h : a + bs.length ≤ 0xC000) (hq : c.qops = [])
    (he : c.lmErr = []) : putBytesIn acc x p c a bs k = k x { c with lm := Memory.write c.lm a bs } := by
  cases bs with
  | nil => rfl
  | cons b bs =>
    have hplace := x.place_lm p h
    rw [List.length_cons] at hplace
    simp [putBytesIn, hplace, Core.lmBusy, Core.srcBusy, hq, Core.lmWrite_clean _ _ he]

end Local

/-! ### Accesses to the cluster store through an ACCESS port -/

section Store

variable {x : Cluster} {p a : Nat}

theorem Cluster.place_store {n : Nat} (hport : (x.portOf p).isSome = true) (hlo : 0x1000000 ≤ a) (hhi : a + n ≤ 0x1C00000) :
    x.place p a n = .store (a - 0x1000000) := by
  have hlm : ¬ a + n ≤ 0xC000 := by omega
  simp [Cluster.place, placeOf, hlm, hlo, hhi, hport]

theorem Cluster.storeReadIn_clean (o n acc : Nat) (h : x.storeErr = []) :
    (x.storeReadIn o n acc).2 = some (Memory.read x.store o n) ∧ (x.storeReadIn o n acc).1.store = x.store := by
  simp [Cluster.storeReadIn, Cluster.storeScan, h]

theorem Cluster.storeWriteIn_clean (o : Nat) (bs : List Byte) (acc : Nat) (h : x.storeErr = []) :
    (x.storeWriteIn o bs acc).2 = true ∧ (x.storeWriteIn o bs acc).1.store = Memory.write x.store o bs := by
  have hs := fun lo hi => Cluster.storeScan_clean (x := x) lo hi h
  have hs' := fun lo hi => Cluster.storeScan_clean (x := (x.storeScan (o / 8) (o / 8 + 1)).1) lo hi (hs _ _).2.2
  by_cases h1 : o % 8 = 0 <;> by_cases h2 : (o + bs.length) % 8 = 0 <;>
    simp [Cluster.storeWriteIn, h1, h2, hs, hs']

/-- Bytes of a store without errors are at hand. -/
theorem getBytesIn_store {acc n o : Nat} {c : Core} (k : Cluster → Core → List Byte → Res) (hn : 0 < n)
    (hplace : x.place p a n = .store o) (he : x.storeErr = []) :
    getBytesIn acc x p c a n k =
      k (x.storeReadIn o n acc).1 { c with portUse := true } (Memory.read x.store o n) := by
  obtain ⟨hread, -⟩ := Cluster.storeReadIn_clean o n acc he
  simp only [getBytesIn, Nat.ne_of_gt hn, if_false, hplace]
  rcases hx : x.storeReadIn o n acc with ⟨y, b⟩
  rw [hx] at hread
  simp only at hread
  rw [hread]

/-- Bytes are stored in a store without errors. -/
theorem putBytesIn_store {acc o : Nat} {bs : List Byte} {c : Core} (k : Cluster → Core → Res) (hbs : bs.isEmpty = false)
    (hplace : x.place p a bs.length = .store o) (hq : c.qops = []) (he : x.storeErr = []) :
    putBytesIn acc x p c a bs k = k (x.storeWriteIn o bs acc).1 { c with portUse := true } := by
  obtain ⟨hwrite, -⟩ := Cluster.storeWriteIn_clean o bs acc he
  have hsrc : c.srcBusy a bs.length = none := by simp [Core.srcBusy, hq]
  simp only [putBytesIn, hbs, Bool.false_eq_true, if_false, hplace, hsrc]
  rcases hx : x.storeWriteIn o bs acc with ⟨y, b⟩
  rw [hx] at hwrite
  simp only at hwrite
  rw [hwrite]

end Store

/-! ### POSTINC -/

theorem postInc_frame (c : Core) (w : BitVec 56) :
    (postInc c w).fstat = c.fstat ∧ (postInc c w).loops = c.loops ∧ (postInc c w).pc = c.pc ∧ (postInc c w).s = c.s ∧
      (postInc c w).lm = c.lm := by
  unfold postInc
  split <;> exact ⟨rfl, rfl, rfl, rfl, rfl⟩

/-- A load's result in RD, AR being advanced under POSTINC. -/
def Core.loaded (c : Core) (w : BitVec 56) (v : Nat) : Core := (postInc c w).setS (fRd w) (BitVec.ofNat 32 v)

theorem Core.loaded_frame (c : Core) (w : BitVec 56) (v : Nat) :
    (c.loaded w v).fstat = c.fstat ∧ (c.loaded w v).loops = c.loops ∧ (c.loaded w v).pc = c.pc := by
  obtain ⟨-, hs, hl, hp⟩ := (postInc c w).setS_frame (fRd w) (BitVec.ofNat 32 v)
  obtain ⟨hs', hl', hp', -, -⟩ := postInc_frame c w
  exact ⟨hs.trans hs', hl.trans hl', hp.trans hp'⟩

theorem Core.lm_loaded (c : Core) (w : BitVec 56) (v : Nat) : (c.loaded w v).lm = c.lm := by
  obtain ⟨-, -, -, -, hlm⟩ := postInc_frame c w
  rw [← hlm, Core.loaded, Core.setS]
  split <;> rfl

/-- The core with the bytes of a store in local memory, AR being advanced under POSTINC. -/
theorem moved_postInc_lm (c : Core) (w : BitVec 56) (m : Mem) (u : Use) :
    moved (postInc { c with lm := m } w) 1 u = { moved (postInc c w) 1 u with lm := m } := by
  unfold postInc
  split <;> rfl

section Run

variable {s : State} {cl p : Nat} {w : BitVec 56} {op : Nat → Nat → BitVec 56 → Instr} {n : Nat}
  (hi : Issues s.toChip cl p) (hn : Follows (fetched s.toChip cl p))
  (hw : reservedOk { rd := true, ar := true, post := true, imm := true } w = true)
  (he : (s.core cl p).lmErr = []) (hq : (s.core cl p).qops = [])

include hi hn hw he hq

/-- A load from local memory. -/
theorem loadOp_lm_runs
    (hexec : exec (op cl p w) s = s.run fun c => coreInstr op cl p w c 1 (loadOp p n w) (loadUse p n w))
    (ha : memAddr (s.core cl p) w + n ≤ 0xC000) :
    let u := loadUse p n w (s.cl cl) (s.core cl p)
    Runs cl p (op cl p w) s fun t => OnlyCore s t cl p (moved
      ((entered s.toChip cl p u).loaded w (Memory.readNat (s.core cl p).lm (memAddr (s.core cl p) w) n)) 1 u) := by
  intro u
  have hu : loadUse p n w (atIssue s.toChip cl p) (fetched s.toChip cl p) = u := by rw [fetched_clean he]; rfl
  have hclean : (entered s.toChip cl p u).lmErr = [] := by rw [entered, fetched_clean he]; exact he
  have hload := getBytesIn_lm (atIssue s.toChip cl p) p 1 (c := entered s.toChip cl p u)
    (fun x c bs => okCore x p ((postInc c w).setS (fRd w) (BitVec.ofNat 32 (leNat bs)))) ha hq hclean
  refine TakesEffect.runs_moved (takesEffect_coreInstr hi hexec hu ?_) hi hn ?_ ?_ ?_
  · rw [loadOp, checked_of_reservedOk hw]
    exact hload
  · exact (Core.loaded_frame _ _ _).1
  · exact (Core.loaded_frame _ _ _).2.1
  · exact (Core.loaded_frame _ _ _).2.2

/-- A store to local memory. -/
theorem storeOp_lm_runs
    (hexec : exec (op cl p w) s = s.run fun c => coreInstr op cl p w c 1 (storeOp p n w) (storeUse n w))
    (ha : memAddr (s.core cl p) w + n ≤ 0xC000) :
    let u := storeUse n w (s.cl cl) (s.core cl p)
    let bs := leBytes n ((s.core cl p).sreg (fRd w)).toNat
    Runs cl p (op cl p w) s fun t => OnlyCore s t cl p { moved (postInc (entered s.toChip cl p u) w) 1 u with
      lm := Memory.write (s.core cl p).lm (memAddr (s.core cl p) w) bs } := by
  intro u bs
  have hu : storeUse n w (atIssue s.toChip cl p) (fetched s.toChip cl p) = u := by rw [fetched_clean he]; rfl
  have hclean : (entered s.toChip cl p u).lmErr = [] := by rw [entered, fetched_clean he]; exact he
  have hstore := putBytesIn_lm (atIssue s.toChip cl p) p 1 (c := entered s.toChip cl p u) (bs := bs)
    (fun x c => okCore x p (postInc c w)) (by rw [length_leBytes]; exact ha) hq hclean
  obtain ⟨hs, hl, hp, -, -⟩ := postInc_frame
    { entered s.toChip cl p u with lm := Memory.write (s.core cl p).lm (memAddr (s.core cl p) w) bs } w
  rw [← moved_postInc_lm]
  refine TakesEffect.runs_moved (takesEffect_coreInstr hi hexec hu ?_) hi hn hs hl hp
  rw [storeOp, checked_of_reservedOk hw]
  exact hstore

variable {o : Nat} (hse : (s.cl cl).storeErr = []) (hpos : 0 < n)
  (hplace : (s.cl cl).place p (memAddr (s.core cl p) w) n = .store o)

include hse hpos hplace

omit hq in
/-- A load from the cluster store. -/
theorem loadOp_store_runs
    (hexec : exec (op cl p w) s = s.run fun c => coreInstr op cl p w c 1 (loadOp p n w) (loadUse p n w)) :
    Runs cl p (op cl p w) s fun t =>
      (t.core cl p).sreg (fRd w) = (if fRd w = 0 then 0#32 else
        BitVec.ofNat 32 (Memory.readNat (s.cl cl).store o n)) ∧
      (t.cl cl).store = (s.cl cl).store ∧ (t.core cl p).lm = (s.core cl p).lm ∧ OtherClusters s t cl := by
  intro hf
  have hu : loadUse p n w (atIssue s.toChip cl p) (fetched s.toChip cl p) = loadUse p n w (s.cl cl) (s.core cl p) := by
    rw [fetched_clean he]; rfl
  generalize loadUse p n w (s.cl cl) (s.core cl p) = u at hu
  have hload := getBytesIn_store (acc := 1) (c := entered s.toChip cl p u) (x := atIssue s.toChip cl p)
    (fun x c bs => okCore x p ((postInc c w).setS (fRd w) (BitVec.ofNat 32 (leNat bs)))) hpos hplace hse
  have hx (x : Cluster) (e : Core) : (x.modCore p fun _ => e).core p = e := by simp
  have heffect : TakesEffect s cl p (op cl p w) 1 u (((atIssue s.toChip cl p).storeReadIn o n 1).1.modCore p fun _ =>
      { entered s.toChip cl p u with portUse := true }.loaded w (Memory.readNat (s.cl cl).store o n)) .seq := by
    refine takesEffect_coreInstr hi hexec hu ?_
    rw [loadOp, checked_of_reservedOk hw]
    exact hload
  obtain ⟨t, ht, hleaves⟩ := heffect.runs hi (by rw [hx]; exact (Core.loaded_frame _ _ _).1) .seq (Int.natCast_nonneg _)
    (Int.ofNat_le.2 hn) hf
  rw [hx] at hleaves
  have hstore := congrArg Cluster.store hleaves.cluster
  refine ⟨t, ht, ?_, hstore.trans (Cluster.storeReadIn_clean (x := atIssue s.toChip cl p) o n 1 hse).2, ?_, hleaves.clusters⟩
  · rw [hleaves.core]
    refine (Core.sreg_setS _ _ _ _).trans ?_
    by_cases h0 : fRd w = 0
    · simp [h0]
    · simp [h0]
  · rw [hleaves.core]
    exact Core.lm_loaded _ _ _

/-- A store to the cluster store. -/
theorem storeOp_store_runs
    (hexec : exec (op cl p w) s = s.run fun c => coreInstr op cl p w c 1 (storeOp p n w) (storeUse n w)) :
    Runs cl p (op cl p w) s fun t =>
      (t.cl cl).store = Memory.write (s.cl cl).store o
        (leBytes n ((s.core cl p).sreg (fRd w)).toNat) ∧
      (t.core cl p).lm = (s.core cl p).lm ∧ OtherClusters s t cl := by
  intro hf
  generalize hbs : leBytes n ((s.core cl p).sreg (fRd w)).toNat = bs
  have hlen : bs.length = n := by rw [← hbs, length_leBytes]
  have hu : storeUse n w (atIssue s.toChip cl p) (fetched s.toChip cl p) = storeUse n w (s.cl cl) (s.core cl p) := by
    rw [fetched_clean he]; rfl
  generalize storeUse n w (s.cl cl) (s.core cl p) = u at hu
  have hstore := putBytesIn_store (acc := 1) (bs := bs) (c := entered s.toChip cl p u) (x := atIssue s.toChip cl p)
    (fun x c => okCore x p (postInc c w)) (by rw [← hbs]; exact leBytes_ne_nil hpos _) (by rw [hlen]; exact hplace) hq hse
  have hx (x : Cluster) (e : Core) : (x.modCore p fun _ => e).core p = e := by simp
  have heffect : TakesEffect s cl p (op cl p w) 1 u (((atIssue s.toChip cl p).storeWriteIn o bs 1).1.modCore p fun _ =>
      postInc { entered s.toChip cl p u with portUse := true } w) .seq := by
    refine takesEffect_coreInstr hi hexec hu ?_
    rw [storeOp, checked_of_reservedOk hw]
    refine Eq.trans ?_ hstore
    rw [← hbs]
    rfl
  obtain ⟨t, ht, hleaves⟩ := heffect.runs hi (by rw [hx]; exact (postInc_frame _ _).1) .seq (Int.natCast_nonneg _)
    (Int.ofNat_le.2 hn) hf
  rw [hx] at hleaves
  refine ⟨t, ht, ?_, ?_, hleaves.clusters⟩
  · have hkept := congrArg Cluster.store hleaves.cluster
    exact hkept.trans (Cluster.storeWriteIn_clean (x := atIssue s.toChip cl p) o bs 1 hse).2
  · rw [hleaves.core]
    obtain ⟨-, -, -, -, hlm⟩ := postInc_frame { entered s.toChip cl p u with portUse := true } w
    exact hlm

end Run

/-- Settles O6: the accesses to either memory, and the bytes that they read and write. -/
theorem loadAndStoreResults : Obligations.LoadAndStoreResults := by
  refine ⟨fun s cl p w hi hn hw he hq => ?_, fun s cl p w hi hn hw he hq => ?_,
    fun s cl p w hi hn hw he hse hq hport => ?_⟩
  · intro c a c1 byte rd
    have hbytes (i : Nat) (n : Nat) : Memory.readNat c.lm (a + i) (n + 1) = byte i + 256 * Memory.readNat c.lm (a + (i + 1)) n :=
      Memory.readNat_succ _ _ _
    have h1 : Memory.readNat c.lm a 1 = byte 0 := (hbytes 0 0).trans (by simp [Memory.readNat_zero])
    have h2 : Memory.readNat c.lm a 2 = byte 0 + 256 * byte 1 :=
      (hbytes 0 1).trans (by rw [hbytes 1 0, Memory.readNat_zero]; omega)
    have h4 : Memory.readNat c.lm a 4 = byte 0 + 256 * byte 1 + 65536 * byte 2 + 16777216 * byte 3 :=
      (hbytes 0 3).trans (by rw [hbytes 1 2, hbytes 2 1, hbytes 3 0, Memory.readNat_zero]; omega)
    refine ⟨fun ha => ?_, fun ha => ?_, fun ha => ?_⟩
    · rw [← h1]; exact loadOp_lm_runs (op := .ldB) hi hn hw he hq rfl ha
    · rw [← h2]; exact loadOp_lm_runs (op := .ldH) hi hn hw he hq rfl ha
    · rw [← h4]; exact loadOp_lm_runs (op := .ldW) hi hn hw he hq rfl ha
  · intro c a c1 stored
    have hstored {i : Instr} {n : Nat} (h : Runs cl p i s fun t => OnlyCore s t cl p
        { moved (c1 (storeUse n w (s.cl cl) c)) 1 (storeUse n w (s.cl cl) c) with
          lm := Memory.write c.lm a (leBytes n (c.sreg (fRd w)).toNat) }) : Runs cl p i s (stored n) :=
      h.imp fun t ht => by
        have hlm : (t.core cl p).lm = Memory.write c.lm a (leBytes n (c.sreg (fRd w)).toNat) := by rw [ht.1]
        refine ⟨fun i hin => ?_, fun b hb => ?_, ?_⟩
        · rw [hlm, Memory.readByte_write_in _ _ _ _ (by rw [length_leBytes]; exact hin), getElem_leBytes]
        · rw [hlm, Memory.readByte_write_out _ _ _ _ (by rw [length_leBytes]; exact hb)]
        · rw [hlm]; exact ht
    exact ⟨fun ha => hstored (storeOp_lm_runs (op := .stB) hi hn hw he hq rfl ha),
      fun ha => hstored (storeOp_lm_runs (op := .stH) hi hn hw he hq rfl ha),
      fun ha => hstored (storeOp_lm_runs (op := .stW) hi hn hw he hq rfl ha)⟩
  · intro c a o hlo hhi
    have hplace : (s.cl cl).place p a 4 = .store o := Cluster.place_store hport hlo hhi
    refine ⟨loadOp_store_runs (op := .ldW) hi hn hw he hse (by decide) hplace rfl,
      (storeOp_store_runs (op := .stW) (n := 4) hi hn hw he hq hse (by decide) hplace rfl).imp fun t ht => ?_⟩
    obtain ⟨hstore, hlm, hothers⟩ := ht
    have hlen := length_leBytes 4 (c.sreg (fRd w)).toNat
    refine ⟨?_, fun b hb => ?_, hlm, hothers⟩
    · have hread := Memory.read_write_same (s.cl cl).store o (leBytes 4 (c.sreg (fRd w)).toNat)
      rw [hlen] at hread
      rw [hstore]
      exact hread
    · rw [hstore]
      exact Memory.readByte_write_out _ _ _ _ (by rw [hlen]; exact hb)

end Sys2Proof.Machine
end

section
/-! O10: the accumulator instructions and the conversions to local memory (R109 to R111). -/

namespace Sys2Proof.Machine

open Sys2Proof

/-! ### Pieces of a run of bytes -/

theorem slice_read (m : Mem) (a : Nat) {k o n : Nat} (h : o + n ≤ k) : slice (Memory.read m a k) o n = Memory.read m (a + o) n := by
  refine List.ext_getElem ?_ fun i hi hi' => ?_
  · simp [slice, Memory.length_read]; omega
  · simp [slice, Memory.read, Nat.add_assoc]

theorem drop_flatMap_of_length {α : Type} {g : α → List Byte} {k : Nat} (hg : ∀ x, (g x).length = k) (l : List α) (i : Nat) :
    (l.flatMap g).drop (k * i) = (l.drop i).flatMap g := by
  induction l generalizing i with
  | nil => simp
  | cons x l ih =>
    cases i with
    | zero => simp
    | succ i => rw [List.flatMap_cons, Nat.mul_succ, Nat.add_comm, ← List.drop_drop, List.drop_left' (hg x), ih, List.drop_succ_cons]

/-- Piece `i` of equal pieces laid one after the other. -/
theorem slice_flatMap {α : Type} {g : α → List Byte} {k : Nat} (hg : ∀ x, (g x).length = k) {l : List α} {i : Nat}
    (hi : i < l.length) : slice (l.flatMap g) (k * i) k = g l[i] := by
  rw [slice, drop_flatMap_of_length hg, List.drop_eq_getElem_cons hi, List.flatMap_cons, List.take_left' (hg _)]

theorem length_flatMap_of_length {α : Type} {g : α → List Byte} {k : Nat} (hg : ∀ x, (g x).length = k) (l : List α) :
    (l.flatMap g).length = k * l.length := by
  simp [List.length_flatMap, hg, Nat.mul_comm]

theorem Core.length_accBytes (c : Core) (base n : Nat) : (c.accBytes base n).length = 4 * n := by
  rw [Core.accBytes, length_flatMap_of_length fun _ => length_leBytes _ _, List.length_range]

theorem Core.slice_accBytes (c : Core) (base : Nat) {n i : Nat} (h : i < n) :
    slice (c.accBytes base n) (4 * i) 4 = leBytes 4 (c.accAt (base + i)).toNat := by
  rw [Core.accBytes, slice_flatMap (fun _ => length_leBytes _ _) (by rw [List.length_range]; exact h), List.getElem_range]

/-! ### Accesses of the multiplier instructions to local memory -/

theorem putBytes_lm (x : Cluster) (p : Nat) {c : Core} {a : Nat} {bs : List Byte} (k : Cluster → Core → Res)
    (h : a + bs.length ≤ 0xC000) (hq : c.qops = []) (he : c.lmErr = []) :
    putBytes x p c a bs k = k x { c with lm := Memory.write c.lm a bs } :=
  putBytesIn_lm x p _ k h hq he

theorem Core.afterTensor_idle {c : Core} (hq : c.qops = []) (r : Res) : c.afterTensor r = r := by
  simp [Core.afterTensor, Core.tensorBusy, hq]

/-! ### The cores that the instructions leave -/

section Fields

variable (c : Core) (n : Nat) (u : Use)

@[simp] theorem Core.acc_moved : (moved c n u).acc = c.acc := rfl
@[simp] theorem Core.lm_moved : (moved c n u).lm = c.lm := rfl
@[simp] theorem Core.areg_ready (i : Nat) : (c.ready u).areg i = c.areg i := rfl
@[simp] theorem Core.lm_occupy : (c.occupy n).lm = c.lm := rfl
@[simp] theorem Core.acc_occupy : (c.occupy n).acc = c.acc := rfl
@[simp] theorem Core.lm_accWrite (vs : List W32) : (c.accWrite n vs).lm = c.lm := rfl

end Fields

section Results

variable (c : Core) (w : BitVec 56) (v : Use)

/-- The `n` words of `bs`. -/
def wordsOf (n : Nat) (bs : List Byte) : List W32 := (List.range n).map fun i => BitVec.ofNat 32 (leNat (slice bs (4 * i) 4))

theorem length_wordsOf (n : Nat) (bs : List Byte) : (wordsOf n bs).length = n := by simp [wordsOf]

theorem getD_wordsOf {n i : Nat} (bs : List Byte) (h : i < n) :
    (wordsOf n bs).getD i 0#32 = BitVec.ofNat 32 (leNat (slice bs (4 * i) 4)) := by
  simp [wordsOf, List.getD_eq_getElem?_getD, h]

theorem getD_replicate_zero (n i : Nat) : (List.replicate n 0#32).getD i 0#32 = 0#32 := by
  by_cases h : i < n <;> simp [List.getD_eq_getElem?_getD, h]

/-- The core once the interlocks `v` and the multiplier have let its instruction go on. -/
def Core.settled : Core := (c.ready v).settle

@[simp] theorem Core.lm_settled : (c.settled v).lm = c.lm := rfl
@[simp] theorem Core.acc_settled : (c.settled v).acc = c.acc := rfl
@[simp] theorem Core.accAt_settled (i : Nat) : (c.settled v).accAt i = c.accAt i := rfl

/-- `d` has the flags' status, the loop levels and the PC of `c`. -/
def Core.InPlace (d c : Core) : Prop := d.fstat = c.fstat ∧ d.loops = c.loops ∧ d.pc = c.pc

/-- The core once ACC.CLR has zeroed its entries. -/
def Core.accCleared : Core :=
  ((c.settled v).accWrite (aBase w) (List.replicate (aCount c w) 0#32)).occupy (ceilDiv (aCount c w) 32)

theorem Core.accCleared_inPlace : (c.accCleared w v).InPlace c := ⟨rfl, rfl, rfl⟩

theorem Core.occ_accCleared (n : Nat) (u : Use) : (moved (c.accCleared w v) n u).occ = ceilDiv (aCount c w) 32 - n := rfl

theorem Core.accAt_accCleared (n : Nat) (u : Use) (e : Nat) : (moved (c.accCleared w v) n u).accAt e =
    if aBase w ≤ e ∧ e < aBase w + aCount c w then 0#32 else c.accAt e := by
  refine (Core.accAt_accWrite _ _ _ e).trans ?_
  rw [List.length_replicate, getD_replicate_zero, Core.accAt_settled]

/-- The core once ACC.LD has filled its entries from local memory. -/
def Core.accLoaded : Core :=
  ((c.settled v).accWrite (aBase w) (wordsOf (aCount c w) (Memory.read c.lm (c.areg (aAreg w)).toNat (4 * aCount c w)))).occupy
    (ceilDiv (aCount c w) 16)

theorem Core.accLoaded_inPlace : (c.accLoaded w v).InPlace c := ⟨rfl, rfl, rfl⟩

theorem Core.lm_accLoaded (n : Nat) (u : Use) : (moved (c.accLoaded w v) n u).lm = c.lm := by
  simp [Core.accLoaded]

theorem Core.accAt_accLoaded_in (n : Nat) (u : Use) {i : Nat} (h : i < aCount c w) :
    (moved (c.accLoaded w v) n u).accAt (aBase w + i) =
      BitVec.ofNat 32 (Memory.readNat c.lm ((c.areg (aAreg w)).toNat + 4 * i) 4) := by
  refine (Core.accAt_accWrite _ _ _ _).trans ?_
  rw [length_wordsOf, if_pos (by omega), Nat.add_sub_cancel_left, getD_wordsOf _ h, slice_read _ _ (by omega), Memory.readNat]

theorem Core.accAt_accLoaded_out (n : Nat) (u : Use) {e : Nat} (h : e < aBase w ∨ aBase w + aCount c w ≤ e) :
    (moved (c.accLoaded w v) n u).accAt e = c.accAt e := by
  refine (Core.accAt_accWrite _ _ _ _).trans ?_
  rw [length_wordsOf, if_neg (by omega), Core.accAt_settled]

/-- The core once ACC.ST has stored its entries in local memory. -/
def Core.accStored : Core :=
  { c.settled v with lm := Memory.write c.lm (c.areg (aAreg w)).toNat (c.accBytes (aBase w) (aCount c w)) }.occupy
    (ceilDiv (aCount c w) 16)

theorem Core.accStored_inPlace : (c.accStored w v).InPlace c := ⟨rfl, rfl, rfl⟩

theorem Core.acc_accStored (n : Nat) (u : Use) : (moved (c.accStored w v) n u).acc = c.acc := by
  simp [Core.accStored]

theorem Core.lm_accStored (n : Nat) (u : Use) : (moved (c.accStored w v) n u).lm =
    Memory.write c.lm (c.areg (aAreg w)).toNat (c.accBytes (aBase w) (aCount c w)) := by
  simp [Core.accStored]

theorem Memory.read_write_accBytes (m : Mem) (a base : Nat) {n i : Nat} (h : i < n) :
    Memory.read (Memory.write m a (c.accBytes base n)) (a + 4 * i) 4 = leBytes 4 (c.accAt (base + i)).toNat := by
  have hread := Memory.read_write_same m a (c.accBytes base n)
  rw [Core.length_accBytes] at hread
  rw [← slice_read _ _ (show 4 * i + 4 ≤ 4 * n by omega), hread, Core.slice_accBytes c base h]

/-- The values of the `n` entries that CVT.ACC converts. -/
def Core.accValues (n : Nat) : List XNum := (List.range n).map fun i =>
  if ibits w 31 1 = 1 then XNum.ofInt (c.accAt (aBase w + i)).toInt else fpDecode (c.accAt (aBase w + i))

/-- The core once the values `xs` have been converted to format `df`, rounding to nearest, and stored at `dst`. -/
def Core.converted (df dst : Nat) (xs : List XNum) (bad : Bool) (lead : Nat) : Core :=
  let r := runEncode df c.satFp8 false [] xs
  { c with
    lm := Memory.write c.lm dst r.1
    astat := c.astat ||| (r.2.or { shingleMalformed := bad }).astat
    occ := cvtOcc df xs.length + lead }

section Converted

variable (df dst : Nat) (xs : List XNum) (bad : Bool) (lead n : Nat) (u : Use)

theorem Core.converted_inPlace : ((c.settled v).converted df dst xs bad lead).InPlace c := ⟨rfl, rfl, rfl⟩

theorem Core.lm_converted : (moved (c.converted df dst xs bad lead) n u).lm =
    Memory.write c.lm dst (runEncode df c.satFp8 false [] xs).1 := rfl
theorem Core.srCtr_converted : (moved (c.converted df dst xs bad lead) n u).srCtr = c.srCtr := rfl
theorem Core.acc_converted : (moved (c.converted df dst xs bad lead) n u).acc = c.acc := rfl

end Converted

end Results

/-- A conversion that rounds to nearest and stores in local memory draws nothing. -/
theorem convertStore_lm (p : Nat) (x : Cluster) {c : Core} (df dst : Nat) (xs : List XNum) (bad : Bool) (lead : Nat)
    (h : dst + (runEncode df c.satFp8 false [] xs).1.length ≤ 0xC000) (hq : c.qops = []) (he : c.lmErr = []) :
    convertStore p x c df dst false xs bad lead = okCore x p (c.converted df dst xs bad lead) := by
  have hrs : srValues c.srSeed (x.coreId p) c.srCtr 0 = [] := rfl
  simp only [convertStore, Bool.false_eq_true, if_false, hrs, putBytes_lm x p _ h hq he, BitVec.add_zero]
  rfl

/-! ### The effects of the instructions -/

section Effects

variable (cl p : Nat) (w : BitVec 56)

/-- `op` is an instruction of one cycle with the effect `f`. -/
def OneCycle (op : Nat → Nat → BitVec 56 → Instr) (f : Cluster → Core → Res) : Prop :=
  ∃ u, ∀ s, exec (op cl p w) s = s.run fun c => coreInstr op cl p w c 1 f u

theorem accClr_effect : ∃ f, OneCycle cl p w .accClr f ∧
    (accReserved w false false false = true → ∀ x (c : Core) v, c.qops = [] → accRange c w = true →
      f x (c.ready v) = okCore x p (c.accCleared w v)) := by
  refine ⟨_, ⟨_, fun _ => rfl⟩, fun hw x c v hq hr => ?_⟩
  have hr' : accRange (c.ready v) w = true := hr
  have hq' : (c.ready v).qops = [] := hq
  simp only [hw, hr', Bool.not_true, Bool.false_eq_true, if_false, Core.afterTensor_idle hq']
  rfl

/-- What class 0x6 asks of the address and of the entries of an access to local memory. -/
def Core.accLocal (c : Core) (w : BitVec 56) : Prop :=
  accRange c w = true ∧ (c.areg (aAreg w)).toNat % 4 = 0 ∧ (c.areg (aAreg w)).toNat + 4 * aCount c w ≤ 0xC000

theorem accLd_effect : ∃ f, OneCycle cl p w .accLd f ∧
    (accReserved w true false false = true → ∀ x (c : Core) v, c.qops = [] → c.lmErr = [] → c.accLocal w →
      f x (c.ready v) = okCore x p (c.accLoaded w v)) := by
  refine ⟨_, ⟨_, fun _ => rfl⟩, fun hw x c v hq he hl => ?_⟩
  obtain ⟨hr, h4, ha⟩ : (c.ready v).accLocal w := hl
  have hq' : (c.ready v).qops = [] := hq
  simp only [hw, hr, h4, x.inRange_lm p ha, Bool.not_true, Bool.false_or, ne_eq, not_true_eq_false, decide_false,
    Bool.false_eq_true, if_false, Core.afterTensor_idle hq']
  rw [getBytes_lm x p _ ha (c := (c.ready v).settle) hq he, storeLead_lm x p ha]
  rfl

theorem accSt_effect : ∃ f, OneCycle cl p w .accSt f ∧
    (accReserved w true false false = true → ∀ x (c : Core) v, c.qops = [] → c.lmErr = [] → c.accErr = [] → c.accLocal w →
      f x (c.ready v) = okCore x p (c.accStored w v)) := by
  refine ⟨_, ⟨_, fun _ => rfl⟩, fun hw x c v hq he hae hl => ?_⟩
  obtain ⟨hr, h4, ha⟩ : (c.ready v).accLocal w := hl
  have hq' : (c.ready v).qops = [] := hq
  simp only [hw, hr, h4, x.inRange_lm p ha, Bool.not_true, Bool.false_or, ne_eq, not_true_eq_false, decide_false,
    Bool.false_eq_true, if_false, Core.afterTensor_idle hq', Core.accScan_clean (c := (c.ready v).settle) _ _ hae]
  rw [putBytes_lm x p (c := (c.ready v).settle) _ (by rw [Core.length_accBytes]; exact ha) hq he]
  rfl

theorem cvtAcc_effect : ∃ f, OneCycle cl p w .cvtAcc f ∧
    (accReserved w true false true = true → ibits w 30 1 = 0 → ∀ x (c : Core) v, c.qops = [] → c.lmErr = [] → c.accErr = [] →
      let df := ibits w 32 4
      let a := (c.areg (aAreg w)).toNat
      let n := aCount c w
      accRange c w = true → a % 4 = 0 → n % countUnit df = 0 → a + runBytes df n ≤ 0xC000 →
      a + (runEncode df c.satFp8 false [] (c.accValues w n)).1.length ≤ 0xC000 →
      f x (c.ready v) = okCore x p ((c.settled v).converted df a (c.accValues w n) false 0)) := by
  refine ⟨_, ⟨_, fun _ => rfl⟩, fun hw hst x c v hq he hae => ?_⟩
  intro df a n hr h4 hu ha hb
  have hstoch : decide (ibits w 30 1 = 1) = false := by simp [hst]
  have hr' : accRange (c.ready v) w = true := hr
  have h4' : ((c.ready v).areg (aAreg w)).toNat % 4 = 0 := h4
  have hu' : aCount (c.ready v) w % countUnit (ibits w 32 4) = 0 := hu
  have ha' : ((c.ready v).areg (aAreg w)).toNat + runBytes (ibits w 32 4) (aCount (c.ready v) w) ≤ 0xC000 := ha
  have hq' : (c.ready v).qops = [] := hq
  have hconv := convertStore_lm p x (c := c.settled v) df a (c.accValues w n) false 0 hb hq he
  simp only [hw, hr', h4', hu', hstoch, x.inRange_lm p ha', Bool.not_true, Bool.false_and, ne_eq,
    not_true_eq_false, decide_false, Bool.or_self, Bool.false_eq_true, if_false, Core.afterTensor_idle hq',
    Core.accScan_clean (c := (c.ready v).settle) _ _ hae]
  exact hconv

/-- Bits 36 to 0 are those below 36 and the one that asks for stochastic rounding. -/
theorem ibits_36_of_37 {w : BitVec 56} (h : ibits w 0 37 = 0) : ibits w 0 36 = 0 ∧ ibits w 36 1 = 0 := by
  simp only [ibits, bits, Nat.shiftRight_eq_div_pow] at h ⊢
  omega

theorem cvtLm_effect : ∃ f, OneCycle cl p w .cvtLm f ∧
    (ibits w 0 37 = 0 → ∀ x (c : Core) v, c.qops = [] → c.lmErr = [] →
      let sf := ibits w 52 4
      let df := ibits w 48 4
      let src := (c.areg (ibits w 45 3)).toNat
      let dst := (c.areg (ibits w 42 3)).toNat
      let n := (c.sreg (ibits w 37 5)).toNat
      let vs := runValues sf n (Memory.read c.lm src (runBytes sf n))
      countOk sf df n = true → src + runBytes sf n ≤ 0xC000 → dst + runBytes df n ≤ 0xC000 →
      dst + (runEncode df c.satFp8 false [] vs.1).1.length ≤ 0xC000 →
      f x (c.ready v) = okCore x p ((c.settled v).converted df dst vs.1 vs.2 0)) := by
  refine ⟨_, ⟨_, fun _ => rfl⟩, fun hw x c v hq he => ?_⟩
  intro sf df src dst n vs hc hs hd hb
  obtain ⟨hw', hst⟩ := ibits_36_of_37 hw
  have hstoch : decide (ibits w 36 1 = 1) = false := by simp [hst]
  have hq' : (c.ready v).qops = [] := hq
  have hconv := convertStore_lm p x (c := c.settled v) df dst vs.1 vs.2 0 hb hq he
  simp only [hw', hstoch, Bool.false_and, ne_eq, not_true_eq_false, decide_false, Bool.or_self, Bool.false_eq_true, if_false,
    Core.afterTensor_idle hq', Core.areg_ready, Core.sreg_ready]
  rw [if_neg (by rw [hc]; decide), if_neg (by rw [x.inRange_lm p hs, x.inRange_lm p hd]; decide),
    getBytes_lm x p _ hs (c := (c.ready v).settle) hq he, storeLead_lm x p hs]
  exact hconv

end Effects

/-! ### Runs -/

section Run

variable {s : State} {cl p : Nat} {w : BitVec 56} {op : Nat → Nat → BitVec 56 → Instr} {f : Cluster → Core → Res}
  (hi : Issues s.toChip cl p) (hn : Follows (fetched s.toChip cl p)) (he : (s.core cl p).lmErr = [])

include hi hn he

/-- An instruction of one cycle that makes `g` of its core, in place: core `p` alone changes, and it has the property `Q` of
what the instruction leaves. -/
theorem OneCycle.runs_core (hop : OneCycle cl p w op f) (g : Use → Core) {Q : Core → Prop}
    (hf : ∀ v, f (atIssue s.toChip cl p) ((s.core cl p).ready v) = okCore (atIssue s.toChip cl p) p (g v))
    (hg : ∀ v, (g v).InPlace (s.core cl p)) (hQ : ∀ v, Q (moved (g v) 1 v)) :
    Runs cl p (op cl p w) s fun t => Q (t.core cl p) ∧ OnlyCore s t cl p (t.core cl p) := by
  obtain ⟨u, hexec⟩ := hop
  have hfetched : fetched s.toChip cl p = s.core cl p := fetched_clean he
  generalize hv : u (atIssue s.toChip cl p) (fetched s.toChip cl p) = v
  obtain ⟨hs, hl, hp⟩ := hg v
  have heff : f (atIssue s.toChip cl p) (entered s.toChip cl p v) = okCore (atIssue s.toChip cl p) p (g v) := by
    rw [entered, hfetched]; exact hf v
  rw [← hfetched] at hs hl hp
  refine (TakesEffect.runs_moved (takesEffect_coreInstr hi (hexec s) hv heff) hi hn hs hl hp).imp fun t ht => ?_
  obtain ⟨hcore, hrest⟩ := ht
  rw [hcore]
  exact ⟨hQ v, hcore, hrest⟩

/-- The bytes `bs` have been stored at `a` of core `p`, whose entries and generator are as they were, and nothing else has
changed. -/
def Converted (s t : State) (cl p a : Nat) (bs : List Byte) : Prop :=
  Memory.read (t.core cl p).lm a bs.length = bs ∧
    (∀ b, b < a ∨ a + bs.length ≤ b → Memory.readByte (t.core cl p).lm b = Memory.readByte (s.core cl p).lm b) ∧
    (t.core cl p).srCtr = (s.core cl p).srCtr ∧ (t.core cl p).acc = (s.core cl p).acc ∧ OnlyCore s t cl p (t.core cl p)

/-- A conversion of the values `xs` leaves its bytes. -/
theorem OneCycle.runs_converted {df dst : Nat} {xs : List XNum} {bad : Bool} {lead : Nat} (hop : OneCycle cl p w op f)
    (hf : ∀ v, f (atIssue s.toChip cl p) ((s.core cl p).ready v) =
      okCore (atIssue s.toChip cl p) p (((s.core cl p).settled v).converted df dst xs bad lead)) :
    Runs cl p (op cl p w) s fun t => Converted s t cl p dst (runEncode df (s.core cl p).satFp8 false [] xs).1 := by
  refine (hop.runs_core hi hn he (fun v => ((s.core cl p).settled v).converted df dst xs bad lead)
    (Q := fun k => k.lm = Memory.write (s.core cl p).lm dst (runEncode df (s.core cl p).satFp8 false [] xs).1 ∧
      k.srCtr = (s.core cl p).srCtr ∧ k.acc = (s.core cl p).acc)
    hf (fun _ => Core.converted_inPlace ..)
    fun v => ⟨Core.lm_converted .., Core.srCtr_converted .., Core.acc_converted ..⟩).imp fun t ht => ?_
  obtain ⟨⟨hlm, hctr, hacc⟩, honly⟩ := ht
  refine ⟨?_, fun b hb => ?_, hctr, hacc, honly⟩
  · rw [hlm, Memory.read_write_same]
  · rw [hlm, Memory.readByte_write_out _ _ _ _ hb]

end Run

/-- Settles O10: the effects of the accumulator instructions and of the conversions on their own core. -/
theorem accumulatorAndConversionResults : Obligations.AccumulatorAndConversionResults := by
  refine ⟨fun s cl p w hi hn he hae hq => ?_, fun s cl p w hi hn he hae hq => ⟨?_, ?_⟩⟩
  · intro c n a hr
    refine ⟨fun hw => ?_, fun hw h4 ha => ⟨?_, ?_⟩⟩
    · obtain ⟨f, hop, hf⟩ := accClr_effect cl p w
      refine (hop.runs_core hi hn he _
        (Q := fun k => (∀ e, k.accAt e = if aBase w ≤ e ∧ e < aBase w + n then 0#32 else c.accAt e) ∧ k.occ = ceilDiv n 32 - 1)
        (fun v => hf hw _ c v hq hr) (fun _ => c.accCleared_inPlace w _)
        (fun v => ⟨c.accAt_accCleared w v 1 v, c.occ_accCleared w v 1 v⟩)).imp fun t ht => ?_
      obtain ⟨⟨hacc, hocc⟩, honly⟩ := ht
      exact ⟨hacc, hocc, honly⟩
    · obtain ⟨f, hop, hf⟩ := accLd_effect cl p w
      refine (hop.runs_core hi hn he _
        (Q := fun k => (∀ i, i < n → k.accAt (aBase w + i) = BitVec.ofNat 32 (Memory.readNat c.lm (a + 4 * i) 4)) ∧
          (∀ e, e < aBase w ∨ aBase w + n ≤ e → k.accAt e = c.accAt e) ∧ k.lm = c.lm)
        (fun v => hf hw _ c v hq he ⟨hr, h4, ha⟩) (fun _ => c.accLoaded_inPlace w _)
        (fun v => ⟨fun _ => c.accAt_accLoaded_in w v 1 v, fun _ => c.accAt_accLoaded_out w v 1 v,
          c.lm_accLoaded w v 1 v⟩)).imp fun t ht => ?_
      obtain ⟨⟨hin, hout, hlm⟩, honly⟩ := ht
      exact ⟨hin, hout, hlm, honly⟩
    · obtain ⟨f, hop, hf⟩ := accSt_effect cl p w
      refine (hop.runs_core hi hn he _
        (Q := fun k => k.lm = Memory.write c.lm a (c.accBytes (aBase w) n) ∧ k.acc = c.acc)
        (fun v => hf hw _ c v hq he hae ⟨hr, h4, ha⟩) (fun _ => c.accStored_inPlace w _)
        (fun v => ⟨c.lm_accStored w v 1 v, c.acc_accStored w v 1 v⟩)).imp fun t ht => ?_
      obtain ⟨⟨hlm, hacc⟩, honly⟩ := ht
      refine ⟨fun i h => ?_, fun b hb => ?_, hacc, honly⟩
      · rw [hlm, Memory.read_write_accBytes c c.lm a (aBase w) h]
      · rw [hlm, Memory.readByte_write_out _ _ _ _ (by rw [Core.length_accBytes]; exact hb)]
  · intro a n df hw hst hr h4 hu bs ha hb
    obtain ⟨f, hop, hf⟩ := cvtAcc_effect cl p w
    exact hop.runs_converted hi hn he fun v => hf hw hst _ _ v hq he hae hr h4 hu ha hb
  · intro sf df src dst n hw hc bs hs hd hb
    obtain ⟨f, hop, hf⟩ := cvtLm_effect cl p w
    exact hop.runs_converted hi hn he fun v => hf hw _ _ v hq he hc hs hd hb

end Sys2Proof.Machine
end

section
/-! O16: the core register window (R92, R115, R116, R126 to R128). -/

namespace Sys2Proof.Machine

open Sys2Proof

/-! ### Bytes of a number -/

theorem leNat_leBytes (n x : Nat) : leNat (leBytes n x) = x % 256 ^ n := by
  induction n generalizing x with
  | zero => simp [leBytes, leNat, Nat.mod_one]
  | succ n ih =>
    rw [leBytes, leNat, ih, BitVec.toNat_ofNat, Nat.pow_succ' (n := n)]
    exact Nat.mod_mul.symm

theorem Memory.readNat_write_leBytes (m : Mem) (a : Nat) (v : W) :
    Memory.readNat (Memory.write m a (leBytes 8 v.toNat)) a 8 = v.toNat := by
  have h := Memory.read_write_same m a (leBytes 8 v.toNat)
  rw [length_leBytes] at h
  rw [Memory.readNat, h, leNat_leBytes]
  exact Nat.mod_eq_of_lt v.isLt

/-! ### An access that reaches the window -/

theorem clOk_of_lt {cl : Nat} (h : cl < 4032) : clOk cl = true := by simp [clOk, h]

section Counted

variable (s : Chip) (pg : PageRef) (w : Bool)

@[simp] theorem Chip.cl_countAccess (k : Nat) : (s.countAccess pg w).cl k = s.cl k := by
  rw [Chip.cl, Chip.clusters_countAccess, ← Chip.cl]

@[simp] theorem Chip.gable_countAccess (t : Nat) : (s.countAccess pg w).gable t = s.gable t := by
  rw [Chip.gable, Chip.gables_countAccess, ← Chip.gable]

end Counted

/-- Of `t`, core `p` of cluster `cl` is `d`, and the other clusters are those of `s`. -/
def Makes (s : Chip) (cl p : Nat) (d : Core) (t : Chip) : Prop := t.core cl p = d ∧ ∀ k, k ≠ cl → t.cl k = s.cl k

section Makes

variable {s t : Chip} {cl p : Nat} {d : Core}

theorem Makes.refl (s : Chip) (cl p : Nat) : Makes s cl p (s.core cl p) s := ⟨rfl, fun _ _ => rfl⟩

theorem Makes.modCore (h : Makes s cl p d t) (f : Core → Core) : Makes s cl p (f d) (t.modCore cl p f) := by
  obtain ⟨hcore, hcl⟩ := h
  exact ⟨by rw [Chip.core_modCore_same, hcore], fun k hk => by rw [Chip.cl_modCore_other _ _ _ hk, hcl k hk]⟩

theorem Makes.modCoreF (h : Makes s cl p d t) (f : Core → Core) : Makes s cl p (f d) (t.modCoreF cl p f) := by
  obtain ⟨hcore, hcl⟩ := h.modCore f
  refine ⟨?_, fun k hk => ?_⟩
  · rw [Chip.modCoreF, Chip.core_flagErr, hcore]
  · rw [Chip.modCoreF, Chip.cl_flagErr_other _ _ _ hk, hcl k hk]

theorem Makes.endWait (h : Makes s cl p d t) : Makes s cl p { d with wait := .none } (t.endWait cl p) := by
  obtain ⟨hcore, hcl⟩ := h
  refine ⟨?_, fun k hk => by rw [Chip.cl_endWait_other _ _ hk, hcl k hk]⟩
  rw [Chip.core, Chip.cl, Chip.clusters_endWait, ← Chip.cl, ← Chip.core, Chip.core_modCore_same, hcore]

theorem Makes.raiseWith (h : Makes s cl p d t) (b : Nat) (cls : Option ErrClass) (detail tint : Nat) (patrol : Bool) :
    Makes s cl p d (t.raiseWith (.cluster cl) b cls detail tint patrol) := by
  obtain ⟨hcore, hcl⟩ := h
  exact ⟨by rw [Chip.core_raiseWith_cluster, hcore], fun k hk => by rw [Chip.cl_raiseWith_cluster_other _ _ _ _ _ _ _ hk, hcl k hk]⟩

end Makes

/-- A write to the page of cluster `cl` that reaches it takes effect once the access is counted. -/
theorem completes_cmdWrite {s : State} {cl : Nat} {i : Instr} {off : Nat} {g : Chip → Chip} {P : State → Prop}
    (hcl : cl < 4032) (hr : Reaches s.toChip (.cluster cl))
    (hexec : exec i s = s.run fun c => onUnit (clOk cl) (c.cmdWrite (.cluster cl) off g))
    (hP : P { s with toChip := g (s.countAccess (.cluster cl) true) }) : Completes i s P :=
  ⟨_, hexec.trans (State.run_cmdWrite (clOk_of_lt hcl) hr rfl), hP⟩

/-- A write that makes `d` of core `p` and brings about `P` in its cluster, whatever the other units hold. -/
theorem completes_makes_and {s : State} {cl p : Nat} {i : Instr} {off : Nat} {g : Chip → Chip} {d : Core} {P : Cluster → Prop}
    (hcl : cl < 4032) (hr : Reaches s.toChip (.cluster cl))
    (hexec : exec i s = s.run fun c => onUnit (clOk cl) (c.cmdWrite (.cluster cl) off g))
    (hg : ∀ c : Chip, c.cl cl = s.cl cl → Makes c cl p d (g c) ∧ P ((g c).cl cl)) :
    Completes i s fun t => t.core cl p = d ∧ P (t.cl cl) ∧ OtherClusters s t cl := by
  obtain ⟨⟨hcore, hcls⟩, hP⟩ := hg _ (Chip.cl_countAccess s.toChip (.cluster cl) true cl)
  exact completes_cmdWrite hcl hr hexec ⟨hcore, hP, fun k hk => (hcls k hk).trans (Chip.cl_countAccess ..)⟩

/-- A write that makes `d` of core `p`, whatever the other units hold. -/
theorem completes_makes {s : State} {cl p : Nat} {i : Instr} {off : Nat} {g : Chip → Chip} {d : Core}
    (hcl : cl < 4032) (hr : Reaches s.toChip (.cluster cl))
    (hexec : exec i s = s.run fun c => onUnit (clOk cl) (c.cmdWrite (.cluster cl) off g))
    (hg : ∀ c : Chip, c.cl cl = s.cl cl → Makes c cl p d (g c)) :
    Completes i s fun t => t.core cl p = d ∧ OtherClusters s t cl := by
  obtain ⟨t, ht, hcore, -, hcls⟩ := completes_makes_and (P := fun _ => True) hcl hr hexec fun c hc => ⟨hg c hc, trivial⟩
  exact ⟨t, ht, hcore, hcls⟩

/-! ### CL_CORE_CTRL (R126, R127) -/

/-- The core with the O2 mode that a write of CL_CORE_CTRL sets. -/
def Core.withO2 (v : W) (c : Core) : Core := { c with o2 := bit v 2 }

/-- The core stopped by the host. -/
def Core.hostStopped (c : Core) : Core := { c with run := .stopped, cause := .host, wait := .none }

theorem Core.start_stopped {c : Core} (h : c.run = .stopped) :
    c.start = { c with run := .running, cause := .none, wait := .none } := if_pos h

theorem Chip.hostStop_not_running {s : Chip} {cl p : Nat} (h : (s.core cl p).run ≠ .running) : s.hostStop cl p = s := if_neg h

/-- A stop by the host raises CORE_STOP once the core has stopped. -/
theorem Chip.hostStop_running {s : Chip} {cl p : Nat} (h : (s.core cl p).run = .running) : ∃ detail tint,
    s.hostStop cl p = ((s.endWait cl p).modCore cl p fun c => { c with run := .stopped, cause := .host }).raiseWith
      (.cluster cl) 0 StopCause.host.cls detail tint false := by
  have hd : StopCause.host ≠ .done := by decide
  rw [Chip.hostStop, if_pos h]
  simp only [Chip.stopCore, if_neg hd]
  exact ⟨_, _, rfl⟩

theorem makes_hostStop {s : Chip} {cl p : Nat} (h : (s.core cl p).run = .running) :
    Makes s cl p (s.core cl p).hostStopped (s.hostStop cl p) := by
  obtain ⟨detail, tint, hstop⟩ := Chip.hostStop_running h
  rw [hstop]
  exact ((Makes.refl s cl p).endWait.modCore _).raiseWith ..

theorem fault_hostStop {s : Chip} {cl p : Nat} (h : (s.core cl p).run = .running) :
    bit ((s.hostStop cl p).cl cl).page.fault 0 = true := by
  obtain ⟨detail, tint, hstop⟩ := Chip.hostStop_running h
  rw [hstop]
  exact Chip.fault_raiseWith_cluster _ _ _ _ _ _ _ (by decide)

section Ctrl

variable {s : Chip} {cl p : Nat} {v : W} (hs : (s.cl cl).selected = some p)

include hs

theorem Chip.coreCtrlWrite_run (h0 : bit v 0 = true) (h1 : bit v 1 = false) (h3 : bit v 3 = false) :
    s.coreCtrlWrite cl v = (s.modCore cl p Core.start).modCore cl p (Core.withO2 v) := by
  simp [Chip.coreCtrlWrite, hs, h0, h1, h3, b2n]; rfl

theorem Chip.coreCtrlWrite_stop (h0 : bit v 0 = false) (h1 : bit v 1 = true) (h3 : bit v 3 = false) :
    s.coreCtrlWrite cl v = (s.hostStop cl p).modCore cl p (Core.withO2 v) := by
  simp [Chip.coreCtrlWrite, hs, h0, h1, h3, b2n]; rfl

theorem Chip.coreCtrlWrite_reset (h0 : bit v 0 = false) (h1 : bit v 1 = false) (h3 : bit v 3 = true) :
    s.coreCtrlWrite cl v = ((s.endWait cl p).modCore cl p Core.reset).modCore cl p (Core.withO2 v) := by
  simp [Chip.coreCtrlWrite, hs, h0, h1, h3, b2n]; rfl

theorem Chip.coreCtrlWrite_none (h0 : bit v 0 = false) (h1 : bit v 1 = false) (h3 : bit v 3 = false) :
    s.coreCtrlWrite cl v = s.modCore cl p (Core.withO2 v) := by
  simp [Chip.coreCtrlWrite, hs, h0, h1, h3, b2n]; rfl

end Ctrl

section Exec

variable {s : State} {cl : Nat} {v : W}

/-- The write of CL_CORE_CTRL that an operation of the window is. -/
def CtrlWrite (i : Instr) (s : State) (cl : Nat) (v : W) : Prop :=
  exec i s = s.run fun c => onUnit (clOk cl) (c.cmdWrite (.cluster cl) Off.CL_CORE_CTRL fun d => d.coreCtrlWrite cl v)

/-- The write of CL_CORE_FLAG_CMD that an operation of the window is. -/
def FlagWrite (i : Instr) (s : State) (cl : Nat) (v : W) : Prop :=
  exec i s = s.run fun c => onUnit (clOk cl) (c.cmdWrite (.cluster cl) Off.CL_CORE_FLAG_CMD fun d => d.flagCmdWrite cl v)

theorem exec_coreRun (h : bit v 0 = true) : CtrlWrite (.coreRun cl v) s cl v := by
  show execCoreRun cl v s = _
  simp only [execCoreRun, h, if_true]

theorem exec_coreHostStop (h : bit v 1 = true) : CtrlWrite (.coreHostStop cl v) s cl v := by
  show execCoreHostStop cl v s = _
  simp only [execCoreHostStop, h, if_true]

theorem exec_coreReset (h : bit v 3 = true) : CtrlWrite (.coreReset cl v) s cl v := by
  show execCoreReset cl v s = _
  simp only [execCoreReset, h, if_true]

theorem exec_o2ModeWrite (h0 : bit v 0 = false) (h1 : bit v 1 = false) (h3 : bit v 3 = false) :
    CtrlWrite (.o2ModeWrite cl v) s cl v := by
  show execO2ModeWrite cl v s = _
  simp only [execO2ModeWrite, h0, h1, h3, Bool.or_self, Bool.false_eq_true, if_false]

theorem exec_coreFlagSet (h : bit v 8 = true) : FlagWrite (.coreFlagSet cl v) s cl v := by
  show execCoreFlagSet cl v s = _
  simp only [execCoreFlagSet, h, if_true]

theorem exec_coreFlagClr (h : bit v 9 = true) : FlagWrite (.coreFlagClr cl v) s cl v := by
  show execCoreFlagClr cl v s = _
  simp only [execCoreFlagClr, h, if_true]

end Exec

/-- What a write of CL_CORE_CTRL does to the selected core. -/
theorem coreCtrl_completes {s : State} {cl p : Nat} {v : W} (hcl : cl < 4032) (hr : Reaches s.toChip (.cluster cl))
    (hs : (s.cl cl).selected = some p) :
    let c := s.core cl p
    (bit v 0 = true → bit v 1 = false → bit v 3 = false → c.run = .stopped → Completes (.coreRun cl v) s fun t =>
      t.core cl p = c.start.withO2 v ∧ OtherClusters s t cl) ∧
    (bit v 0 = false → bit v 1 = true → bit v 3 = false → c.run = .running → Completes (.coreHostStop cl v) s fun t =>
      t.core cl p = c.hostStopped.withO2 v ∧ bit (t.cl cl).page.fault 0 = true ∧ OtherClusters s t cl) ∧
    (bit v 0 = false → bit v 1 = false → bit v 3 = true → Completes (.coreReset cl v) s fun t =>
      t.core cl p = c.reset.withO2 v ∧ OtherClusters s t cl) ∧
    (bit v 0 = false → bit v 1 = false → bit v 3 = false → Completes (.o2ModeWrite cl v) s fun t =>
      t.core cl p = c.withO2 v ∧ OtherClusters s t cl) := by
  intro c
  have hcore : ∀ {d : Chip}, d.cl cl = s.cl cl → d.core cl p = c := fun hd => congrArg (·.core p) hd
  have hsel : ∀ {d : Chip}, d.cl cl = s.cl cl → (d.cl cl).selected = some p := fun hd => by rw [hd, hs]
  refine ⟨fun h0 h1 h3 hrun => ?_, fun h0 h1 h3 hrun => ?_, fun h0 h1 h3 => ?_, fun h0 h1 h3 => ?_⟩
  · refine completes_makes hcl hr (exec_coreRun h0) fun d hd => ?_
    rw [Chip.coreCtrlWrite_run (hsel hd) h0 h1 h3, ← hcore hd]
    exact ((Makes.refl d cl p).modCore Core.start).modCore (Core.withO2 v)
  · refine (completes_makes_and (P := fun x => bit x.page.fault 0 = true) hcl hr (exec_coreHostStop h1) fun d hd => ?_)
    rw [← hcore hd] at hrun ⊢
    rw [Chip.coreCtrlWrite_stop (hsel hd) h0 h1 h3]
    refine ⟨(makes_hostStop hrun).modCore (Core.withO2 v), ?_⟩
    rw [Chip.cl_modCore_same]
    exact fault_hostStop hrun
  · refine completes_makes hcl hr (exec_coreReset h3) fun d hd => ?_
    rw [Chip.coreCtrlWrite_reset (hsel hd) h0 h1 h3, ← hcore hd]
    exact ((Makes.refl d cl p).endWait.modCore Core.reset).modCore (Core.withO2 v)
  · refine completes_makes hcl hr (exec_o2ModeWrite h0 h1 h3) fun d hd => ?_
    rw [Chip.coreCtrlWrite_none (hsel hd) h0 h1 h3, ← hcore hd]
    exact (Makes.refl d cl p).modCore (Core.withO2 v)

/-! ### The end of a reset, and CL_CORE_FLAG_CMD (R92, R115, R116) -/

theorem coreResetComplete_completes {s : State} {cl p : Nat} (hcl : cl < 4032) (hp : p < 136)
    (h : (s.core cl p).run = .resetting) : Completes (.coreResetComplete cl p) s fun t =>
      OnlyCore s t cl p { s.core cl p with run := .stopped, cause := .none } := by
  have hdone : (s.core cl p).resetDone = { s.core cl p with run := .stopped, cause := .none } := if_pos h
  refine ⟨_, State.run_onUnit (f := fun c => onUnit (clOk cl && p < 136) (c.modCore cl p Core.resetDone))
    (by simp [clOk_of_lt hcl, hp]) rfl, ?_⟩
  rw [← hdone]
  exact (OnlyCore.refl s cl p).modCore Core.resetDone

section FlagCmd

variable {s : Chip} {cl p : Nat} {v : W} (hs : (s.cl cl).selected = some p) (hf : fld v 0 6 ≤ 47)

include hs hf

theorem Chip.flagCmdWrite_set (h8 : bit v 8 = true) (h9 : bit v 9 = false) :
    s.flagCmdWrite cl v = s.modCoreF cl p fun c => c.applySet (fld v 0 6) := by
  simp only [Chip.flagCmdWrite, hs, h8, h9, if_neg (Nat.not_lt.mpr hf)]

theorem Chip.flagCmdWrite_clear (h8 : bit v 8 = false) (h9 : bit v 9 = true) :
    s.flagCmdWrite cl v = s.modCoreF cl p fun c => c.applyClear (fld v 0 6) := by
  simp only [Chip.flagCmdWrite, hs, h8, h9, if_neg (Nat.not_lt.mpr hf)]

end FlagCmd

/-- The host sets and clears flags of the selected core as the core itself does. -/
theorem flagCmd_completes {s : State} {cl p : Nat} {v : W} (hcl : cl < 4032) (hr : Reaches s.toChip (.cluster cl))
    (hs : (s.cl cl).selected = some p) (hf : fld v 0 6 ≤ 47) :
    (bit v 8 = true → bit v 9 = false → Completes (.coreFlagSet cl v) s fun t =>
      t.core cl p = (s.core cl p).applySet (fld v 0 6) ∧ OtherClusters s t cl) ∧
    (bit v 8 = false → bit v 9 = true → Completes (.coreFlagClr cl v) s fun t =>
      t.core cl p = (s.core cl p).applyClear (fld v 0 6) ∧ OtherClusters s t cl) := by
  refine ⟨fun h8 h9 => ?_, fun h8 h9 => ?_⟩
  · refine completes_makes hcl hr (exec_coreFlagSet h8) fun d hd => ?_
    rw [Chip.flagCmdWrite_set (by rw [hd, hs]) hf h8 h9, show s.core cl p = d.core cl p from congrArg (·.core p) hd.symm]
    exact (Makes.refl d cl p).modCoreF fun c => c.applySet (fld v 0 6)
  · refine completes_makes hcl hr (exec_coreFlagClr h9) fun d hd => ?_
    rw [Chip.flagCmdWrite_clear (by rw [hd, hs]) hf h8 h9, show s.core cl p = d.core cl p from congrArg (·.core p) hd.symm]
    exact (Makes.refl d cl p).modCoreF fun c => c.applyClear (fld v 0 6)

/-! ### The data ports (R127, R128) -/

/-- Whether the core may be written depends on its run state, on what holds its cluster and on the halt. -/
theorem Chip.coreOpen_iff (s : Chip) (cl : Nat) (c : Core) :
    s.coreOpen cl c = true ↔ s.coreState cl c = 1 ∨ s.coreState cl c = 3 := by
  simp [Chip.coreOpen]

theorem Chip.coreOpen_closed {s : Chip} {cl : Nat} {c : Core} (h : s.coreState cl c = 0 ∨ s.coreState cl c = 2) :
    s.coreOpen cl c = false := by
  rcases h with h | h <;> simp [Chip.coreOpen, h]

@[simp] theorem Chip.coreHeld_countAccess (s : Chip) (pg : PageRef) (w : Bool) (cl : Nat) :
    (s.countAccess pg w).coreHeld cl = s.coreHeld cl := by
  simp [Chip.coreHeld, Chip.halting]

@[simp] theorem Chip.coreHeld_modCore (s : Chip) (cl p : Nat) (f : Core → Core) :
    (s.modCore cl p f).coreHeld cl = s.coreHeld cl := by
  simp only [Chip.coreHeld, Chip.cl_modCore_same]
  rfl

theorem Chip.coreOpen_of_held {s t : Chip} {cl : Nat} {c d : Core} (hheld : t.coreHeld cl = s.coreHeld cl)
    (hrun : d.run = c.run) : t.coreOpen cl d = s.coreOpen cl c := by
  have hstate : t.coreState cl d = s.coreState cl c := by
    rw [Chip.coreState, Chip.coreState, hheld, hrun]
  rw [Chip.coreOpen, Chip.coreOpen, hstate]

/-- A write to a data port that reaches its page. -/
theorem Chip.portAccess_write {s : Chip} {pg : PageRef} (h : Reaches s pg) (off : Nat) (v : W) (f : Chip → W × Chip) :
    s.portAccess pg off (some v) f = (f (s.countAccess pg true)).2 := by
  rw [Chip.portAccess, Chip.hostAccess_reaches h]

/-- A read of a data port that reaches its page. -/
theorem Chip.portAccess_read {s : Chip} {pg : PageRef} (h : Reaches s pg) (off : Nat) (f : Chip → W × Chip) :
    s.portAccess pg off none f = ((f (s.countAccess pg false)).2).emit (.readData (f (s.countAccess pg false)).1) := by
  rw [Chip.portAccess, Chip.hostRead_reaches h]

/-- The word of local memory that the window is at. -/
def Core.lmWord (c : Core) : Nat := fld c.lmAddr 0 16 / 8 * 8

/-- The accumulator entry that the window is at. -/
def Core.accEntry (c : Core) : Nat := fld c.accAddr 0 11

/-- The core with its window at the word of local memory after `a`. -/
def Core.pastLm (a : Nat) (c : Core) : Core := { c with lmAddr := BitVec.ofNat 64 ((a + 8) % 65536) }

/-- The core with its window at the accumulator entry after `e`. -/
def Core.pastAcc (e : Nat) (c : Core) : Core := { c with accAddr := BitVec.ofNat 64 ((e + 1) % 2048) }

section Port

variable {s : Chip} {cl p : Nat} (hs : (s.cl cl).selected = some p)

include hs

/-- A read of CL_CORE_LM_DATA of a core whose local memory holds no error. -/
theorem Chip.lmData_read (he : (s.core cl p).lmErr = []) (ha : (s.core cl p).lmWord < 0xC000) :
    let a := (s.core cl p).lmWord
    s.lmData cl none = (BitVec.ofNat 64 (Memory.readNat (s.core cl p).lm a 8),
      (s.modCore cl p (Core.pastLm a)).modCore cl p fun _ => (s.core cl p).pastLm a) := by
  intro a
  have hread := Core.lmRead_clean (c := (s.core cl p).pastLm a) a 8 he
  have ha' : ¬ a ≥ 0xC000 := Nat.not_le.mpr ha
  simp only [Core.pastLm, a, Core.lmWord] at hread ha' ⊢
  simp only [Chip.lmData, hs, if_neg ha', Chip.core_modCore_same, hread, Memory.readNat]
  rfl

/-- A write of CL_CORE_LM_DATA: whether it stores is decided once the window has moved on. -/
theorem Chip.lmData_write (v : W) :
    let a := (s.core cl p).lmWord
    let t := s.modCore cl p (Core.pastLm a)
    (s.lmData cl (some v)).2 =
      if a ≥ 0xC000 || !t.coreOpen cl (t.core cl p) then t
      else t.modCore cl p fun c => (c.lmWrite a (leBytes 8 v.toNat)).1 := by
  intro a t
  unfold Chip.lmData
  rw [hs]
  exact apply_ite Prod.snd _ _ _

/-- A read of CL_CORE_ACC_DATA of a core whose accumulator file holds no error. -/
theorem Chip.accData_read (he : (s.core cl p).accErr = []) :
    let e := (s.core cl p).accEntry
    s.accData cl none = (BitVec.ofNat 64 ((s.core cl p).accAt e).toNat,
      (s.modCore cl p (Core.pastAcc e)).modCore cl p fun _ => (s.core cl p).pastAcc e) := by
  intro e
  have hscan := Core.accScan_clean (c := (s.core cl p).pastAcc e) e (e + 1) he
  simp only [Core.pastAcc, e, Core.accEntry] at hscan ⊢
  simp only [Chip.accData, hs, Chip.core_modCore_same, hscan, Bool.false_eq_true, if_false]
  rfl

/-- A write of CL_CORE_ACC_DATA: whether it stores is decided once the window has moved on. -/
theorem Chip.accData_write (v : W) :
    let e := (s.core cl p).accEntry
    let t := s.modCore cl p (Core.pastAcc e)
    (s.accData cl (some v)).2 =
      if !t.coreOpen cl (t.core cl p) then t else t.modCore cl p fun c => c.accWrite e [BitVec.ofNat 32 (fld v 0 32)] := by
  intro e t
  unfold Chip.accData
  rw [hs]
  exact apply_ite Prod.snd _ _ _

/-- A word written to CL_CORE_LM_DATA is stored if the core is open. -/
theorem Chip.lm_lmData_write (v : W) (he : (s.core cl p).lmErr = []) (ha : (s.core cl p).lmWord < 0xC000) :
    let a := (s.core cl p).lmWord
    ((s.lmData cl (some v)).2.core cl p).lm =
      if s.coreOpen cl (s.core cl p) then Memory.write (s.core cl p).lm a (leBytes 8 v.toNat) else (s.core cl p).lm := by
  intro a
  have ha' : (decide (a ≥ 0xC000)) = false := decide_eq_false (Nat.not_le.mpr ha)
  have hopen : (s.modCore cl p (Core.pastLm a)).coreOpen cl ((s.core cl p).pastLm a) = s.coreOpen cl (s.core cl p) :=
    Chip.coreOpen_of_held (Chip.coreHeld_modCore ..) rfl
  rw [Chip.lmData_write hs v, Chip.core_modCore_same, hopen, ha', Bool.false_or]
  cases s.coreOpen cl (s.core cl p) with
  | false =>
    rw [Bool.not_false, if_pos rfl, Chip.core_modCore_same]
    rfl
  | true =>
    rw [Bool.not_true, if_neg Bool.false_ne_true, if_pos rfl, Chip.core_modCore_same,
      Chip.core_modCore_same, Core.lmWrite_clean (c := (s.core cl p).pastLm a) _ _ he]
    rfl

/-- An entry written to CL_CORE_ACC_DATA is stored if the core is open. -/
theorem Chip.acc_accData_write (v : W) :
    let e := (s.core cl p).accEntry
    ((s.accData cl (some v)).2.core cl p).acc =
      if s.coreOpen cl (s.core cl p) then ((s.core cl p).accWrite e [BitVec.ofNat 32 (fld v 0 32)]).acc
      else (s.core cl p).acc := by
  intro e
  have hopen : (s.modCore cl p (Core.pastAcc e)).coreOpen cl ((s.core cl p).pastAcc e) = s.coreOpen cl (s.core cl p) :=
    Chip.coreOpen_of_held (Chip.coreHeld_modCore ..) rfl
  rw [Chip.accData_write hs v, Chip.core_modCore_same, hopen]
  cases s.coreOpen cl (s.core cl p) with
  | false =>
    rw [Bool.not_false, if_pos rfl, Chip.core_modCore_same]
    rfl
  | true =>
    rw [Bool.not_true, if_neg Bool.false_ne_true, if_pos rfl, Chip.core_modCore_same, Chip.core_modCore_same]
    rfl

end Port

/-! ### Accesses to the data ports -/

section PortRuns

variable {s : State} {cl p : Nat} (hcl : cl < 4032) (hr : Reaches s.toChip (.cluster cl))

include hcl hr

/-- A read of a data port sends the word that `f` reads and leaves the state that `f` leaves. -/
theorem completes_portRead {i : Instr} {off : Nat} {f : Chip → W × Chip} {x : W} {d : Core}
    (hexec : exec i s = s.run fun c => onUnit (clOk cl) (c.portAccess (.cluster cl) off none f))
    (hf : ∀ c : Chip, c.cl cl = s.cl cl → (f c).1 = x ∧ (f c).2.core cl p = d ∧ (f c).2.out = c.out) :
    Completes i s fun t => t.out = s.out ++ [.readData x] ∧ t.core cl p = d := by
  obtain ⟨hx, hcore, hout⟩ := hf _ (Chip.cl_countAccess s.toChip (.cluster cl) false cl)
  refine ⟨_, hexec.trans (State.run_onUnit (clOk_of_lt hcl) (congrArg _ (Chip.portAccess_read hr off f))), ?_, hcore⟩
  show Chip.out _ ++ [.readData _] = _
  rw [hx, hout, Chip.out_countAccess]

/-- A write to a data port leaves the core that `f` leaves. -/
theorem completes_portWrite {i : Instr} {off : Nat} {f : Chip → W × Chip} {v : W} {Q : Core → Prop}
    (hexec : exec i s = s.run fun c => onUnit (clOk cl) (c.portAccess (.cluster cl) off (some v) f))
    (hf : ∀ c : Chip, c.cl cl = s.cl cl → c.coreHeld cl = s.coreHeld cl → Q ((f c).2.core cl p)) :
    Completes i s fun t => Q (t.core cl p) :=
  ⟨_, hexec.trans (State.run_onUnit (clOk_of_lt hcl) (congrArg _ (Chip.portAccess_write hr off v f))),
    hf _ (Chip.cl_countAccess ..) (Chip.coreHeld_countAccess ..)⟩

variable (hs : (s.cl cl).selected = some p)

include hs

theorem lmData_completes (he : (s.core cl p).lmErr = []) (ha : (s.core cl p).lmWord < 0xC000) (v : W) :
    let c := s.core cl p
    let a := c.lmWord
    (Completes (.lmDataAccess cl none) s fun t =>
      t.out = s.out ++ [.readData (BitVec.ofNat 64 (Memory.readNat c.lm a 8))] ∧ t.core cl p = c.pastLm a) ∧
    Completes (.lmDataAccess cl (some v)) s fun t =>
      (t.core cl p).lm = if s.coreOpen cl c then Memory.write c.lm a (leBytes 8 v.toNat) else c.lm := by
  intro c a
  have hcore : ∀ {d : Chip}, d.cl cl = s.cl cl → d.core cl p = c := fun hd => congrArg (·.core p) hd
  have hsel : ∀ {d : Chip}, d.cl cl = s.cl cl → (d.cl cl).selected = some p := fun hd => by rw [hd, hs]
  constructor
  · refine completes_portRead hcl hr (off := Off.CL_CORE_LM_DATA) (f := fun d => d.lmData cl none) rfl fun d hd => ?_
    have hread := Chip.lmData_read (hsel hd) (by rw [hcore hd]; exact he) (by rw [hcore hd]; exact ha)
    rw [hcore hd] at hread
    rw [hread]
    exact ⟨rfl, Chip.core_modCore_same .., rfl⟩
  · refine completes_portWrite (Q := fun k => k.lm = if s.coreOpen cl c then Memory.write c.lm a (leBytes 8 v.toNat) else c.lm)
      hcl hr (off := Off.CL_CORE_LM_DATA) (f := fun d => d.lmData cl (some v)) rfl fun d hd hheld => ?_
    have hwrite := Chip.lm_lmData_write (hsel hd) v (by rw [hcore hd]; exact he) (by rw [hcore hd]; exact ha)
    rw [hcore hd, Chip.coreOpen_of_held hheld rfl] at hwrite
    exact hwrite

theorem accData_completes (he : (s.core cl p).accErr = []) (v : W) :
    let c := s.core cl p
    let e := c.accEntry
    (Completes (.accDataAccess cl none) s fun t =>
      t.out = s.out ++ [.readData (BitVec.ofNat 64 (c.accAt e).toNat)] ∧ t.core cl p = c.pastAcc e) ∧
    Completes (.accDataAccess cl (some v)) s fun t =>
      (t.core cl p).acc = if s.coreOpen cl c then (c.accWrite e [BitVec.ofNat 32 (fld v 0 32)]).acc else c.acc := by
  intro c e
  have hcore : ∀ {d : Chip}, d.cl cl = s.cl cl → d.core cl p = c := fun hd => congrArg (·.core p) hd
  have hsel : ∀ {d : Chip}, d.cl cl = s.cl cl → (d.cl cl).selected = some p := fun hd => by rw [hd, hs]
  constructor
  · refine completes_portRead hcl hr (off := Off.CL_CORE_ACC_DATA) (f := fun d => d.accData cl none) rfl fun d hd => ?_
    have hread := Chip.accData_read (hsel hd) (by rw [hcore hd]; exact he)
    rw [hcore hd] at hread
    rw [hread]
    exact ⟨rfl, Chip.core_modCore_same .., rfl⟩
  · refine completes_portWrite (Q := fun k => k.acc = if s.coreOpen cl c then
        (c.accWrite e [BitVec.ofNat 32 (fld v 0 32)]).acc else c.acc)
      hcl hr (off := Off.CL_CORE_ACC_DATA) (f := fun d => d.accData cl (some v)) rfl fun d hd hheld => ?_
    have hwrite := Chip.acc_accData_write (hsel hd) v
    rw [hcore hd, Chip.coreOpen_of_held hheld rfl] at hwrite
    exact hwrite

end PortRuns

theorem Core.accAt_accWrite_one (c : Core) (e : Nat) (x : W32) (i : Nat) :
    (c.accWrite e [x]).accAt i = if i = e then x else c.accAt i := by
  rw [Core.accAt_accWrite, List.length_singleton]
  by_cases h : i = e
  · rw [if_pos (by omega), if_pos h, h, Nat.sub_self]; rfl
  · rw [if_neg (by omega), if_neg h]

/-- Settles O16: what the host reads, writes and commands through the window of a core. -/
theorem hostCoreWindow : Obligations.HostCoreWindow := by
  refine ⟨fun s cl p v hcl hr hs => ?_, ⟨fun s cl p => coreResetComplete_completes, fun s cl p v => flagCmd_completes⟩,
    fun s cl p v hcl hr hs he hae => ?_⟩
  · intro c run stop rst
    obtain ⟨hrun, hstop, hreset, hmode⟩ := coreCtrl_completes (v := v) hcl hr hs
    refine ⟨fun h0 h1 h3 hc => ?_, hstop, hreset, hmode⟩
    have h := hrun h0 h1 h3 hc
    rwa [Core.start_stopped hc] at h
  · intro c a e
    have hacc := accData_completes hcl hr hs hae v
    refine ⟨fun ha => ?_, hacc.1, fun ho => ?_, fun ho => ?_⟩
    · obtain ⟨hread, t, ht, hlm⟩ := lmData_completes hcl hr hs he ha v
      refine ⟨hread, fun ho => ⟨t, ht, ?_⟩, fun ho => ⟨t, ht, ?_⟩⟩
      · rw [if_pos ((Chip.coreOpen_iff ..).mpr ho)] at hlm
        refine ⟨?_, fun b hb => ?_⟩
        · rw [hlm]; exact Memory.readNat_write_leBytes ..
        · rw [hlm]; exact Memory.readByte_write_out _ _ _ _ (by rw [length_leBytes]; exact hb)
      · rw [Chip.coreOpen_closed ho] at hlm
        exact hlm
    · obtain ⟨-, t, ht, hac⟩ := hacc
      refine ⟨t, ht, fun i => ?_⟩
      rw [if_pos ((Chip.coreOpen_iff ..).mpr ho)] at hac
      rw [Core.accAt, hac]
      exact Core.accAt_accWrite_one ..
    · obtain ⟨-, t, ht, hac⟩ := hacc
      rw [Chip.coreOpen_closed ho] at hac
      exact ⟨t, ht, hac⟩

end Sys2Proof.Machine
end

section
/-! O17: CL_START, and the engine halt (R126, R201, R359, R360, R495). -/

namespace Sys2Proof.Machine

open Sys2Proof

/-! ### Every core of a list -/

/-- A fold of changes of one entry each, by a change that is the same when made again. -/
theorem foldl_at_eq {σ α : Type} (core : σ → Nat → α) (f : σ → Nat → σ) (g : α → α)
    (hsame : ∀ s p, core (f s p) p = g (core s p)) (hother : ∀ s p q, q ≠ p → core (f s p) q = core s q)
    (hagain : ∀ c, g (g c) = g c) (l : List Nat) (s : σ) (q : Nat) :
    core (l.foldl f s) q = if q ∈ l then g (core s q) else core s q := by
  induction l generalizing s with
  | nil => rfl
  | cons p l ih =>
    rw [List.foldl_cons, ih]
    by_cases hq : q = p
    · subst hq
      simp [hsame, hagain]
    · simp [hother _ _ _ hq, hq]

theorem Cluster.mem_mappedCores {x : Cluster} (h : x.mapEn = true) {q : Nat} :
    q ∈ x.mappedCores ↔ ∃ l, l < 128 ∧ x.pcore l = q := by
  simp [Cluster.mappedCores, h]

theorem Core.start_start (c : Core) : c.start.start = c.start := by
  cases h : c.run <;> simp [Core.start, h]

theorem Cluster.core_startAll (x : Cluster) (q : Nat) :
    x.startAll.core q = if q ∈ x.mappedCores then (x.core q).start else x.core q :=
  foldl_at_eq Cluster.core (fun x p => x.modCore p Core.start) Core.start (by simp) (fun _ _ _ h => by simp [h])
    Core.start_start _ x q

/-- What a stop by the host makes of a core. -/
def Core.hostStop (c : Core) : Core := if c.run = .running then c.hostStopped else c

theorem Core.hostStop_hostStop (c : Core) : c.hostStop.hostStop = c.hostStop := by
  cases h : c.run <;> simp [Core.hostStop, Core.hostStopped, h]

theorem Chip.core_hostStop (s : Chip) (cl p : Nat) : (s.hostStop cl p).core cl p = (s.core cl p).hostStop := by
  by_cases h : (s.core cl p).run = .running
  · rw [(makes_hostStop h).1, Core.hostStop, if_pos h]
  · rw [Chip.hostStop_not_running h, Core.hostStop, if_neg h]

theorem Chip.core_hostStop_other (s : Chip) (cl : Nat) {p q : Nat} (hq : q ≠ p) :
    (s.hostStop cl p).core cl q = s.core cl q := by
  by_cases h : (s.core cl p).run = .running
  · obtain ⟨detail, tint, hstop⟩ := Chip.hostStop_running h
    rw [hstop, Chip.core_raiseWith_cluster, Chip.core_modCore_other _ _ _ hq, Chip.core, Chip.cl, Chip.clusters_endWait, ← Chip.cl,
      ← Chip.core, Chip.core_modCore_other _ _ _ hq]
  · rw [Chip.hostStop_not_running h]

theorem Chip.cl_hostStop_other (s : Chip) {cl k : Nat} (p : Nat) (hk : k ≠ cl) : (s.hostStop cl p).cl k = s.cl k := by
  by_cases h : (s.core cl p).run = .running
  · exact (makes_hostStop h).2 k hk
  · rw [Chip.hostStop_not_running h]

theorem Chip.core_stopAll (s : Chip) (cl q : Nat) :
    (s.stopAll cl).core cl q = if q ∈ (s.cl cl).mappedCores then (s.core cl q).hostStop else s.core cl q :=
  foldl_at_eq (fun s q => s.core cl q) (fun s p => s.hostStop cl p) Core.hostStop (fun s p => s.core_hostStop cl p)
    (fun s _ _ h => s.core_hostStop_other cl h) Core.hostStop_hostStop _ s q

theorem Chip.cl_stopAll_other (s : Chip) {cl k : Nat} (hk : k ≠ cl) : (s.stopAll cl).cl k = s.cl k :=
  foldl_keeps (fun s : Chip => s.cl k) fun s p => s.cl_hostStop_other p hk

/-! ### CL_START (R201) -/

section Start

variable {s : State} {cl : Nat} {v : W}

theorem exec_clusterStart (h0 : bit v 0 = true) (h1 : bit v 1 = false) : exec (.clusterStart cl v) s =
    s.run fun c => onUnit (clOk cl) (c.cmdWrite (.cluster cl) Off.CL_START fun d => d.modCl cl Cluster.startAll) := by
  show execClusterStart cl v s = _
  simp only [execClusterStart, h0, if_true, Chip.clStartWrite, h1]

theorem exec_clusterStop (h0 : bit v 0 = false) (h1 : bit v 1 = true) : exec (.clusterStop cl v) s =
    s.run fun c => onUnit (clOk cl) (c.cmdWrite (.cluster cl) Off.CL_START fun d => d.stopAll cl) := by
  show execClusterStop cl v s = _
  simp only [execClusterStop, h1, if_true, Chip.clStartWrite, h0]

variable (hcl : cl < 4032) (hr : Reaches s.toChip (.cluster cl))

include hcl hr

theorem clusterStart_completes (h0 : bit v 0 = true) (h1 : bit v 1 = false) : Completes (.clusterStart cl v) s fun t =>
    (∀ q, t.core cl q = if q ∈ (s.cl cl).mappedCores then (s.core cl q).start else s.core cl q) ∧ OtherClusters s t cl := by
  refine completes_cmdWrite hcl hr (exec_clusterStart h0 h1) ⟨fun q => ?_, fun k hk => ?_⟩
  · show ((Chip.modCl _ cl _).cl cl).core q = _
    rw [Chip.cl_modCl, if_pos rfl, Cluster.core_startAll, Chip.cl_countAccess, Chip.core]
  · show (Chip.modCl _ cl _).cl k = _
    rw [Chip.cl_modCl, if_neg hk, Chip.cl_countAccess]

theorem clusterStop_completes (h0 : bit v 0 = false) (h1 : bit v 1 = true) : Completes (.clusterStop cl v) s fun t =>
    (∀ q, t.core cl q = if q ∈ (s.cl cl).mappedCores then (s.core cl q).hostStop else s.core cl q) ∧ OtherClusters s t cl := by
  refine completes_cmdWrite hcl hr (exec_clusterStop h0 h1) ⟨fun q => ?_, fun k hk => ?_⟩
  · show (Chip.stopAll _ cl).core cl q = _
    rw [Chip.core_stopAll, Chip.cl_countAccess, Chip.core_countAccess]
  · show (Chip.stopAll _ cl).cl k = _
    rw [Chip.cl_stopAll_other _ hk, Chip.cl_countAccess]

end Start

/-! ### The engine halt (R359, R360, R495) -/

section Halt

variable (s : Chip)

theorem Chip.module_openWindow (t : Nat) (c : StallCause) : (s.openWindow t c).module = s.module := by
  unfold Chip.openWindow; split <;> rfl

theorem Chip.module_closeWindow (t : Nat) (c : StallCause) : (s.closeWindow t c).module = s.module := by
  unfold Chip.closeWindow; split <;> rfl

theorem Chip.module_signal (fn vec : Nat) : (s.signal fn vec).module = s.module := by
  simp only [Chip.signal, Chip.sendHost]
  split <;> split <;> rfl

theorem Cluster.core_haltSave (x : Cluster) (p : Nat) : x.haltSave.core p = x.core p := by
  unfold Cluster.haltSave; split <;> rfl

/-- The chip once a rising halt has stopped the saves. -/
def Chip.savesHalted : Chip :=
  { s with
    clusters := SMap.mapVals {} s.clusters fun _ x => x.haltSave
    gables := SMap.mapVals {} s.gables fun _ g => { g with saving := false } }

theorem Chip.core_savesHalted (cl p : Nat) : s.savesHalted.core cl p = s.core cl p := by
  show (SMap.get {} (SMap.mapVals {} s.clusters fun _ x => x.haltSave) cl).core p = _
  rw [SMap.get_mapVals]
  by_cases h : cl ∈ SMap.keys s.clusters
  · rw [if_pos h, Cluster.core_haltSave]; rfl
  · rw [if_neg h, Chip.core, Chip.cl, SMap.get_unlisted _ _ _ h]

/-- A rise or fall of the halt changes no core. -/
theorem Chip.core_haltChange (was : Bool) (cl p : Nat) : (Chip.haltChange was s).core cl p = s.core cl p := by
  have hcore : ∀ {a b : Chip}, a.clusters = b.clusters → a.core cl p = b.core cl p := fun h => by
    rw [Chip.core, Chip.cl, h, ← Chip.cl, ← Chip.core]
  unfold Chip.haltChange
  split
  · rfl
  · split
    · exact (hcore (b := s.savesHalted) (((Chip.clusters_signal ..).trans (Chip.clusters_syncHolds _)).trans
        (Chip.eachGable_keeps s.savesHalted Chip.clusters fun s t => s.clusters_openWindow t .fault))).trans
        (s.core_savesHalted cl p)
    · exact hcore (((Chip.clusters_signal ..).trans (Chip.clusters_syncHolds _)).trans
        (Chip.eachGable_keeps _ Chip.clusters fun s t => s.clusters_closeWindow t .fault))

/-- A rise or fall of the halt changes nothing of the module but HALTED, which clears when the halt ends. -/
theorem Chip.module_haltChange (was : Bool) : (Chip.haltChange was s).module =
    if was = true ∧ s.halting = false then { s.module with haltedBit := false } else s.module := by
  unfold Chip.haltChange
  cases hs : s.halting <;> cases was
  · rfl
  · exact (Chip.module_signal ..).trans (Chip.eachGable_keeps _ Chip.module fun s t => s.module_closeWindow t .fault)
  · exact (Chip.module_signal ..).trans (Chip.eachGable_keeps _ Chip.module fun s t => s.module_openWindow t .fault)
  · rfl

/-- HALTED takes no part in the halt. -/
theorem Chip.halting_haltChange (was : Bool) : (Chip.haltChange was s).halting = s.halting := by
  rw [Chip.halting, Chip.module_haltChange]
  split <;> rfl

theorem Chip.haltReg_haltChange (was : Bool) : (Chip.haltChange was s).module.haltReg = s.module.haltReg := by
  rw [Chip.module_haltChange]; split <;> rfl

theorem Chip.fatalHalt_haltChange (was : Bool) : (Chip.haltChange was s).module.fatalHalt = s.module.fatalHalt := by
  rw [Chip.module_haltChange]; split <;> rfl

theorem Chip.haltN_haltChange (was : Bool) : (Chip.haltChange was s).module.haltN = s.module.haltN := by
  rw [Chip.module_haltChange]; split <;> rfl

theorem Chip.haltedBit_haltChange (h : s.halting = false) : (Chip.haltChange true s).module.haltedBit = false := by
  rw [Chip.module_haltChange, if_pos ⟨rfl, h⟩]

theorem Chip.coreHeld_of_halting {s : Chip} (h : s.halting = true) (cl : Nat) : s.coreHeld cl = true := by
  simp [Chip.coreHeld, h]

end Halt

section HaltRuns

variable (s : State)

theorem haltNFall_completes : Completes .haltNFall s fun t => t.halting = true ∧ t.module.haltN = false ∧
    ∀ cl, t.coreHeld cl = true ∧ ∀ p, t.core cl p = s.core cl p := by
  let u : Chip := { s.toChip with module := { s.module with haltN := false } }
  have hu : u.halting = true := by simp [Chip.halting, u]
  have ht : (Chip.haltChange s.halting u).halting = true := by rw [Chip.halting_haltChange, hu]
  exact ⟨{ s with toChip := Chip.haltChange s.halting u }, rfl, ht, Chip.haltN_haltChange ..,
    fun cl => ⟨Chip.coreHeld_of_halting ht cl, fun p => Chip.core_haltChange ..⟩⟩

theorem haltNRise_completes : Completes .haltNRise s fun t => t.module.haltN = true ∧
    t.halting = (s.module.haltReg || s.module.fatalHalt || s.module.tapTakes) ∧
    (s.halting = true → t.halting = false → t.module.haltedBit = false) ∧ ∀ cl p, t.core cl p = s.core cl p := by
  let u : Chip := { s.toChip with module := { s.module with haltN := true } }
  have hu : u.halting = (s.module.haltReg || s.module.fatalHalt || s.module.tapTakes) := by
    simp [Chip.halting, u, Module.tapTakes]
  have ht : (Chip.haltChange s.halting u).halting = u.halting := Chip.halting_haltChange ..
  refine ⟨{ s with toChip := Chip.haltChange s.halting u }, rfl, Chip.haltN_haltChange .., ht.trans hu, fun hs hoff => ?_,
    fun cl p => Chip.core_haltChange ..⟩
  show (Chip.haltChange s.halting u).module.haltedBit = false
  rw [hs]
  exact Chip.haltedBit_haltChange u (ht.symm.trans hoff)

/-- A write of DEV_HALT that reaches the page. -/
theorem devHalt_completes {i : Instr} {v : W} {P : Chip → Prop} (hr : Reaches s.toChip .dev)
    (hexec : exec i s = s.run fun c => .next (c.cmdWrite .dev Off.DEV_HALT fun d => d.haltWrite v))
    (hP : ∀ c : Chip, c.module = s.module → P (c.haltWrite v)) : Completes i s fun t => P t.toChip :=
  ⟨{ s with toChip := (s.countAccess .dev true).haltWrite v },
    hexec.trans (State.run_onUnit (b := true) rfl (congrArg (onUnit true) (Chip.cmdWrite_reaches hr ..))),
    hP _ (Chip.module_countAccess ..)⟩

end HaltRuns

section HaltWrite

variable (c : Chip) (v : W)

theorem Chip.haltReg_haltWrite : (c.haltWrite v).module.haltReg = bit v 0 := Chip.haltReg_haltChange ..

theorem Chip.fatalHalt_haltWrite : (c.haltWrite v).module.fatalHalt = (c.module.fatalHalt && bit v 0) :=
  Chip.fatalHalt_haltChange ..

theorem Chip.halting_haltWrite : (c.haltWrite v).halting =
    (bit v 0 || !c.module.haltN || (c.module.fatalHalt && bit v 0) || c.module.tapTakes) := Chip.halting_haltChange ..

end HaltWrite

theorem haltedSet_completes {s : State} (hh : s.halting = true) (hb : s.module.haltedBit = false) (hst : s.module.standby = true) :
    Completes .haltedSet s fun t => t.module.haltedBit = true ∧ t.reg .dev Off.DEV_HALT_TIME = s.now := by
  let u : Chip := { s.toChip with module := { s.module with haltedBit := true } }
  have hset : (s.halting && !s.module.haltedBit && s.module.standby) = true := by rw [hh, hb, hst]; rfl
  have hexec : exec .haltedSet s = .next { s with toChip := u.setReg .dev Off.DEV_HALT_TIME s.now } := by
    show execHaltedSet s = _
    exact State.run_onUnit (b := true) rfl (congrArg (onUnit true) (if_pos hset))
  refine ⟨_, hexec, rfl, ?_⟩
  exact (Chip.reg_setReg u .dev _ _ s.now rfl).trans (if_pos rfl)

/-- Settles O17: a cluster's start and stop, and the engine halt. -/
theorem clusterStartAndHalt : Obligations.ClusterStartAndHalt := by
  refine ⟨fun s cl v hcl hr hmap => ⟨fun h0 h1 => ?_, fun h0 h1 => ?_⟩,
    fun s => ⟨haltNFall_completes s, haltNRise_completes s, fun hr _ => ⟨?_, ?_⟩, haltedSet_completes⟩⟩
  · obtain ⟨t, ht, hcore, hothers⟩ := clusterStart_completes hcl hr h0 h1
    refine ⟨t, ht, fun l hl hrun => ?_, fun q hq => ?_, hothers⟩
    · rw [hcore, if_pos ((Cluster.mem_mappedCores hmap).mpr ⟨l, hl, rfl⟩), Core.start_stopped hrun]
      exact ⟨rfl, rfl⟩
    · rw [hcore, if_neg fun h => ?_]
      obtain ⟨l, hl, hlq⟩ := (Cluster.mem_mappedCores hmap).mp h
      exact hq l hl hlq
  · obtain ⟨t, ht, hcore, hothers⟩ := clusterStop_completes hcl hr h0 h1
    refine ⟨t, ht, fun l hl hrun => ?_, fun q hq => ?_, hothers⟩
    · rw [hcore, if_pos ((Cluster.mem_mappedCores hmap).mpr ⟨l, hl, rfl⟩), Core.hostStop, if_pos hrun]
      exact ⟨rfl, rfl⟩
    · rw [hcore, if_neg fun h => ?_]
      obtain ⟨l, hl, hlq⟩ := (Cluster.mem_mappedCores hmap).mp h
      exact hq l hl hlq
  · exact devHalt_completes (P := fun t => t.halting = true ∧ t.module.haltReg = true) s hr rfl fun c _ =>
      ⟨(Chip.halting_haltWrite ..).trans rfl, Chip.haltReg_haltWrite ..⟩
  · refine devHalt_completes (P := fun t => t.module.haltReg = false ∧ t.module.fatalHalt = false ∧
      t.halting = (!s.module.haltN || s.module.tapTakes)) s hr rfl fun c hc => ⟨Chip.haltReg_haltWrite .., ?_, ?_⟩
    · rw [Chip.fatalHalt_haltWrite]; exact Bool.and_false _
    · have h0 : bit 0#64 0 = false := rfl
      rw [Chip.halting_haltWrite, h0, hc, Bool.and_false, Bool.false_or, Bool.or_false]

end Sys2Proof.Machine
end

section
/-! The weave: what its operations on queues, streams and waits leave, and when a command acts on the weave
(R129 to R132, R164, R165). -/

namespace Sys2Proof.Machine

open Sys2Proof

/-! ### Queues -/

section Queues

variable (w : Weave) (qa : Nat) (l : List Item)

theorem Weave.iq_setIq (q : Nat) : (w.setIq qa l).iq q = if q = qa then l else w.iq q := SMap.get_set _ _ _ _ _
theorem Weave.oq_setOq (q : Nat) : (w.setOq qa l).oq q = if q = qa then l else w.oq q := SMap.get_set _ _ _ _ _

@[simp] theorem Weave.iq_setIq_same : (w.setIq qa l).iq qa = l := by simp [Weave.iq_setIq]
@[simp] theorem Weave.oq_setOq_same : (w.setOq qa l).oq qa = l := by simp [Weave.oq_setOq]
@[simp] theorem Weave.iq_setIq_other {q : Nat} (h : q ≠ qa) : (w.setIq qa l).iq q = w.iq q := by simp [Weave.iq_setIq, h]
@[simp] theorem Weave.oq_setOq_other {q : Nat} (h : q ≠ qa) : (w.setOq qa l).oq q = w.oq q := by simp [Weave.oq_setOq, h]
@[simp] theorem Weave.iq_setOq (q : Nat) : (w.setOq qa l).iq q = w.iq q := rfl
@[simp] theorem Weave.oq_setIq (q : Nat) : (w.setIq qa l).oq q = w.oq q := rfl
@[simp] theorem Weave.pos_setOq (sp : Nat) : (w.setOq qa l).pos sp = w.pos sp := rfl

@[simp] theorem Weave.iq_take_same (n : Nat) : (w.take qa n).iq qa = (w.iq qa).drop n := by simp [Weave.iq_take]
@[simp] theorem Weave.iq_take_other (n : Nat) {q : Nat} (h : q ≠ qa) : (w.take qa n).iq q = w.iq q := by
  simp [Weave.iq_take, h]
@[simp] theorem Weave.oq_take (n q : Nat) : (w.take qa n).oq q = w.oq q := rfl
@[simp] theorem Weave.pos_take (n sp : Nat) : (w.take qa n).pos sp = w.pos sp := rfl
@[simp] theorem Weave.debts_take (n : Nat) : (w.take qa n).debts = w.debts := rfl
@[simp] theorem Weave.slack_take (n : Nat) : (w.take qa n).slack = w.slack := rfl

end Queues

/-! ### The end of a wait -/

section Acted

variable (w : Weave) (ctx u : Nat)

@[simp] theorem Weave.iq_unwait (q : Nat) : (w.unwait u).iq q = w.iq q := rfl
@[simp] theorem Weave.oq_unwait (q : Nat) : (w.unwait u).oq q = w.oq q := rfl

/-- A unit that acts changes nothing of the weave but its count of waits. -/
theorem Weave.acted_cases : w.acted ctx u = w ∨ w.acted ctx u = w.unwait u := ite_eq_or_eq ..

@[simp] theorem Weave.iq_acted (q : Nat) : (w.acted ctx u).iq q = w.iq q := by
  obtain h | h := w.acted_cases ctx u <;> rw [h]; rfl
@[simp] theorem Weave.oq_acted (q : Nat) : (w.acted ctx u).oq q = w.oq q := by
  obtain h | h := w.acted_cases ctx u <;> rw [h]; rfl
@[simp] theorem Weave.pos_acted (sp : Nat) : (w.acted ctx u).pos sp = w.pos sp := by
  obtain h | h := w.acted_cases ctx u <;> rw [h]; rfl
@[simp] theorem Weave.debts_acted : (w.acted ctx u).debts = w.debts := by
  obtain h | h := w.acted_cases ctx u <;> rw [h]; rfl
@[simp] theorem Weave.slack_acted : (w.acted ctx u).slack = w.slack := by
  obtain h | h := w.acted_cases ctx u <;> rw [h]; rfl

end Acted

/-! ### Streams -/

section Bump

variable (w : Weave) (sp : Nat)

@[simp] theorem Weave.pos_bump : (w.bump sp).pos sp = w.pos sp + 1 := SMap.get_set_same _ _ _ _
@[simp] theorem Weave.iq_bump (q : Nat) : (w.bump sp).iq q = w.iq q := rfl
@[simp] theorem Weave.oq_bump (q : Nat) : (w.bump sp).oq q = w.oq q := rfl
@[simp] theorem Weave.slack_bump : (w.bump sp).slack = w.slack := rfl

end Bump

/-! ### Commands on the weave -/

/-- The weave of cluster `cl` acts on its active context `ctx`, whose image holds no uncorrectable word (R156, R165). -/
structure WeaveActs (s : Chip) (cl ctx : Nat) : Prop where
  cl_lt : cl < 4032
  runs : s.weaveRuns cl = true
  active : (s.cl cl).weave.active = some ctx
  image : (s.cl cl).weave.imgBad ctx = false

/-- It acts unless the head of a queue concerned is in error. -/
theorem WeaveActs.weaveDo {s : Chip} {cl ctx : Nat} {heads : List (List Item)} (h : WeaveActs s cl ctx) (f : Nat → Chip)
    (hheads : ∀ l ∈ heads, headBad l = false) : s.weaveDo cl heads f = f ctx := by
  have hany : heads.any headBad = false := by simpa using hheads
  simp [Chip.weaveDo, h.active, h.runs, h.image, hany]

/-- What a command on the weave makes of the chip. -/
theorem WeaveActs.exec_eq {s : State} {cl ctx : Nat} {i : Instr} {ok : Bool} {heads : Chip → List (List Item)}
    {f : Chip → Nat → Chip} {t : Chip} (h : WeaveActs s.toChip cl ctx)
    (hexec : exec i s = s.run fun c => onUnit ok (c.weaveDo cl (heads c) (f c))) (hok : ok = true)
    (hheads : ∀ l ∈ heads s.toChip, headBad l = false) (ht : f s.toChip ctx = t) :
    exec i s = .next { s with toChip := t } :=
  hexec.trans (State.run_onUnit hok (congrArg _ ((h.weaveDo _ hheads).trans ht)))

@[simp] theorem headBad_nil : headBad [] = false := rfl
@[simp] theorem headBad_cons (i : Item) (l : List Item) : headBad (i :: l) = i.bad := rfl

/-- Everything but cluster `cl` stays where a command changes that cluster alone. -/
theorem otherClusters_setCl (s : State) (cl : Nat) (x : Cluster) :
    OtherClusters s { s with toChip := s.toChip.setCl cl x } cl := fun k hk => by simp [hk]

/-- A change of the weave of cluster `cl` alone. -/
def Chip.modWeave (s : Chip) (cl : Nat) (f : Weave → Weave) : Chip :=
  s.modCl cl fun x => { x with weave := f x.weave }

@[simp] theorem Chip.cl_modWeave (s : Chip) (cl k : Nat) (f : Weave → Weave) :
    (s.modWeave cl f).cl k =
      if k = cl then { s.cl cl with weave := f (s.cl cl).weave } else s.cl k := Chip.cl_modCl ..

theorem weaveOk {cl : Nat} (hcl : cl < 4032) : (PageRef.weave cl).ok = true := by simp [PageRef.ok, hcl]

/-- A change of the weave's page leaves the weave and the other clusters. -/
theorem Chip.modPage_weave (s : Chip) (cl : Nat) (f : Page → Page) :
    ((s.modPage (.weave cl) f).cl cl).weave = (s.cl cl).weave ∧ ∀ k, k ≠ cl → (s.modPage (.weave cl) f).cl k = s.cl k :=
  ⟨by simp [Chip.modPage], fun k hk => by simp [Chip.modPage, hk]⟩

/-- A fault of a cluster's weave changes its page alone, and nothing where the fault stands already (R469). -/
theorem Chip.raiseWith_weave (s : Chip) (cl b : Nat) (cls : Option ErrClass) (detail tint : Nat) (patrol : Bool) :
    (bit (s.cl cl).weavePage.fault b = true ∧ s.raiseWith (.weave cl) b cls detail tint patrol = s) ∨
      ∃ rs, s.raiseWith (.weave cl) b cls detail tint patrol = s.modPage (.weave cl) fun p => p.raised b rs := by
  by_cases h : bit (s.cl cl).weavePage.fault b = true
  · exact .inl ⟨h, by simp [Chip.raiseWith, Chip.page, h]⟩
  · exact .inr ⟨_, by
      simp only [Chip.raiseWith, Chip.page, h, PageRef.block, Bool.false_eq_true, if_false, reduceCtorEq, false_and]
      rfl⟩

/-- Such a fault shows on that page; the weave, the registers, the cores and the other clusters stay. -/
structure RaisedWeave (s t : Chip) (cl b : Nat) : Prop where
  fault : bit (t.page (.weave cl)).fault b = true
  weave : (t.cl cl).weave = (s.cl cl).weave
  reg : ∀ off, t.reg (.weave cl) off = s.reg (.weave cl) off
  core : ∀ p, t.core cl p = s.core cl p
  clusters : ∀ k, k ≠ cl → t.cl k = s.cl k

theorem Chip.raisedWeave (s : Chip) (cl : Nat) {b : Nat} (detail : Nat) (hb : b < 64) :
    RaisedWeave s (s.raise (.weave cl) b detail) cl b := by
  obtain ⟨hbit, ht⟩ | ⟨rs, ht⟩ := s.raiseWith_weave cl b (errClass .weave b) detail (s.reportTint (.weave cl)) false
  · rw [Chip.raise, PageRef.block, ht]
    exact ⟨hbit, rfl, fun _ => rfl, fun _ => rfl, fun _ _ => rfl⟩
  · rw [Chip.raise, PageRef.block, ht]
    refine ⟨?_, ?_, fun off => ?_, fun p => Chip.core_modPage .., fun k hk => ?_⟩
    · simp [Chip.page, Chip.modPage, Page.raised, bit_setBit_same _ hb]
    · simp [Chip.modPage]
    · simp [Chip.reg, Chip.page, Chip.modPage, Page.raised, Page.reg]
    · simp [Chip.modPage, hk]

end Sys2Proof.Machine
end

section
/-! O11: the output queues of a core: ACC.SEND, QSEND and QPUSH.S (R134, R138). -/

namespace Sys2Proof.Machine

open Sys2Proof

/-! ### Backlogs -/

/-- The items backlogged for output queue `q`. -/
def Core.backlogOf (c : Core) (q : Nat) : List Item := SMap.get [] c.backlog q

/-- Output queue `q` of core `p` takes as many backlogged items as it has room for. -/
def Cluster.pumpQueue (x : Cluster) (p q : Nat) : Cluster :=
  let qa := x.coreQueue p q
  let b := (x.core p).backlogOf q
  let k := queueDepth - (x.weave.oq qa).length
  { x with weave := x.weave.setOq qa (x.weave.oq qa ++ b.take k) }.modCore p
    fun c => { c with backlog := SMap.set [] c.backlog q (b.drop k) }

theorem Cluster.pumpOut_eq (x : Cluster) (p : Nat) : x.pumpOut p = (x.pumpQueue p 0).pumpQueue p 1 := rfl

section PumpQueue

variable (x : Cluster) (p q : Nat)

theorem Cluster.oq_pumpQueue (qa : Nat) : (x.pumpQueue p q).weave.oq qa =
    if qa = x.coreQueue p q then
      x.weave.oq qa ++ ((x.core p).backlogOf q).take (queueDepth - (x.weave.oq qa).length)
    else x.weave.oq qa := by
  simp only [Cluster.pumpQueue, Cluster.modCore, Weave.oq_setOq]
  split_ifs with h
  · rw [h]
  · rfl

theorem Cluster.core_pumpQueue : ∃ b, (x.pumpQueue p q).core p = { x.core p with backlog := b } ∧
    ∀ q', q' ≠ q → SMap.get [] b q' = (x.core p).backlogOf q' :=
  ⟨_, (Cluster.core_modCore ..).trans (if_pos rfl), fun _ h => SMap.get_set_other _ _ h _⟩

theorem Cluster.coreQueue_pumpQueue (q' : Nat) : (x.pumpQueue p q).coreQueue p q' = x.coreQueue p q' := rfl

/-- An output queue without a backlog stays. -/
theorem Cluster.oq_pumpQueue_idle (h : (x.core p).backlogOf q = []) (qa : Nat) :
    (x.pumpQueue p q).weave.oq qa = x.weave.oq qa := by
  rw [Cluster.oq_pumpQueue, h, List.take_nil, List.append_nil, ite_self]

/-- An output queue with room for its backlog takes it whole. -/
theorem Cluster.oq_pumpQueue_room
    (h : (x.weave.oq (x.coreQueue p q)).length + ((x.core p).backlogOf q).length ≤ 8) (qa : Nat) :
    (x.pumpQueue p q).weave.oq qa =
      if qa = x.coreQueue p q then x.weave.oq qa ++ (x.core p).backlogOf q else x.weave.oq qa := by
  rw [Cluster.oq_pumpQueue]
  split_ifs with hqa
  · rw [List.take_of_length_le (by rw [hqa, queueDepth]; omega)]
  · rfl

end PumpQueue

/-! ### A send -/

/-- Cluster `y` is `x` after core `p` has sent `items` by its output queue `q`. -/
structure CoreSent (x y : Cluster) (p q : Nat) (items : List Item) : Prop where
  oq : ∀ qa, y.weave.oq qa = if qa = x.coreQueue p q then x.weave.oq qa ++ items else x.weave.oq qa
  core : ∃ b, y.core p = { x.core p with backlog := b }

/-- The one queue with a backlog takes it. -/
theorem Cluster.pumpOut_sent {x : Cluster} {p q : Nat} (hq : q < 2)
    (hother : ∀ q', q' ≠ q → (x.core p).backlogOf q' = [])
    (hroom : (x.weave.oq (x.coreQueue p q)).length + ((x.core p).backlogOf q).length ≤ 8) :
    CoreSent x (x.pumpOut p) p q ((x.core p).backlogOf q) := by
  obtain ⟨b, hcore, hb⟩ := x.core_pumpQueue p 0
  obtain ⟨b', hcore', -⟩ := (x.pumpQueue p 0).core_pumpQueue p 1
  have hback : ((x.pumpQueue p 0).core p).backlogOf 1 = (x.core p).backlogOf 1 := by rw [hcore]; exact hb 1 (by decide)
  rw [Cluster.pumpOut_eq]
  refine ⟨fun qa => ?_, b', by rw [hcore', hcore]⟩
  obtain rfl | rfl : q = 0 ∨ q = 1 := by omega
  · rw [Cluster.oq_pumpQueue_idle _ _ _ (by rw [hback, hother 1 (by decide)]), Cluster.oq_pumpQueue_room _ _ _ hroom]
  · have hidle := x.oq_pumpQueue_idle p 0 (hother 0 (by decide))
    rw [Cluster.oq_pumpQueue_room _ _ _ (by rw [Cluster.coreQueue_pumpQueue, hback, hidle]; exact hroom),
      Cluster.coreQueue_pumpQueue, hback, hidle]

/-- Items sent by a core without backlog enter an output queue that has room for them. -/
theorem Cluster.coreSend_sent {x : Cluster} {p q : Nat} {items : List Item} (hq : q < 2) (hback : (x.core p).backlog = [])
    (hroom : (x.weave.oq (x.coreQueue p q)).length + items.length ≤ 8) : CoreSent x (x.coreSend p q items) p q items := by
  generalize hy : (x.modCore p fun c => { c with backlog := SMap.upd [] c.backlog q (· ++ items) }) = y
  have hcore : y.core p = { x.core p with backlog := SMap.upd [] [] q (· ++ items) } := by
    rw [← hy, Cluster.core_modCore, if_pos rfl, hback]
  have hweave : y.weave = x.weave := by rw [← hy]; rfl
  have hqueue : y.coreQueue p q = x.coreQueue p q := by rw [← hy]; rfl
  have hitems : (y.core p).backlogOf q = items := by rw [hcore]; exact SMap.get_set_same _ _ _ _
  have hother : ∀ q', q' ≠ q → (y.core p).backlogOf q' = [] := fun q' h => by
    rw [hcore]; exact SMap.get_set_other _ _ h _
  obtain ⟨hoq, b, hb⟩ := Cluster.pumpOut_sent hq hother (by rw [hitems, hweave, hqueue]; exact hroom)
  have hsend : x.coreSend p q items = y.pumpOut p := by rw [← hy]; rfl
  rw [hitems, hweave, hqueue] at hoq
  rw [hsend]
  exact ⟨hoq, b, by rw [hb, hcore]⟩

end Sys2Proof.Machine
end

section
/-! O11: the instructions that send, and QPOP.S (R134, R135, R138). -/

namespace Sys2Proof.Machine

open Sys2Proof

/-! ### Instructions that send -/

/-- After an instruction of core `p`, output queue `q` holds `items` more; every other output queue, and the core's memory,
entries and registers, are as they were. -/
structure QueueSent (s t : State) (cl p q : Nat) (items : List Item) : Prop where
  queue : (t.cl cl).weave.oq ((s.cl cl).coreQueue p q) = (s.cl cl).weave.oq ((s.cl cl).coreQueue p q) ++ items
  others : ∀ qa, qa ≠ (s.cl cl).coreQueue p q → (t.cl cl).weave.oq qa = (s.cl cl).weave.oq qa
  lm : (t.core cl p).lm = (s.core cl p).lm
  acc : (t.core cl p).acc = (s.core cl p).acc
  sregs : (t.core cl p).s = (s.core cl p).s
  clusters : OtherClusters s t cl

/-- `d` is `c` but for what an instruction that sends uses up: its cycles and the multiplier's. -/
structure Core.SendsAs (d c : Core) : Prop where
  place : d.InPlace c
  backlog : d.backlog = c.backlog
  lm : d.lm = c.lm
  acc : d.acc = c.acc
  sregs : d.s = c.s

section Send

variable {s : State} {cl p q : Nat} {w : BitVec 56} {op : Nat → Nat → BitVec 56 → Instr} {f : Cluster → Core → Res}
  {items : List Item}

/-- An instruction that sends items by a queue with room, and does nothing else. -/
theorem sends_runs (hf : OneCycle cl p w op f) (hi : Issues s.toChip cl p) (hn : Follows (fetched s.toChip cl p))
    (he : (s.core cl p).lmErr = []) (hback : (s.core cl p).backlog = []) (hq : q < 2)
    (hroom : ((s.cl cl).weave.oq ((s.cl cl).coreQueue p q)).length + items.length ≤ 8)
    (heff : ∀ v x, ∃ e : Core, e.SendsAs (s.core cl p) ∧
      f x ((s.core cl p).ready v) = .ok ((x.modCore p fun _ => e).coreSend p q items) .seq) :
    Runs cl p (op cl p w) s fun t => QueueSent s t cl p q items := by
  obtain ⟨u, hexec⟩ := hf
  have hfetched := fetched_clean he
  generalize hv : u (atIssue s.toChip cl p) (fetched s.toChip cl p) = v
  obtain ⟨e, ⟨⟨hstat, -, -⟩, hsback, hlm, hacc, hs⟩, heff⟩ := heff v (atIssue s.toChip cl p)
  generalize hx : (atIssue s.toChip cl p).modCore p (fun _ => e) = x at heff
  have hcore : x.core p = e := by rw [← hx, Cluster.core_modCore, if_pos rfl]
  have hqueue : x.coreQueue p q = (s.cl cl).coreQueue p q := by rw [← hx]; rfl
  have hweave : x.weave = (s.cl cl).weave := by rw [← hx]; rfl
  obtain ⟨hoq, b, hsent⟩ := Cluster.coreSend_sent (x := x) (items := items) hq (by rw [hcore, hsback, hback])
    (by rw [hqueue, hweave]; exact hroom)
  rw [hqueue, hweave] at hoq
  rw [hcore] at hsent
  have htakes := takesEffect_coreInstr hi (hexec s) hv (by rw [entered, hfetched]; exact heff)
  intro hfetch
  obtain ⟨t, ht, hleaves⟩ := htakes.runs hi (by rw [hsent, hfetched]; exact hstat) .seq (Int.natCast_nonneg _)
    (by unfold Follows at hn; omega) hfetch
  obtain ⟨hcore', -, hcluster, hclusters, -⟩ := hleaves
  have hqueues (qa : Nat) := (congrArg (fun x : Cluster => x.weave.oq qa) hcluster).trans (hoq qa)
  rw [hsent] at hcore'
  refine ⟨t, ht, (hqueues _).trans (if_pos rfl), fun qa hqa => (hqueues qa).trans (if_neg hqa), ?_, ?_, ?_, hclusters⟩
  · rw [hcore']; exact hlm
  · rw [hcore']; exact hacc
  · rw [hcore']; exact hs

end Send

/-! ### The effects -/

section Effects

variable (cl p : Nat) (w : BitVec 56)

theorem accSend_effect : ∃ f, OneCycle cl p w .accSend f ∧
    (accReserved w false true false = true → ∀ x (c : Core) v, c.qops = [] → c.accErr = [] → accRange c w = true →
      f x (c.ready v) = .ok ((x.modCore p fun _ => (c.settled v).occupy (ceilDiv (aCount c w) 16)).coreSend p (ibits w 36 1)
        (itemsOf (c.accBytes (aBase w) (aCount c w)))) .seq) := by
  refine ⟨_, ⟨_, fun _ => rfl⟩, fun hw x c v hq hae hr => ?_⟩
  have hr' : accRange (c.ready v) w = true := hr
  have hq' : (c.ready v).qops = [] := hq
  simp only [hw, hr', Bool.not_true, Bool.false_eq_true, if_false, Core.afterTensor_idle hq',
    Core.accScan_clean (c := (c.ready v).settle) _ _ hae]
  rfl

theorem qsend_effect : ∃ f, OneCycle cl p w .qsend f ∧
    (queueReserved w false true true true = true → qNum w < 2 → ∀ x (c : Core) v, c.qops = [] → c.lmErr = [] →
      qAddr c w + 64 * qCount c w ≤ 0xC000 →
      f x (c.ready v) = .ok ((x.modCore p fun _ => c.ready v).coreSend p (qNum w)
        (markLast (qLast w) (itemsOf (Memory.read c.lm (qAddr c w) (64 * qCount c w))))) .seq) := by
  refine ⟨_, ⟨_, fun _ => rfl⟩, fun hw hnum x c v hq he ha => ?_⟩
  have hlocal : localOk (qAddr (c.ready v) w) (qCount (c.ready v) w) = true := by
    rw [localOk, Bool.or_eq_true, decide_eq_true_eq, decide_eq_true_eq]; exact .inr ha
  simp only [hw, hlocal, Nat.not_le.2 hnum, Bool.not_true, decide_false, Bool.or_self, Bool.false_eq_true, if_false]
  exact getBytes_lm x p _ ha (c := c.ready v) hq he

theorem qpushS_effect : ∃ f, OneCycle cl p w .qpushS f ∧
    (queueReserved w true false false true = true → qNum w < 2 → ∀ x (c : Core) v,
      f x (c.ready v) = .ok ((x.modCore p fun _ => c.ready v).coreSend p (qNum w)
        [{ data := (c.sreg (qReg w)).setWidth 512, last := qLast w }]) .seq) := by
  refine ⟨_, ⟨_, fun _ => rfl⟩, fun hw hnum x c v => ?_⟩
  simp only [hw, Nat.not_le.2 hnum, Bool.not_true, decide_false, Bool.or_self, Bool.false_eq_true, if_false]
  rfl

end Effects

/-- The cycles of a core that pass change nothing of what a send keeps. -/
theorem Core.sendsAs_cycles (c : Core) (n : Nat) (work : W) (pend : List Pend) (acted port : Bool) :
    ({ c with work, occ := n, pend := pend, acted, portUse := port } : Core).SendsAs c :=
  ⟨⟨rfl, rfl, rfl⟩, rfl, rfl, rfl, rfl⟩

theorem Core.sendsAs_ready (c : Core) (v : Use) : (c.ready v).SendsAs c := Core.sendsAs_cycles c ..

theorem Core.sendsAs_occupy (c : Core) (v : Use) (n : Nat) : ((c.settled v).occupy n).SendsAs c := Core.sendsAs_cycles c ..

/-- Whole lines make as many items. -/
theorem length_itemsOf {bs : List Byte} {n : Nat} (h : bs.length = 64 * n) : (itemsOf bs).length = n := by
  rw [itemsOf, List.length_map, List.length_range, h]
  omega

theorem length_markLast (last : Bool) (l : List Item) : (markLast last l).length = l.length := by
  rw [← l.length_reverse, markLast]
  split <;> simp_all

end Sys2Proof.Machine
end

section
/-! O11: the input queues of a core: QPOP.S and QRECV (R134 to R136), and the obligation. -/

namespace Sys2Proof.Machine

open Sys2Proof

/-! ### QPOP.S -/

theorem qpopS_effect (cl p : Nat) (w : BitVec 56) : ∃ f,
    (∀ s, exec (.qpopS cl p w) s = s.run fun c => coreInstr .qpopS cl p w c 1 f) ∧
    (queueReserved w true false false false = true → ∀ x (c : Core) v i is, c.qops = [] →
      x.weave.iq (x.coreQueue p (qNum w)) = i :: is → i.bad = false →
      f x (c.ready v) = okCore { x with weave := x.weave.take (x.coreQueue p (qNum w)) 1 } p
        ((c.ready v).setS (qReg w) (i.data.setWidth 32))) := by
  refine ⟨_, fun _ => rfl, fun hw x c v i is hq hitems hbad => ?_⟩
  have hbusy : (c.ready v).queueBusy (qNum w) = false := by
    have hq' : (c.ready v).qops = [] := hq
    rw [Core.queueBusy, hq']; rfl
  simp only [hw, hbusy, hitems, hbad, Bool.not_true, Bool.false_eq_true, if_false]

theorem Core.inPlace_setS (c : Core) (i : Nat) (v : W32) : (c.setS i v).InPlace c := by
  unfold Core.setS
  split <;> exact ⟨rfl, rfl, rfl⟩

/-- One item that has arrived goes to a register. -/
theorem qpopS_runs {s : State} {cl p : Nat} {w : BitVec 56} {i : Item} {is : List Item} (hi : Issues s.toChip cl p)
    (hn : Follows (fetched s.toChip cl p)) (hq : (s.core cl p).qops = [])
    (hw : queueReserved w true false false false = true)
    (hitems : (s.cl cl).weave.iq ((s.cl cl).coreQueue p (qNum w)) = i :: is) (hbad : i.bad = false) :
    Runs cl p (.qpopS cl p w) s fun t =>
      t.core cl p = moved ((entered s.toChip cl p).setS (qReg w) (i.data.setWidth 32)) 1 ∧
      (t.cl cl).weave.iq ((s.cl cl).coreQueue p (qNum w)) = is ∧ OtherClusters s t cl := by
  obtain ⟨f, hexec, heff⟩ := qpopS_effect cl p w
  have htakes := takesEffect_coreInstr hi (hexec s) rfl
    (heff hw (atIssue s.toChip cl p) (fetched s.toChip cl p) {} i is hq hitems hbad)
  generalize he : ((fetched s.toChip cl p).ready {}).setS (qReg w) (i.data.setWidth 32) = e at htakes
  have hplace : e.InPlace ((fetched s.toChip cl p).ready {}) := he ▸ Core.inPlace_setS ..
  obtain ⟨hstat, hloops, hpc⟩ : e.InPlace (fetched s.toChip cl p) := hplace
  intro hf
  obtain ⟨t, ht, hleaves⟩ := htakes.runs hi (by rw [Cluster.core_modCore, if_pos rfl]; exact hstat) .seq
    (Int.natCast_nonneg _) (by unfold Follows at hn; omega) hf
  obtain ⟨hcore, -, hcluster, hclusters, -⟩ := hleaves
  rw [Cluster.core_modCore, if_pos rfl, Core.went_seq hloops hpc] at hcore
  have hqueue : (t.cl cl).weave.iq ((s.cl cl).coreQueue p (qNum w)) =
      ((s.cl cl).weave.take ((s.cl cl).coreQueue p (qNum w)) 1).iq ((s.cl cl).coreQueue p (qNum w)) :=
    congrArg (fun x : Cluster => x.weave.iq ((s.cl cl).coreQueue p (qNum w))) hcluster
  exact ⟨t, ht, by rw [hcore, ← he]; rfl, by rw [hqueue, Weave.iq_take_same, hitems]; rfl, hclusters⟩

/-! ### QRECV -/

/-- The core whose QRECV of `n` items has begun. -/
def Core.recvBegun (c : Core) (w : BitVec 56) (v : Use) : Core :=
  { c.ready v with qops := if qCount c w = 0 then [] else [.recv (qNum w) (qAddr c w) (qCount c w)] }

section Went

variable (e : Core) (cyc : Nat) (v : Use) (ls : List LoopLevel) (a : Int)

theorem Core.lm_went : (e.went cyc v ls a).lm = e.lm := rfl
theorem Core.run_went : (e.went cyc v ls a).run = e.run := rfl
theorem Core.qops_went : (e.went cyc v ls a).qops = e.qops := rfl

end Went

section RecvBegun

variable (c : Core) (w : BitVec 56) (v : Use)

theorem Core.fstat_recvBegun : (c.recvBegun w v).fstat = c.fstat := rfl
theorem Core.lm_recvBegun : (c.recvBegun w v).lm = c.lm := rfl
theorem Core.run_recvBegun : (c.recvBegun w v).run = c.run := rfl
theorem Core.qops_recvBegun : (c.recvBegun w v).qops =
    if qCount c w = 0 then [] else [.recv (qNum w) (qAddr c w) (qCount c w)] := rfl

end RecvBegun

theorem qrecv_effect (cl p : Nat) (w : BitVec 56) : ∃ f u, (∀ s, exec (.qrecv cl p w) s = s.run fun c =>
      onUnit (cl < 4032 && p < 136) ((c.issue (.qrecv cl p w) cl p 1 f u).pumpCore cl p)) ∧
    (queueReserved w false true true false = true → ∀ x (c : Core) v, c.qops = [] →
      qAddr c w + 64 * qCount c w ≤ 0xC000 → f x (c.ready v) = okCore x p (c.recvBegun w v)) := by
  refine ⟨_, _, fun _ => rfl, fun hw x c v hq ha => ?_⟩
  have hcount : qCount (c.ready v) w = qCount c w := rfl
  have haddr : qAddr (c.ready v) w = qAddr c w := rfl
  have hq' : (c.ready v).qops = [] := hq
  have hlocal : localOk (qAddr c w) (qCount c w) = true := by
    rw [localOk, Bool.or_eq_true, decide_eq_true_eq, decide_eq_true_eq]; exact .inr ha
  simp only [hw, hcount, haddr, hlocal, Bool.not_true, Bool.false_eq_true, if_false]
  split_ifs with hn
  · rw [Core.recvBegun, if_pos hn, ← hq']
  · simp [Core.lmBusy, Core.srcBusy, hq', Core.recvBegun, hn]

/-- The chip after an instruction that takes effect and goes on in sequence. -/
theorem Chip.issue_eq_afterIssue {s : Chip} {cl p cyc : Nat} {i : Instr} {f : Cluster → Core → Res} {u : Cluster → Core → Use}
    {v : Use} {x : Cluster} (hi : Issues s cl p) (hg : Fetches s cl p i) (hn : Follows (fetched s cl p))
    (hu : u (atIssue s cl p) (fetched s cl p) = v) (hf : f (atIssue s cl p) (entered s cl p v) = .ok x .seq) :
    s.issue i cl p cyc f u = s.afterIssue cl p cyc v x (loopNext (fetched s cl p).loops (fetched s cl p).pc.toNat).1
      (loopNext (fetched s cl p).loops (fetched s cl p).pc.toNat).2 := by
  have hfetch := hi.fetch_reads hg
  obtain ⟨-, -, hrun, -, -⟩ := hi
  unfold atIssue at hu hf
  unfold entered at hf
  rw [← Chip.cl_modCore_same] at hu hf
  unfold Follows at hn
  have hgo : (0 : Int) ≤ ((loopNext (fetched s cl p).loops (fetched s cl p).pc.toNat).2 : Int) ∧
      ((loopNext (fetched s cl p).loops (fetched s cl p).pc.toNat).2 : Int) ≤ 0xBFF8 := by omega
  simp only [Chip.issue, Chip.issueG, hrun, hfetch, hu, hf, Chip.goTo, hgo, and_self, if_true, Bool.not_true,
    Bool.false_eq_true, if_false, ne_eq, not_true_eq_false, Chip.afterIssue, Core.fstat_issued, Chip.core_modCore_same,
    Chip.core_setCl_same]

/-- The cluster, the hold and the other clusters after an instruction that changes nothing but its core. -/
theorem Chip.afterIssue_own {s : Chip} {cl p cyc : Nat} {v : Use} {e : Core} {ls : List LoopLevel} {a : Int}
    (hs : e.fstat = (fetched s cl p).fstat) :
    let t := s.afterIssue cl p cyc v ((atIssue s cl p).modCore p fun _ => e) ls a
    t.core cl p = e.went cyc v ls a ∧ (t.cl cl).weave = (s.cl cl).weave ∧
      (∀ q, (t.cl cl).coreQueue p q = (s.cl cl).coreQueue p q) ∧ t.coreHeld cl = s.coreHeld cl ∧
      ∀ k, k ≠ cl → t.cl k = s.cl k := by
  have hx : ((atIssue s cl p).modCore p fun _ => e).core p = e := by rw [Cluster.core_modCore, if_pos rfl]
  simp only [Chip.afterIssue, hx, hs, Chip.flagErr_same]
  refine ⟨?_, ?_, fun q => ?_, ?_, fun k hk => ?_⟩
  · simp only [Chip.core_modCore_same, Chip.core_setCl_same, hx]
    rfl
  · simp only [Chip.cl_modCore_same, Chip.cl_setCl, if_true]
    rfl
  · simp only [Chip.cl_modCore_same, Chip.cl_setCl, if_true]
    rfl
  · simp only [Chip.coreHeld, Chip.cl_modCore_same, Chip.cl_setCl, if_true]
    rfl
  · simp [hk]

/-- The pump fills the one QRECV of a core, all of whose items have arrived. -/
theorem pumpOps_recv (x : Cluster) (p : Nat) (c : Core) {q a n : Nat} (hlen : n ≤ (x.weave.iq (x.coreQueue p q)).length)
    (hgood : ∀ i ∈ (x.weave.iq (x.coreQueue p q)).take n, i.bad = false) :
    pumpOps x p c [] 0 [.recv q a n] =
      ({ x with weave := x.weave.take (x.coreQueue p q) n },
       { c with
         lm := Memory.write c.lm a (((x.weave.iq (x.coreQueue p q)).take n).flatMap Item.bytes)
         lmErr := eccWipe c.lmErr (a / 8) (a / 8 + 8 * n) }, [], 0) := by
  have hitems := takeWhile_good hgood
  have hcount : ((x.weave.iq (x.coreQueue p q)).take n).length = n := List.length_take_of_le hlen
  simp only [pumpOps, List.not_mem_nil, if_false, hitems, hcount, Nat.sub_self, if_true]

/-- What a QRECV of `n` items from input queue `q` leaves: they stand at `a` in local memory, their entries are free, and no
queue instruction of the core is in progress. -/
structure Received (s t : Chip) (cl p q a n : Nat) : Prop where
  lm : (t.core cl p).lm =
    Memory.write (s.core cl p).lm a ((((s.cl cl).weave.iq ((s.cl cl).coreQueue p q)).take n).flatMap Item.bytes)
  qops : (t.core cl p).qops = []
  queue : (t.cl cl).weave.iq ((s.cl cl).coreQueue p q) = ((s.cl cl).weave.iq ((s.cl cl).coreQueue p q)).drop n
  clusters : ∀ k, k ≠ cl → t.cl k = s.cl k

/-- The pump of a core whose one queue instruction is a QRECV with all its items there. -/
theorem Chip.pumpCore_received {s : Chip} {cl p q a n : Nat} (hops : (s.core cl p).qops = [.recv q a n])
    (hrun : (s.core cl p).run = .running) (hheld : s.coreHeld cl = false)
    (hlen : n ≤ ((s.cl cl).weave.iq ((s.cl cl).coreQueue p q)).length)
    (hgood : ∀ i ∈ ((s.cl cl).weave.iq ((s.cl cl).coreQueue p q)).take n, i.bad = false) :
    Received s (s.pumpCore cl p) cl p q a n := by
  have hpump := pumpOps_recv (s.cl cl) p ((s.cl cl).core p) (a := a) hlen hgood
  rw [← (show ((s.cl cl).core p).qops = [.recv q a n] from hops)] at hpump
  have hin := Cluster.pumpIn_eq (t := s.now) hpump
  rw [if_neg (Nat.lt_irrefl 0)] at hin
  rw [Chip.pumpCore, Chip.pumpBy_eq_modCl hrun hheld (by rw [hin, Cluster.core_modCore, if_pos rfl]; rfl), Chip.modCl, hin]
  refine ⟨?_, ?_, ?_, fun k hk => by simp [hk]⟩
  · rw [Chip.core_setCl_same, Cluster.core_modCore, if_pos rfl]; rfl
  · rw [Chip.core_setCl_same, Cluster.core_modCore, if_pos rfl]; rfl
  · rw [Chip.cl_setCl, if_pos rfl]
    exact Weave.iq_take_same _ _ _

/-- The pump of a core with no queue instruction receives no item. -/
theorem Chip.pumpCore_received_none {s : Chip} {cl p q a : Nat} (hops : (s.core cl p).qops = []) :
    Received s (s.pumpCore cl p) cl p q a 0 := by
  obtain h | h := s.pumpCore_idle hops
  · rw [h]; exact ⟨rfl, hops, rfl, fun _ _ => rfl⟩
  · rw [h]
    refine ⟨?_, ?_, ?_, fun k hk => by simp [hk]⟩
    · rw [Chip.core_modCore_same]; rfl
    · rw [Chip.core_modCore_same]; rfl
    · rw [Chip.cl_modCore_same]; rfl

theorem qrecv_runs {s : State} {cl p : Nat} {w : BitVec 56} (hi : Issues s.toChip cl p)
    (hn : Follows (fetched s.toChip cl p)) (he : (s.core cl p).lmErr = []) (hq : (s.core cl p).qops = [])
    (hw : queueReserved w false true true false = true)
    (ha : qAddr (s.core cl p) w + 64 * qCount (s.core cl p) w ≤ 0xC000)
    (hlen : qCount (s.core cl p) w ≤ ((s.cl cl).weave.iq ((s.cl cl).coreQueue p (qNum w))).length)
    (hgood : ∀ i ∈ ((s.cl cl).weave.iq ((s.cl cl).coreQueue p (qNum w))).take (qCount (s.core cl p) w), i.bad = false) :
    Runs cl p (.qrecv cl p w) s fun t =>
      Received s.toChip t.toChip cl p (qNum w) (qAddr (s.core cl p) w) (qCount (s.core cl p) w) := by
  obtain ⟨f, u, hexec, heff⟩ := qrecv_effect cl p w
  have hfetched := fetched_clean he
  generalize hv : u (atIssue s.toChip cl p) (fetched s.toChip cl p) = v
  have heff := heff hw (atIssue s.toChip cl p) (s.core cl p) v hq ha
  intro hf
  have hissue := Chip.issue_eq_afterIssue (cyc := 1) hi hf hn hv (by rw [entered, hfetched]; exact heff)
  obtain ⟨hcore, hweave, hqueue, hheld, hclusters⟩ := Chip.afterIssue_own (s := s.toChip) (cl := cl) (p := p) (cyc := 1)
    (v := v) (e := (s.core cl p).recvBegun w v)
    (ls := (loopNext (fetched s.toChip cl p).loops (fetched s.toChip cl p).pc.toNat).1)
    (a := (loopNext (fetched s.toChip cl p).loops (fetched s.toChip cl p).pc.toNat).2) (by rw [hfetched, Core.fstat_recvBegun])
  rw [← hissue] at hcore hweave hqueue hheld hclusters
  refine ⟨_, exec_next_of_onUnit hi (hexec s) rfl, ?_⟩
  generalize s.toChip.issue (.qrecv cl p w) cl p 1 f u = m at *
  have hlm : (m.core cl p).lm = (s.core cl p).lm := by rw [hcore, Core.lm_went, Core.lm_recvBegun]
  have hreceived : Received m (m.pumpCore cl p) cl p (qNum w) (qAddr (s.core cl p) w) (qCount (s.core cl p) w) := by
    by_cases h0 : qCount (s.core cl p) w = 0
    · rw [h0]
      refine Chip.pumpCore_received_none ?_
      rw [hcore, Core.qops_went, Core.qops_recvBegun, if_pos h0]
    · have hissues := hi
      obtain ⟨-, -, hcan, -, -⟩ := hissues
      simp only [Chip.canIssue, Bool.and_eq_true, decide_eq_true_eq, Bool.not_eq_true'] at hcan
      obtain ⟨⟨⟨-, hrun⟩, hopen⟩, -⟩ := hcan
      refine Chip.pumpCore_received ?_ ?_ ?_ ?_ ?_
      · rw [hcore, Core.qops_went, Core.qops_recvBegun, if_neg h0]
      · rw [hcore, Core.run_went, Core.run_recvBegun, hrun]
      · rw [hheld]; exact hopen
      · rw [hweave, hqueue]; exact hlen
      · rw [hweave, hqueue]; exact hgood
  obtain ⟨h1, h2, h3, h4⟩ := hreceived
  rw [hlm, hweave, hqueue] at h1
  rw [hweave, hqueue] at h3
  exact ⟨h1, h2, h3, fun k hk => (h4 k hk).trans (hclusters k hk)⟩

/-! ### The obligation -/

/-- Settles O11, from the effect of each instruction: what it sends enters its queue, what it takes leaves it. -/
theorem coreQueueTransfers : Obligations.CoreQueueTransfers := by
  unfold Obligations.CoreQueueTransfers
  refine ⟨fun s cl p w hi hn he hae hq hback => ?_, fun s cl p w hi hn he hq => ?_⟩
  · intro c x sent
    have hsent {q : Nat} {items : List Item} (t : State) (h : QueueSent s t cl p q items) : sent q items t :=
      ⟨h.queue, h.others, h.lm, h.acc, h.sregs, h.clusters⟩
    refine ⟨fun hw hr => ?_, fun hw hnum ha hroom => ?_, fun hw hnum hroom => ?_⟩
    · intro q items hroom
      obtain ⟨f, hf, heff⟩ := accSend_effect cl p w
      exact (sends_runs hf hi hn he hback (Nat.mod_lt _ (by decide)) hroom fun v x =>
        ⟨_, Core.sendsAs_occupy .., heff hw x c v hq hae hr⟩).imp hsent
    · obtain ⟨f, hf, heff⟩ := qsend_effect cl p w
      refine (sends_runs hf hi hn he hback hnum ?_ fun v x =>
        ⟨_, Core.sendsAs_ready .., heff hw hnum x c v hq he ha⟩).imp hsent
      rw [length_markLast, length_itemsOf (Memory.length_read _ _ _)]
      exact hroom
    · obtain ⟨f, hf, heff⟩ := qpushS_effect cl p w
      exact (sends_runs hf hi hn he hback hnum (by rw [List.length_singleton]; exact hroom) fun v x =>
        ⟨_, Core.sendsAs_ready .., heff hw hnum x c v⟩).imp hsent
  · intro c qa items
    refine ⟨fun hw ha hlen hgood => ?_, fun hw i is hitems hbad => qpopS_runs hi hn hq hw hitems hbad⟩
    refine (qrecv_runs hi hn he hq hw ha hlen hgood).imp fun t ⟨hlm, hops, hqueue, hclusters⟩ => ?_
    have hbytes : ((items.take (qCount c w)).flatMap Item.bytes).length = 64 * qCount c w := by
      rw [length_flatMap_of_length (g := Item.bytes) fun _ => length_leBytes _ _, List.length_take_of_le hlen]
    refine ⟨?_, fun b hb => ?_, hqueue, hops, hclusters⟩
    · rw [hlm, ← hbytes]; exact Memory.read_write_same _ _ _
    · rw [hlm]; exact Memory.readByte_write_out _ _ _ _ (by rw [hbytes]; exact hb)

end Sys2Proof.Machine
end

section
/-! O18: weave contexts: WV_CTX_CMD, FREEZE, WV_CTX_DATA and the switch at an ended context (R150, R153, R154, R156,
R158). -/

namespace Sys2Proof.Machine

open Sys2Proof

/-! ### WV_CTX_CMD -/

section Commands

variable {s : State} {cl : Nat} {v : BitVec 64} (hcl : cl < 4032) (h : Reaches s.toChip (.weave cl))

include hcl h

theorem ctxArm_starts (h8 : bit v 8 = true) (h9 : bit v 9 = false) (h10 : bit v 10 = false)
    (hact : (s.cl cl).weave.active ≠ some (fld v 0 2)) : Completes (.ctxArm cl v) s fun t =>
      (t.page (.weave cl)).check = some (.ctxArm (fld v 0 2)) ∧ (t.cl cl).weave = (s.cl cl).weave ∧
        OtherClusters s t cl := by
  have hcmd (u : Chip) (hu : u.cl cl = s.cl cl) : u.ctxCmdWrite cl v =
      u.modPage (.weave cl) fun p => { p with check := some (.ctxArm (fld v 0 2)) } := by
    simp [Chip.ctxCmdWrite, h8, h9, h10, hu, hact]
  refine ⟨_, (State.run_cmdWrite (clOk_of_lt hcl) h (congrArg _ (if_pos h8)) : execCtxArm cl v s = _), ?_⟩
  rw [hcmd _ (Chip.cl_countAccess ..)]
  obtain ⟨hweave, hclusters⟩ := Chip.modPage_weave (s.toChip.countAccess (.weave cl) true) cl
    fun p => { p with check := some (.ctxArm (fld v 0 2)) }
  refine ⟨by rw [Chip.page_modPage_same _ _ _ (weaveOk hcl)], by rw [hweave, Chip.cl_countAccess], fun k hk => ?_⟩
  rw [hclusters k hk, Chip.cl_countAccess]

/-- ARM of the active context of a weave that is not frozen (R154). -/
theorem ctxArm_refused (h8 : bit v 8 = true) (h9 : bit v 9 = false) (h10 : bit v 10 = false)
    (hact : (s.cl cl).weave.active = some (fld v 0 2)) (hfreeze : (s.page (.weave cl)).freeze = false) :
    Completes (.ctxArm cl v) s fun t =>
      (t.page (.weave cl)).refused = true ∧ fld (t.page (.weave cl)).refusal 0 16 = 0x0204 ∧
        (t.cl cl).weave = (s.cl cl).weave := by
  have hfreeze' : (s.cl cl).weavePage.freeze = false := hfreeze
  have hcmd (u : Chip) (hu : u.cl cl = s.cl cl) : u.ctxCmdWrite cl v = u.refuse (.weave cl) 0x0204 Off.WV_CTX_CMD := by
    simp [Chip.ctxCmdWrite, h8, h9, h10, hu, hact, hfreeze']
  refine ⟨_, (State.run_cmdWrite (clOk_of_lt hcl) h (congrArg _ (if_pos h8)) : execCtxArm cl v s = _), ?_⟩
  rw [hcmd _ (Chip.cl_countAccess ..)]
  have hcode : fld (refusalWord 0x0204 Off.WV_CTX_CMD 0) 0 16 = 0x0204 := by decide
  have hpage := Chip.page_refuse (s.toChip.countAccess (.weave cl) true) _ 0x0204 Off.WV_CTX_CMD 0 (weaveOk hcl)
  refine ⟨by rw [hpage], by rw [hpage, hcode], ?_⟩
  rw [Chip.refuse, (Chip.modPage_weave _ cl _).1, Chip.cl_countAccess]

theorem ctxInvalidate_invalidates (h8 : bit v 8 = false) (h9 : bit v 9 = true) (h10 : bit v 10 = false)
    (hact : (s.cl cl).weave.active ≠ some (fld v 0 2)) : Completes (.ctxInvalidate cl v) s fun t =>
      (t.cl cl).weave = { (s.cl cl).weave with valid := (s.cl cl).weave.valid.set (fld v 0 2) false } ∧
        OtherClusters s t cl := by
  have hcmd (u : Chip) (hu : u.cl cl = s.cl cl) : u.ctxCmdWrite cl v =
      u.modWeave cl fun w => { w with valid := w.valid.set (fld v 0 2) false } := by
    simp [Chip.ctxCmdWrite, h8, h9, h10, hu, hact, Chip.modWeave]
  refine ⟨_, (State.run_cmdWrite (clOk_of_lt hcl) h (congrArg _ (if_pos h9)) : execCtxInvalidate cl v s = _), ?_⟩
  rw [hcmd _ (Chip.cl_countAccess ..)]
  exact ⟨by simp, fun k hk => by simp [hk]⟩

/-- SWITCH of an idle weave that is not frozen, to a valid context (R154). -/
theorem ctxSwitch_activates (h8 : bit v 8 = false) (h9 : bit v 9 = false) (h10 : bit v 10 = true)
    (hact : (s.cl cl).weave.active = none) (hvalid : (s.cl cl).weave.valid.getD (fld v 0 2) false = true)
    (hfreeze : (s.page (.weave cl)).freeze = false) : Completes (.ctxSwitch cl v) s fun t =>
      (t.cl cl).weave.active = some (fld v 0 2) ∧ (t.cl cl).weave.inq = (s.cl cl).weave.inq ∧
        (t.cl cl).weave.outq = (s.cl cl).weave.outq ∧ OtherClusters s t cl := by
  have hfreeze' : (s.cl cl).weavePage.freeze = false := hfreeze
  have hcmd (u : Chip) (hu : u.cl cl = s.cl cl) : u.ctxCmdWrite cl v = u.modCl cl fun x => x.activate (fld v 0 2) := by
    simp only [Chip.ctxCmdWrite, h8, h9, h10, hu, hact, hvalid, hfreeze']
    rfl
  refine ⟨_, (State.run_cmdWrite (clOk_of_lt hcl) h (congrArg _ (if_pos h10)) : execCtxSwitch cl v s = _), ?_⟩
  rw [hcmd _ (Chip.cl_countAccess ..)]
  exact ⟨by simp [Cluster.activate], by simp [Cluster.activate], by simp [Cluster.activate], fun k hk => by simp [hk]⟩

end Commands

/-! ### FREEZE -/

section Freeze

variable {s : Chip} {cl : Nat} {w : Weave}

/-- The weave of cluster `cl` is `w`, its page frozen. -/
def Chip.Frozen (s : Chip) (cl : Nat) (w : Weave) : Prop := (s.page (.weave cl)).freeze = true ∧ (s.cl cl).weave = w

theorem Chip.Frozen.modPage (h : s.Frozen cl w) (hcl : cl < 4032) {f : Page → Page} (hf : ∀ p, (f p).freeze = p.freeze) :
    (s.modPage (.weave cl) f).Frozen cl w := by
  obtain ⟨hfreeze, hweave⟩ := h
  exact ⟨by rw [Chip.page_modPage_same _ _ _ (weaveOk hcl), hf, hfreeze], by rw [(Chip.modPage_weave s cl f).1, hweave]⟩

theorem Chip.frozen_modPage (s : Chip) (hcl : cl < 4032) :
    (s.modPage (.weave cl) fun p => { p with freeze := true }).Frozen cl (s.cl cl).weave :=
  ⟨by rw [Chip.page_modPage_same _ _ _ (weaveOk hcl)], (Chip.modPage_weave s cl _).1⟩

/-- CTRL with FREEZE, the enable `e` as it stands. -/
theorem bits_ctrlFreeze (e : Bool) :
    let v := BitVec.ofNat 64 (b2n e + 4)
    bit v 1 = false ∧ bit v 2 = true ∧ bit v 0 = e := by
  cases e <;> decide

theorem Chip.ctrlWrite_freeze (s : Chip) (hcl : cl < 4032) :
    (s.ctrlWrite (.weave cl) (s.ctrlNow (.weave cl) none (some true))).Frozen cl (s.cl cl).weave := by
  have hfrozen := s.frozen_modPage hcl
  obtain ⟨h1, h2, h0⟩ := bits_ctrlFreeze (s.page (.weave cl)).enable
  have hctrl : s.ctrlNow (.weave cl) none (some true) = BitVec.ofNat 64 (b2n (s.page (.weave cl)).enable + 4) := rfl
  simp only [hctrl, Chip.ctrlWrite, PageRef.block, h0, h1, h2, Bool.false_eq_true, if_false, if_true]
  split_ifs
  · exact hfrozen
  · exact hfrozen.modPage hcl fun _ => rfl
  · exact hfrozen.modPage hcl fun _ => rfl

end Freeze

theorem weaveFreeze_freezes {s : State} {cl : Nat} (hcl : cl < 4032) (h : Reaches s.toChip (.weave cl)) :
    Completes (.weaveFreeze cl) s fun t => (t.page (.weave cl)).freeze = true ∧ (t.cl cl).weave = (s.cl cl).weave := by
  have hfrozen := (s.toChip.countAccess (.weave cl) true).ctrlWrite_freeze hcl
  rw [Chip.cl_countAccess] at hfrozen
  exact ⟨_, (State.run_cmdWrite (clOk_of_lt hcl) h rfl : execWeaveFreeze cl s = _), hfrozen⟩

/-! ### WV_CTX_DATA -/

section Data

variable (s : Chip) (cl : Nat)

/-- The context that WV_CTX_ADDR names. -/
def Chip.ctxAt : Nat := fld (s.reg (.weave cl) Off.WV_CTX_ADDR) 0 2

/-- The word of its image that WV_CTX_ADDR names. -/
def Chip.ctxWordAt : Nat := fld (s.reg (.weave cl) Off.WV_CTX_ADDR) 8 9

/-- WV_CTX_ADDR names the next word. -/
def Chip.ctxPast : Chip :=
  s.setReg (.weave cl) Off.WV_CTX_ADDR (putFld (s.reg (.weave cl) Off.WV_CTX_ADDR) 8 9 ((s.ctxWordAt cl + 1) % 512))

theorem Chip.ctxAt_countAccess (write : Bool) : (s.countAccess (.weave cl) write).ctxAt cl = s.ctxAt cl := by
  simp [Chip.ctxAt, Chip.reg, Chip.page]

theorem Chip.ctxWordAt_countAccess (write : Bool) : (s.countAccess (.weave cl) write).ctxWordAt cl = s.ctxWordAt cl := by
  simp [Chip.ctxWordAt, Chip.reg, Chip.page]

theorem Chip.weave_ctxPast : ((s.ctxPast cl).cl cl).weave = (s.cl cl).weave := (Chip.modPage_weave ..).1

theorem Chip.cl_ctxPast_other {k : Nat} (hk : k ≠ cl) : (s.ctxPast cl).cl k = s.cl k := (Chip.modPage_weave ..).2 k hk

theorem Chip.out_ctxPast : (s.ctxPast cl).out = s.out := Chip.out_modPage ..

/-- The word read, where no error stands in the images to correct (R165). -/
theorem Chip.ctxData_none (herr : (s.cl cl).weave.imgErr = []) :
    s.ctxData cl none = (BitVec.ofNat 64 ((s.cl cl).weave.img (s.ctxAt cl) (8 * s.ctxWordAt cl) 8),
      (s.ctxPast cl).modWeave cl fun w => { w with imgErr := [] }) := by
  have herr' : ((s.ctxPast cl).cl cl).weave.imgErr = [] := by rw [Chip.weave_ctxPast, herr]
  have hscan : (s.ctxPast cl).ctxScan cl (s.ctxAt cl) (s.ctxWordAt cl) (s.ctxWordAt cl + 1) =
      ((s.ctxPast cl).modWeave cl fun w => { w with imgErr := [] }, false) := by
    simp only [Chip.ctxScan, herr', eccScan_nil, eccFix_nil]
    rfl
  have hdata : s.ctxData cl none =
      let r := (s.ctxPast cl).ctxScan cl (s.ctxAt cl) (s.ctxWordAt cl) (s.ctxWordAt cl + 1)
      if r.2 then r.1.draw else (BitVec.ofNat 64 ((r.1.cl cl).weave.img (s.ctxAt cl) (8 * s.ctxWordAt cl) 8), r.1) := rfl
  rw [hdata, hscan]
  simp [Weave.img, Chip.weave_ctxPast]

theorem Chip.ctxData_some (v : W) : (s.ctxData cl (some v)).2 =
    (s.ctxPast cl).modCl cl fun x => x.ctxWrite (s.ctxAt cl) (s.ctxWordAt cl) v := rfl

end Data

section Written

variable (w : Weave) (ctx word : Nat) (v : W)

/-- The weave after a write of one word of image `ctx`: a valid image drops it (R153). -/
def Weave.ctxWritten : Weave :=
  if w.valid.getD ctx false then { w with writeDrop := true }
  else { w with
    images := Memory.writeNat w.images (4096 * ctx + 8 * word) 8 v.toNat
    imgErr := eccWipe w.imgErr (512 * ctx + word) (512 * ctx + word + 1) }

theorem Cluster.weave_ctxWrite (x : Cluster) : (x.ctxWrite ctx word v).weave = x.weave.ctxWritten ctx word v := by
  unfold Cluster.ctxWrite Weave.ctxWritten
  split <;> rfl

variable {w ctx}

/-- The word written reads back. -/
theorem Weave.img_ctxWritten (hvalid : w.valid.getD ctx false = false) :
    (w.ctxWritten ctx word v).img ctx (8 * word) 8 = v.toNat := by
  rw [Weave.ctxWritten, hvalid]
  exact Memory.readNat_write_leBytes _ _ _

theorem Weave.images_ctxWritten_out (hvalid : w.valid.getD ctx false = false) {b : Nat}
    (hb : b < 4096 * ctx + 8 * word ∨ 4096 * ctx + 8 * word + 8 ≤ b) :
    Memory.readByte (w.ctxWritten ctx word v).images b = Memory.readByte w.images b := by
  rw [Weave.ctxWritten, hvalid]
  exact Memory.readByte_write_out _ _ _ _ (by rw [length_leBytes]; exact hb)

theorem Weave.ctxWritten_valid (hvalid : w.valid.getD ctx false = true) :
    w.ctxWritten ctx word v = { w with writeDrop := true } := if_pos hvalid

end Written

section DataAccess

variable {s : State} {cl : Nat} (hcl : cl < 4032) (h : Reaches s.toChip (.weave cl))

include hcl h

theorem ctxDataAccess_reads (herr : (s.cl cl).weave.imgErr = []) : Completes (.ctxDataAccess cl none) s fun t =>
    t.out = s.out ++ [.readData (BitVec.ofNat 64 ((s.cl cl).weave.img (s.toChip.ctxAt cl) (8 * s.toChip.ctxWordAt cl) 8))] ∧
      (t.cl cl).weave = (s.cl cl).weave := by
  have hclean (u : Chip) (hu : (u.cl cl).weave = (s.cl cl).weave) :
      ((u.modWeave cl fun w => { w with imgErr := [] }).cl cl).weave = (s.cl cl).weave := by
    rw [Chip.cl_modWeave, if_pos rfl, hu, ← herr]
  have hread := (s.toChip.countAccess (.weave cl) false).ctxData_none cl (by rw [Chip.cl_countAccess, herr])
  rw [Chip.cl_countAccess, Chip.ctxAt_countAccess, Chip.ctxWordAt_countAccess] at hread
  refine ⟨_, (State.run_onUnit (clOk_of_lt hcl) (congrArg _ (Chip.portAccess_read h _ _)) :
    execCtxDataAccess cl none s = _), ?_⟩
  rw [hread]
  refine ⟨by simp [Chip.modWeave, Chip.out_ctxPast], hclean _ ?_⟩
  rw [Chip.weave_ctxPast, Chip.cl_countAccess]

theorem ctxDataAccess_writes (v : W) : Completes (.ctxDataAccess cl (some v)) s fun t =>
    (t.cl cl).weave = (s.cl cl).weave.ctxWritten (s.toChip.ctxAt cl) (s.toChip.ctxWordAt cl) v ∧ OtherClusters s t cl := by
  refine ⟨_, (State.run_onUnit (clOk_of_lt hcl) (congrArg _ (Chip.portAccess_write h _ _ _)) :
    execCtxDataAccess cl (some v) s = _), ?_⟩
  rw [Chip.ctxData_some, Chip.ctxAt_countAccess, Chip.ctxWordAt_countAccess]
  refine ⟨?_, fun k hk => ?_⟩
  · simp [Cluster.weave_ctxWrite, Chip.weave_ctxPast]
  · simp [hk, Chip.cl_ctxPast_other]

end DataAccess

/-! ### The end of a context -/

section End

variable {s : State} {cl ctx : Nat} (hcl : cl < 4032) (hruns : s.weaveRuns cl = true) (hact : (s.cl cl).weave.active = some ctx)
  (hend : (s.cl cl).weave.ended ctx = true)

include hcl hruns hact hend

/-- An ended context switches once its streams are done, its SLACK ports empty and NEXT valid. -/
theorem exec_contextEndSwitch :
    let next := (s.cl cl).weave.img ctx 8 1 % 4
    exec (.contextEndSwitch cl) s = .next (
      if (List.range 8).all (fun sp => (s.cl cl).weave.spDone ctx sp) && (s.cl cl).weave.valid.getD next false then
        { s with toChip := s.toChip.modCl cl fun x => x.activate next }
      else s) := by
  refine (State.run_onUnit (b := decide (cl < 4032)) (by simp [hcl]) rfl : execContextEndSwitch cl s = _).trans ?_
  simp only [hruns, hact, hend, Bool.not_true, Bool.false_eq_true, if_false]
  split_ifs <;> rfl

end End

/-- Settles O18, from the commands, the data port and the switch. -/
theorem weaveContexts : Obligations.WeaveContexts := by
  unfold Obligations.WeaveContexts
  refine ⟨fun s cl v hcl h => ?_, fun s cl v hcl h => ?_, fun s cl ctx hcl hruns => ?_⟩
  · exact ⟨ctxArm_starts hcl h, ctxArm_refused hcl h, ctxInvalidate_invalidates hcl h, ctxSwitch_activates hcl h,
      weaveFreeze_freezes hcl h⟩
  · intro w i n
    obtain ⟨t, ht, hweave, hclusters⟩ := ctxDataAccess_writes hcl h v
    refine ⟨ctxDataAccess_reads hcl h, fun hvalid => ⟨t, ht, ?_, fun b hb => ?_, hclusters⟩, fun hvalid => ⟨t, ht, ?_⟩⟩
    · rw [hweave]; exact Weave.img_ctxWritten n v hvalid
    · rw [hweave]; exact Weave.images_ctxWritten_out n v hvalid hb
    · have hdropped := hweave.trans (Weave.ctxWritten_valid n v hvalid)
      exact ⟨by rw [hdropped], by rw [hdropped]⟩
  · intro w hact hend next
    have hexec := exec_contextEndSwitch hcl hruns hact hend
    refine ⟨fun hdone hvalid => ⟨_, hexec.trans (congrArg _ (if_pos (Bool.and_eq_true_iff.2 ⟨hdone, hvalid⟩))), ?_⟩,
      fun hpending => ⟨_, hexec.trans (congrArg _ (if_neg fun hall => hpending (Bool.and_eq_true_iff.1 hall))), rfl, ?_⟩⟩
    · exact ⟨by simp [Cluster.activate, next, w], by simp [Cluster.activate, w], by simp [Cluster.activate, w],
        by simp [Cluster.activate, w], by simp [Cluster.activate], fun k hk => by simp [hk]⟩
    · rw [Weave.endPending, hact]
      exact hend

end Sys2Proof.Machine
end

section
/-! O19: items from output to input queues, the steering units and the special-function units (R131, R132, R145 to
R148, R193). -/

namespace Sys2Proof.Machine

open Sys2Proof

/-! ### An item between units that are neither cores, mesh ports nor steering units -/

/-- Queue address `qa` names a queue of a special-function unit or of a store port. -/
def ofSfuOrPort (qa : Nat) : Prop := 512 ≤ qa ∧ qa < 4 * 0x1C0

/-- Such a unit takes an item in at the end of its queue. -/
theorem Cluster.arriveItem_sfuOrPort (x : Cluster) (ctx : Nat) {d : Nat} (i : Item) (hd : ofSfuOrPort d) :
    x.arriveItem ctx d i = { x with weave := x.weave.setIq d (x.weave.iq d ++ [i]) } := by
  obtain ⟨hlo, hhi⟩ := hd
  have hsteer : ¬ (0x200 ≤ d / 4 ∧ 1 ≤ d % 4) := by omega
  have hmesh : ¬ (0x1C0 ≤ d / 4 ∧ d / 4 < 0x1C4) := by omega
  simp only [Cluster.arriveItem, hsteer, hmesh, if_false]

/-- No core waits for such a queue. -/
theorem Chip.wakeQueue_sfuOrPort (s : Chip) (cl ctx : Nat) {qa : Nat} (hq : ofSfuOrPort qa) : s.wakeQueue cl ctx qa = s := by
  obtain ⟨hlo, hhi⟩ := hq
  exact if_neg (by omega)

/-- Item `i`, before which `rest` waits in output queue `qa`, goes to input queue `d` alone, both queues of such units. -/
structure Weave.Routes (w : Weave) (ctx qa d : Nat) (i : Item) (rest : List Item) : Prop where
  source : ofSfuOrPort qa
  target : ofSfuOrPort d
  route : ∃ r, routeIndex qa = some r ∧ w.dests ctx r = [d]
  queue : w.oq qa = i :: rest
  good : i.bad = false

/-- The cluster once the item is the last of its destination. -/
def Cluster.itemMoved (x : Cluster) (qa d : Nat) (i : Item) (rest : List Item) : Cluster :=
  { x with
    weave := ((x.weave.setOq qa rest).unwait (qa / 4)).setIq d (x.weave.iq d ++ [i])
    weavePage := x.weavePage.modReg .weave Off.WV_ITEMS (· + 1#64) }

section Send

variable {s : State} {cl ctx qa d : Nat} {i : Item} {rest : List Item} (h : WeaveActs s.toChip cl ctx)
  (hr : (s.cl cl).weave.Routes ctx qa d i rest)

include h hr

/-- The item is sent where its destination has a free entry. -/
theorem exec_weaveItemSend (hroom : ((s.cl cl).weave.iq d).length < 8) :
    exec (.weaveItemSend cl qa) s = .next { s with toChip := s.toChip.modCl cl fun x => x.itemMoved qa d i rest } := by
  obtain ⟨hqa, hd, ⟨r, hindex, hdest⟩, hoq, hi⟩ := hr
  have hok : (decide (cl < 4032) && decide (qa < 4096)) = true := by
    obtain ⟨-, hhi⟩ := hqa; simp [h.cl_lt]; omega
  have hcore : ¬ qa / 4 < 128 := by obtain ⟨hlo, -⟩ := hqa; omega
  have hmesh : ∀ {q}, ofSfuOrPort q → ¬ (0x1C0 ≤ q / 4 ∧ q / 4 < 0x1C4) := fun ⟨_, hhi⟩ => by omega
  refine h.exec_eq (rfl : execWeaveItemSend cl qa s = _) hok (by simp [hoq, hi]) ?_
  simp [hindex, hoq, hdest, queueDepth, Nat.not_le.2 hroom, hcore, hmesh hqa, hmesh hd, Cluster.arriveItem_sfuOrPort _ _ _ hd,
    Chip.wakeQueue_sfuOrPort _ _ _ hd, Chip.wakeQueue_sfuOrPort _ _ _ hqa]
  rfl

/-- A full destination holds the item. -/
theorem exec_weaveItemSend_full (hfull : 8 ≤ ((s.cl cl).weave.iq d).length) :
    exec (.weaveItemSend cl qa) s = .next s := by
  obtain ⟨⟨-, hhi⟩, -, ⟨r, hindex, hdest⟩, hoq, hi⟩ := hr
  have hok : (decide (cl < 4032) && decide (qa < 4096)) = true := by simp [h.cl_lt]; omega
  refine h.exec_eq (t := s.toChip) (rfl : execWeaveItemSend cl qa s = _) hok (by simp [hoq, hi]) ?_
  simp [hindex, hoq, hdest, queueDepth, hfull]

theorem weaveItemSend_completes (hroom : ((s.cl cl).weave.iq d).length < 8) :
    let w := (s.cl cl).weave
    Completes (.weaveItemSend cl qa) s fun t =>
      (t.cl cl).weave.oq qa = rest ∧ (t.cl cl).weave.iq d = w.iq d ++ [i] ∧
      (∀ q, q ≠ d → (t.cl cl).weave.iq q = w.iq q) ∧ (∀ q, q ≠ qa → (t.cl cl).weave.oq q = w.oq q) ∧
      OtherClusters s t cl := by
  intro w
  refine ⟨_, exec_weaveItemSend h hr hroom, ?_, ?_, fun q hq => ?_, fun q hq => ?_, otherClusters_setCl s cl _⟩
  all_goals simp only [Chip.cl_modCl, if_true, Cluster.itemMoved, w]
  · simp
  · simp
  · simp [hq]
  · simp [hq]

end Send

/-! ### Steering units -/

/-- Steering unit `n` is on and holds the token `tok` before `ts`, and on the side that it selects `i` before `is`; it
has room for the item and for a debt (R146, R147). -/
structure Weave.Steers (w : Weave) (ctx n : Nat) (tok i : Item) (ts is : List Item) : Prop where
  unit : n < 32
  on : w.img ctx (3168 + 4 * n) 1 = 1
  token : w.iq (4 * (0x200 + n)) = tok :: ts
  item : w.iq (4 * (0x200 + n) + 1 + tok.data.toNat % 2) = i :: is
  room : (w.oq (4 * (0x200 + n))).length < 8
  debt : SMap.get 0 w.debts (2 * n + (1 - tok.data.toNat % 2)) < 255
  good : tok.bad = false ∧ i.bad = false ∧ headBad (w.iq (4 * (0x200 + n) + 2 - tok.data.toNat % 2)) = false

/-- The weave after steering unit `n` has passed `i`, the head of its side `sel`. -/
def Weave.steered (w : Weave) (ctx n sel : Nat) (i : Item) : Weave :=
  let u := 4 * (0x200 + n)
  let w := ((w.take u 1).take (u + 1 + sel) 1).acted ctx (u / 4)
  w.setOq u (w.oq u ++ [i])

/-- The cluster after it has fired: the head of the other side is discarded, or its discard is owed. -/
def Cluster.steered (x : Cluster) (ctx n sel : Nat) (i : Item) : Cluster :=
  let w := x.weave.steered ctx n sel i
  let other := 4 * (0x200 + n) + 2 - sel
  let k := 2 * n + (1 - sel)
  if (w.iq other).isEmpty then
    { x with weave := { w with debts := SMap.set 0 w.debts k (SMap.get 0 x.weave.debts k + 1) } }
  else { x with weave := w.take other 1, weavePage := x.weavePage.modReg .weave Off.WV_STEER_DISCARD (· + 1#64) }

section Steered

variable (w : Weave) (ctx n : Nat) {sel : Nat} (i : Item)

theorem Weave.oq_steered : (w.steered ctx n sel i).oq (4 * (0x200 + n)) = w.oq (4 * (0x200 + n)) ++ [i] := by
  simp [Weave.steered]

theorem Weave.iq_steered_token : (w.steered ctx n sel i).iq (4 * (0x200 + n)) = (w.iq (4 * (0x200 + n))).drop 1 := by
  rw [Weave.steered, Weave.iq_setOq, Weave.iq_acted, Weave.iq_take_other _ _ _ (by omega), Weave.iq_take_same]

theorem Weave.iq_steered_chosen :
    (w.steered ctx n sel i).iq (4 * (0x200 + n) + 1 + sel) = (w.iq (4 * (0x200 + n) + 1 + sel)).drop 1 := by
  rw [Weave.steered, Weave.iq_setOq, Weave.iq_acted, Weave.iq_take_same, Weave.iq_take_other _ _ _ (by omega)]

theorem Weave.iq_steered_other (h : sel < 2) :
    (w.steered ctx n sel i).iq (4 * (0x200 + n) + 2 - sel) = w.iq (4 * (0x200 + n) + 2 - sel) := by
  rw [Weave.steered, Weave.iq_setOq, Weave.iq_acted, Weave.iq_take_other _ _ _ (by omega), Weave.iq_take_other _ _ _ (by omega)]

theorem Weave.debts_steered : (w.steered ctx n sel i).debts = w.debts := Weave.debts_acted ..

end Steered

section Steering

variable {s : State} {cl ctx n : Nat} {tok i : Item} {ts is : List Item} (h : WeaveActs s.toChip cl ctx)
  (hw : (s.cl cl).weave.Steers ctx n tok i ts is)

include h hw

theorem exec_steeringFire : exec (.steeringFire cl n) s =
    .next { s with toChip := s.toChip.setCl cl ((s.cl cl).steered ctx n (tok.data.toNat % 2) i) } := by
  obtain ⟨hn, hon, htok, hitem, hroom, hdebt, ht, hi, hother⟩ := hw
  have hheads : ∀ l ∈ [(s.cl cl).weave.iq (4 * (0x200 + n)), (s.cl cl).weave.iq (4 * (0x200 + n) + 1),
      (s.cl cl).weave.iq (4 * (0x200 + n) + 2)], headBad l = false := by
    rcases Nat.mod_two_eq_zero_or_one tok.data.toNat with h | h <;> rw [h] at hitem hother <;> simp_all
  refine h.exec_eq (rfl : execSteeringFire cl n s = _) (by simp [h.cl_lt, hn]) hheads ?_
  simp only [htok, hitem]
  rw [if_neg]
  · rfl
  · simp [hon, queueDepth, debtKey, hroom, hdebt]

theorem steeringFire_completes :
    let w := (s.cl cl).weave
    let u := 4 * (0x200 + n)
    let sel := tok.data.toNat % 2
    let other := u + 2 - sel
    let k := 2 * n + (1 - sel)
    Completes (.steeringFire cl n) s fun t =>
      (t.cl cl).weave.oq u = w.oq u ++ [i] ∧ (t.cl cl).weave.iq u = ts ∧ (t.cl cl).weave.iq (u + 1 + sel) = is ∧
      (w.iq other = [] → SMap.get 0 (t.cl cl).weave.debts k = SMap.get 0 w.debts k + 1) ∧
      (∀ j js, w.iq other = j :: js → (t.cl cl).weave.iq other = js ∧ (t.cl cl).weave.debts = w.debts) := by
  intro w u sel other k
  have hsel : sel < 2 := Nat.mod_lt _ (by decide)
  refine ⟨_, exec_steeringFire h hw, ?_⟩
  simp only [Chip.cl_setCl, if_true]
  have htoken : (w.steered ctx n sel i).iq u = ts := by rw [w.iq_steered_token, hw.token, List.drop_one, List.tail_cons]
  have hitem : (w.steered ctx n sel i).iq (u + 1 + sel) = is := by
    rw [w.iq_steered_chosen, hw.item, List.drop_one, List.tail_cons]
  have hother : (w.steered ctx n sel i).iq other = w.iq other := w.iq_steered_other ctx n i hsel
  cases hq : w.iq other with
  | nil =>
    have hx : ((s.cl cl).steered ctx n sel i).weave =
        { w.steered ctx n sel i with debts := SMap.set 0 (w.steered ctx n sel i).debts k (SMap.get 0 w.debts k + 1) } := by
      rw [Cluster.steered, if_pos (by rw [hother, hq]; rfl)]
    rw [hx]
    exact ⟨w.oq_steered ctx n i, htoken, hitem, fun _ => SMap.get_set_same .., fun j js hj => by simp at hj⟩
  | cons j js =>
    have hx : ((s.cl cl).steered ctx n sel i).weave = (w.steered ctx n sel i).take other 1 := by
      rw [Cluster.steered, if_neg (by rw [hother, hq]; simp)]
    rw [hx]
    refine ⟨w.oq_steered ctx n i, ?_, ?_, fun hj => by simp at hj, fun j' js' hj => ⟨?_, w.debts_steered ctx n i⟩⟩
    · rw [Weave.iq_take_other _ _ _ (by omega), htoken]
    · rw [Weave.iq_take_other _ _ _ (by omega), hitem]
    · rw [Weave.iq_take_same, hother, hq, hj]; rfl

end Steering

/-! ### Special-function units -/

theorem length_itemValues (fmt : Nat) (i : Item) : (itemValues fmt i).length = if fmt = 0 then 16 else 32 := by
  unfold itemValues; split <;> simp

/-- Every value of an item of zeros is the same. -/
theorem getD_itemValues_zero (fmt : Nat) {k : Nat} (h : k < (itemValues fmt {}).length) :
    (itemValues fmt {}).getD k .nan = (itemValues fmt {}).getD 0 .nan := by
  have hbits (lo n : Nat) : bits ({} : Item).data.toNat lo n = 0 := by
    rw [bits, show ({} : Item).data.toNat = 0 from BitVec.toNat_zero, Nat.zero_shiftRight, Nat.zero_mod]
  have hvalues : ∃ n x, 0 < n ∧ itemValues fmt {} = List.replicate n x := by
    unfold itemValues
    split
    · exact ⟨16, fp32F.decode 0, by decide, by simp only [hbits, List.map_const', List.length_range]⟩
    · exact ⟨32, bf16F.decode 0, by decide, by simp only [hbits, List.map_const', List.length_range]⟩
  obtain ⟨n, x, hn, hx⟩ := hvalues
  rw [hx] at h ⊢
  rw [List.length_replicate] at h
  rw [List.getD_replicate _ h, List.getD_replicate _ hn]

/-- The results of a unit that uses one operand: its values, with an item of zeros in the place of the other. -/
theorem sfuResults_one (fmt op : Nat) (i : Item) (c : XNum) :
    ((List.range (itemValues fmt i).length).map fun k =>
      sfuResult fmt op ((itemValues fmt i).getD k .nan) ((itemValues fmt {}).getD k .nan) c) =
    (itemValues fmt i).map fun x => sfuResult fmt op x ((itemValues fmt {}).getD 0 .nan) c := by
  refine List.ext_getElem (by simp) fun k hk _ => ?_
  have hk' : k < (itemValues fmt i).length := by simpa using hk
  simp only [List.getElem_map, List.getElem_range, List.getD_eq_getElem _ _ hk']
  rw [getD_itemValues_zero fmt (by rw [length_itemValues] at hk' ⊢; exact hk')]

/-- Special-function unit `n` has one operand and equal formats, holds `i` before `is`, and has room for its result. -/
structure Weave.Computes (w : Weave) (ctx n : Nat) (i : Item) (is : List Item) : Prop where
  unit : n < 16
  one : sfuTwo (w.img ctx (2592 + 8 * n) 1) = false
  formats : w.img ctx (2592 + 8 * n + 1) 1 / 16 = w.img ctx (2592 + 8 * n + 1) 1 % 16
  item : w.iq (4 * (0x100 + n)) = i :: is
  room : (w.oq (4 * (0x100 + n))).length < 8
  good : i.bad = false ∧ headBad (w.iq (4 * (0x100 + n) + 1)) = false

/-- The item that the unit makes of `i`. -/
def Weave.computed (w : Weave) (ctx n : Nat) (i : Item) : Item :=
  let o := 2592 + 8 * n
  let fmt := w.img ctx (o + 1) 1 % 16
  { last := i.last, data := packItem fmt ((itemValues fmt i).map fun x =>
      (sfuResult fmt (w.img ctx o 1) x ((itemValues fmt ({} : Item)).getD 0 .nan) (fp32F.decode (w.img ctx (o + 4) 4))).1) }

/-- The weave after it. -/
def Weave.sfuFired (w : Weave) (ctx n : Nat) (i : Item) : Weave :=
  let u := 4 * (0x100 + n)
  ((w.take u 1).acted ctx (u / 4)).setOq u (w.oq u ++ [w.computed ctx n i])

section Sfu

variable {s : State} {cl ctx n : Nat} {i : Item} {is : List Item} (h : WeaveActs s.toChip cl ctx)
  (hw : (s.cl cl).weave.Computes ctx n i is)

include h hw

/-- It fires: nothing that it held for a later output is in question. -/
theorem exec_sfuFire : ∃ x, exec (.sfuFire cl n) s = .next { s with toChip := s.toChip.setCl cl x } ∧
    x.weave = (s.cl cl).weave.sfuFired ctx n i := by
  obtain ⟨hn, hone, hfmt, hitem, hroom, hi, hother⟩ := hw
  have hok : (decide (cl < 4032) && decide (n < 16)) = true := by simp [h.cl_lt, hn]
  have hfull : ¬ ((s.cl cl).weave.oq (4 * (0x100 + n))).length ≥ queueDepth := Nat.not_le.2 hroom
  have hheld : decide ((s.cl cl).weave.img ctx (2592 + 8 * n + 1) 1 % 16 = 1 ∧
      (s.cl cl).weave.img ctx (2592 + 8 * n + 1) 1 / 16 = 0) = false := by
    rw [decide_eq_false_iff_not, hfmt]; omega
  have hcodes := congrArg (List.map (·.1)) (sfuResults_one ((s.cl cl).weave.img ctx (2592 + 8 * n + 1) 1 % 16)
    ((s.cl cl).weave.img ctx (2592 + 8 * n) 1) i (fp32F.decode ((s.cl cl).weave.img ctx (2592 + 8 * n + 4) 4)))
  change ∃ x, execSfuFire cl n s = _ ∧ _
  simp only [execSfuFire, State.run, onUnit, hok, if_true]
  rw [h.weaveDo _ (by simp [hitem, hi, hother])]
  simp only [hfull, if_false, hheld]
  cases SMap.get none (s.cl cl).weave.sfuHold n <;>
    simp only [hitem, hone, hfmt, hcodes, if_true, Bool.false_eq_true, if_false, Bool.false_and, Bool.or_false] <;>
    refine ⟨_, rfl, ?_⟩ <;> simp [Weave.sfuFired, Weave.computed, List.map_map, Function.comp_def]

theorem sfuFire_completes :
    let w := (s.cl cl).weave
    let u := 4 * (0x100 + n)
    Completes (.sfuFire cl n) s fun t =>
      (t.cl cl).weave.iq u = is ∧ (t.cl cl).weave.oq u = w.oq u ++ [w.computed ctx n i] := by
  intro w u
  obtain ⟨x, hx, hweave⟩ := exec_sfuFire h hw
  have hitem : w.iq u = i :: is := hw.item
  refine ⟨_, hx, ?_⟩
  simp only [Chip.cl_setCl, if_true, hweave, Weave.sfuFired]
  constructor
  · rw [Weave.iq_setOq, Weave.iq_acted, Weave.iq_take_same, hitem]; rfl
  · rw [Weave.oq_setOq_same]

end Sfu

/-- Settles O19: each of the three commands completes with what its unit passes on. -/
theorem weaveItemsAndUnits : Obligations.WeaveItemsAndUnits := by
  refine ⟨fun s cl ctx qa r d i rest hcl hruns => ?_, fun s cl ctx n tok i ts is hcl hruns => ?_⟩
  · intro w hact hr hdest hoq hqlo hqhi hdlo hdhi himg hi
    have hacts : WeaveActs s.toChip cl ctx := ⟨hcl, hruns, hact, himg⟩
    have hroutes : w.Routes ctx qa d i rest := ⟨⟨hqlo, hqhi⟩, ⟨hdlo, hdhi⟩, ⟨r, hr, hdest⟩, hoq, hi⟩
    exact ⟨weaveItemSend_completes hacts hroutes, fun hfull => ⟨s, exec_weaveItemSend_full hacts hroutes hfull, rfl⟩⟩
  · intro w hact himg ht hi
    have hacts : WeaveActs s.toChip cl ctx := ⟨hcl, hruns, hact, himg⟩
    refine ⟨?_, ?_⟩
    · intro u sel other k hn hon htok hitem hroom hother hdebt
      exact steeringFire_completes hacts ⟨hn, hon, htok, hitem, hroom, hdebt, ht, hi, hother⟩
    · intro u o fmt hn hone hfmt hitem hroom hother
      exact sfuFire_completes hacts ⟨hn, hone, hfmt, hitem, hroom, hi, hother⟩

end Sys2Proof.Machine
end

section
/-! O20: the streams of a store port (R142, R143). -/

namespace Sys2Proof.Machine

open Sys2Proof

/-! ### Items in the cluster store -/

/-- A read of a store without errors, as a whole. -/
theorem Cluster.storeRead_eq {x : Cluster} (a n : Nat) (h : x.storeErr = []) :
    x.storeRead a n = ((x.storeRead a n).1, some (Memory.read x.store a n)) :=
  Prod.ext rfl (Cluster.storeRead_clean a n h).1

@[simp] theorem Cluster.weave_storeRead (x : Cluster) (a n : Nat) : (x.storeRead a n).1.weave = x.weave := rfl
@[simp] theorem Cluster.store_storeRead (x : Cluster) (a n : Nat) : (x.storeRead a n).1.store = x.store := rfl

@[simp] theorem Cluster.weave_storeWrite (x : Cluster) (a : Nat) (bs : List Byte) : (x.storeWrite a bs).1.weave = x.weave := by
  by_cases h1 : a % 8 = 0 <;> by_cases h2 : (a + bs.length) % 8 = 0 <;>
    simp only [Cluster.storeWrite, Cluster.storeWriteIn, h1, h2, if_true, if_false] <;> split <;> rfl

theorem Item.length_bytes (i : Item) : i.bytes.length = 64 := length_leBytes _ _

/-- The bytes of item `i` lie at `a` of the store `m'`, which is otherwise the store `m`. -/
def StoresAt (m m' : Mem) (a : Nat) (i : Item) : Prop :=
  Memory.read m' a 64 = i.bytes ∧ ∀ k, k < a ∨ a + 64 ≤ k → Memory.readByte m' k = Memory.readByte m k

theorem storesAt_write (m : Mem) (a : Nat) (i : Item) : StoresAt m (Memory.write m a i.bytes) a i := by
  have hread := Memory.read_write_same m a i.bytes
  rw [i.length_bytes] at hread
  exact ⟨hread, fun k hk => Memory.readByte_write_out _ _ _ _ (by rw [i.length_bytes]; exact hk)⟩

/-! ### One item of a stream -/

/-- The cluster after the READ stream of port `sp` has passed the next item of the store on to OQ0. -/
def Cluster.streamRead (x : Cluster) (ctx sp : Nat) : Cluster :=
  let w := x.weave
  let qa := 4 * (0x180 + sp)
  let a := w.streamAddr ctx sp (w.pos sp)
  let i := Item.ofBytes (Memory.read x.store a 64) (w.spLastEn ctx sp && w.pos sp + 1 = w.spTotal ctx sp)
  { (x.storeRead a 64).1 with weave := ((w.acted ctx (0x180 + sp)).setOq qa (w.oq qa ++ [i])).bump sp }

/-- The cluster after its WRITE stream has stored `i`, the head of IQ0. -/
def Cluster.streamWritten (x : Cluster) (ctx sp : Nat) (i : Item) : Cluster :=
  let w := x.weave
  { (x.storeWrite (w.streamAddr ctx sp (w.pos sp)) i.bytes).1 with
    weave := ((w.take (4 * (0x180 + sp)) 1).bump sp).acted ctx (0x180 + sp) }

/-- The cluster after `i`, the head of IQ0, has entered the SLACK region of port `sp`. -/
def Cluster.slackEntered (x : Cluster) (ctx sp : Nat) (i : Item) : Cluster :=
  let w := x.weave
  let fifo := SMap.get [] w.slack sp
  let y := (x.storeWrite (w.slackAddr ctx sp (w.pos sp)) i.bytes).1
  let w := ((w.take (4 * (0x180 + sp)) 1).bump sp).acted ctx (0x180 + sp)
  { y with
    weave := { w with slack := SMap.set [] w.slack sp (fifo ++ [i.last]) }
    weavePage := y.weavePage.modReg .weave Off.WV_SLACK_PEAK fun v => putFld v 0 18 (max (fld v 0 18) (fifo.length + 1)) }

/-- The cluster after the oldest item of the region, with LAST as `last`, has left it, before those of `rest`. -/
def Cluster.slackLeft (x : Cluster) (ctx sp : Nat) (last : Bool) (rest : List Bool) : Cluster :=
  let w := x.weave
  let qa := 4 * (0x180 + sp)
  let a := w.slackAddr ctx sp (w.pos sp - (SMap.get [] w.slack sp).length)
  let w := (w.acted ctx (0x180 + sp)).setOq qa (w.oq qa ++ [Item.ofBytes (Memory.read x.store a 64) last])
  { (x.storeRead a 64).1 with weave := { w with slack := SMap.set [] w.slack sp rest } }

section Streams

variable {s : State} {cl ctx sp : Nat} (h : WeaveActs s.toChip cl ctx) (hsp : sp < 8) (herr : (s.cl cl).storeErr = [])

include h hsp

omit h hsp in
theorem portOk (hcl : cl < 4032) (hsp : sp < 8) : (decide (cl < 4032) && decide (sp < 8)) = true := by simp [hcl, hsp]

include herr in
theorem exec_readStream (hmode : (s.cl cl).weave.spMode ctx sp = 2)
    (hleft : (s.cl cl).weave.pos sp < (s.cl cl).weave.spTotal ctx sp)
    (hroom : ((s.cl cl).weave.oq (4 * (0x180 + sp))).length < 8) :
    exec (.readStream cl sp) s = .next { s with toChip := s.toChip.setCl cl ((s.cl cl).streamRead ctx sp) } := by
  refine h.exec_eq (rfl : execReadStream cl sp s = _) (portOk h.cl_lt hsp) (by simp) ?_
  simp only
  rw [if_neg (by simp [hmode, hleft, hroom, queueDepth]), Cluster.storeRead_eq _ _ herr]
  rfl

theorem exec_writeStream (hmode : (s.cl cl).weave.spMode ctx sp = 3)
    (hleft : (s.cl cl).weave.pos sp < (s.cl cl).weave.spTotal ctx sp) {i : Item} {is : List Item}
    (hitem : (s.cl cl).weave.iq (4 * (0x180 + sp)) = i :: is) (hi : i.bad = false) :
    exec (.writeStream cl sp) s = .next { s with toChip := s.toChip.setCl cl ((s.cl cl).streamWritten ctx sp i) } := by
  refine h.exec_eq (rfl : execWriteStream cl sp s = _) (portOk h.cl_lt hsp) (by simp [hitem, hi]) ?_
  simp only [hitem]
  rw [if_neg (by simp [hmode, hleft]), Cluster.weave_storeWrite]
  rfl

theorem exec_slackPass_in (hmode : (s.cl cl).weave.spMode ctx sp = 4)
    (hroom : (SMap.get [] (s.cl cl).weave.slack sp).length < (s.cl cl).weave.spSlack ctx sp) {i : Item} {is : List Item}
    (hitem : (s.cl cl).weave.iq (4 * (0x180 + sp)) = i :: is) (hi : i.bad = false) :
    exec (.slackPass cl sp true) s = .next { s with toChip := s.toChip.setCl cl ((s.cl cl).slackEntered ctx sp i) } := by
  refine h.exec_eq (rfl : execSlackPass cl sp true s = _) (portOk h.cl_lt hsp) (by simp [hitem, hi]) ?_
  simp only [hitem, if_true]
  rw [if_neg (by simp [hmode]), if_neg (Nat.not_le.2 hroom), Cluster.weave_storeWrite]
  rfl

include herr in
theorem exec_slackPass_out (hmode : (s.cl cl).weave.spMode ctx sp = 4)
    (hroom : ((s.cl cl).weave.oq (4 * (0x180 + sp))).length < 8) {last : Bool} {rest : List Bool}
    (hfifo : SMap.get [] (s.cl cl).weave.slack sp = last :: rest) :
    exec (.slackPass cl sp false) s = .next { s with toChip := s.toChip.setCl cl ((s.cl cl).slackLeft ctx sp last rest) } := by
  refine h.exec_eq (rfl : execSlackPass cl sp false s = _) (portOk h.cl_lt hsp) (by simp) ?_
  simp only [hfifo, Bool.false_eq_true, if_false]
  rw [if_neg (by simp [hmode]), if_neg (Nat.not_le.2 hroom : ¬ _ ≥ queueDepth), Cluster.storeRead_eq _ _ herr, Cluster.slackLeft, hfifo]
  rfl

include herr

/-- The four commands on the streams of a port. -/
theorem streams_complete :
    let w := (s.cl cl).weave
    let qa := 4 * (0x180 + sp)
    let fifo := SMap.get [] w.slack sp
    let m := (s.cl cl).store
    (w.spMode ctx sp = 2 → w.pos sp < w.spTotal ctx sp → (w.oq qa).length < 8 → Completes (.readStream cl sp) s fun t =>
      (t.cl cl).weave.oq qa = w.oq qa ++ [Item.ofBytes (Memory.read m (w.streamAddr ctx sp (w.pos sp)) 64)
        (w.spLastEn ctx sp && w.pos sp + 1 = w.spTotal ctx sp)] ∧
      (t.cl cl).weave.pos sp = w.pos sp + 1 ∧ (t.cl cl).store = m ∧ OtherClusters s t cl) ∧
    (w.spMode ctx sp = 3 → w.pos sp < w.spTotal ctx sp → ∀ i is, w.iq qa = i :: is → i.bad = false →
      Completes (.writeStream cl sp) s fun t =>
        StoresAt m (t.cl cl).store (w.streamAddr ctx sp (w.pos sp)) i ∧ (t.cl cl).weave.iq qa = is ∧
        (t.cl cl).weave.pos sp = w.pos sp + 1 ∧ OtherClusters s t cl) ∧
    (w.spMode ctx sp = 4 → fifo.length < w.spSlack ctx sp → ∀ i is, w.iq qa = i :: is → i.bad = false →
      Completes (.slackPass cl sp true) s fun t =>
        SMap.get [] (t.cl cl).weave.slack sp = fifo ++ [i.last] ∧ (t.cl cl).weave.iq qa = is ∧
        (t.cl cl).weave.pos sp = w.pos sp + 1 ∧ StoresAt m (t.cl cl).store (w.slackAddr ctx sp (w.pos sp)) i ∧
        OtherClusters s t cl) ∧
    (w.spMode ctx sp = 4 → (w.oq qa).length < 8 → ∀ last rest, fifo = last :: rest →
      Completes (.slackPass cl sp false) s fun t =>
        (t.cl cl).weave.oq qa = w.oq qa ++ [Item.ofBytes (Memory.read m (w.slackAddr ctx sp (w.pos sp - fifo.length)) 64) last] ∧
        SMap.get [] (t.cl cl).weave.slack sp = rest ∧ (t.cl cl).store = m ∧ OtherClusters s t cl) := by
  intro w qa fifo m
  refine ⟨fun hmode hleft hroom => ?_, fun hmode hleft i is hitem hi => ?_, fun hmode hroom i is hitem hi => ?_,
    fun hmode hroom last rest hfifo => ?_⟩
  · refine ⟨_, exec_readStream h hsp herr hmode hleft hroom, ?_, ?_, ?_, otherClusters_setCl s cl _⟩
    all_goals simp only [Chip.cl_setCl, if_true, Cluster.streamRead, Cluster.store_storeRead, w, qa, m]
    · simp
    · simp
  · refine ⟨_, exec_writeStream h hsp hmode hleft hitem hi, ?_, ?_, ?_, otherClusters_setCl s cl _⟩
    all_goals simp only [Chip.cl_setCl, if_true, Cluster.streamWritten]
    · rw [(Cluster.storeWrite_clean _ _ herr).2.1]; exact storesAt_write ..
    · rw [Weave.iq_acted, Weave.iq_bump, Weave.iq_take_same, hitem]; rfl
    · simp [w]
  · refine ⟨_, exec_slackPass_in h hsp hmode hroom hitem hi, ?_, ?_, ?_, ?_, otherClusters_setCl s cl _⟩
    all_goals simp only [Chip.cl_setCl, if_true, Cluster.slackEntered]
    · simp [w, fifo]
    · change Weave.iq (Weave.acted ..) _ = _
      rw [Weave.iq_acted, Weave.iq_bump, Weave.iq_take_same, hitem]; rfl
    · change Weave.pos (Weave.acted ..) _ = _
      simp [w]
    · rw [(Cluster.storeWrite_clean _ _ herr).2.1]; exact storesAt_write ..
  · refine ⟨_, exec_slackPass_out h hsp herr hmode hroom hfifo, ?_, ?_, ?_, otherClusters_setCl s cl _⟩
    all_goals simp only [Chip.cl_setCl, if_true, Cluster.slackLeft, Cluster.store_storeRead, SMap.get_set_same, m]
    change Weave.oq (Weave.setOq ..) _ = _
    rw [Weave.oq_setOq_same]

end Streams

end Sys2Proof.Machine
end

section
/-! O20: waits and balance faults (R163 to R166). -/

namespace Sys2Proof.Machine

open Sys2Proof

/-! ### What a wait leaves -/

/-- The cores of cluster `cl`, the cores that its store ports served last and the other clusters are as they were. -/
structure KeepsPorts (s t : Chip) (cl : Nat) : Prop where
  core : ∀ p, t.core cl p = s.core cl p
  port : (t.cl cl).weave.portLast = (s.cl cl).weave.portLast
  clusters : ∀ k, k ≠ cl → t.cl k = s.cl k

section Keeps

variable {s t : Chip} {cl : Nat}

theorem KeepsPorts.modWeave (h : KeepsPorts s t cl) (f : Weave → Weave) (hf : ∀ w, (f w).portLast = w.portLast) :
    KeepsPorts s (t.modWeave cl f) cl := by
  obtain ⟨hcore, hport, hclusters⟩ := h
  refine ⟨fun p => ?_, ?_, fun k hk => ?_⟩
  · rw [← hcore p]; simp [Chip.core, Cluster.core]
  · simp [hf, hport]
  · simp [hk, hclusters k hk]

theorem KeepsPorts.modPage (h : KeepsPorts s t cl) (f : Page → Page) : KeepsPorts s (t.modPage (.weave cl) f) cl := by
  obtain ⟨hcore, hport, hclusters⟩ := h
  refine ⟨fun p => by rw [Chip.core_modPage, hcore], ?_, fun k hk => ?_⟩
  · rw [(t.modPage_weave cl f).1, hport]
  · rw [(t.modPage_weave cl f).2 k hk, hclusters k hk]

theorem KeepsPorts.raise (h : KeepsPorts s t cl) {b : Nat} (detail : Nat) (hb : b < 64) :
    KeepsPorts s (t.raise (.weave cl) b detail) cl := by
  obtain ⟨hcore, hport, hclusters⟩ := h
  have hr := t.raisedWeave cl detail hb
  exact ⟨fun p => (hr.core p).trans (hcore p), by rw [hr.weave, hport], fun k hk => (hr.clusters k hk).trans (hclusters k hk)⟩

end Keeps

/-- The page of the weave after a unit's wait has come to `n` cycles, `k` of them new. -/
def Page.waitCounted (p : Page) (n k : Nat) : Page :=
  (p.modReg .weave Off.WV_BAL_MAX fun v => putFld v 0 32 (max (fld v 0 32) (min n (2 ^ 32 - 1)))).modReg .weave Off.WV_WAIT
    fun v => v + BitVec.ofNat 64 k

theorem Page.reg_waitCounted_wait (p : Page) (n k : Nat) :
    (p.waitCounted n k).reg .weave Off.WV_WAIT = p.reg .weave Off.WV_WAIT + BitVec.ofNat 64 k := by
  rw [Page.waitCounted, Page.reg_modReg, if_pos rfl, Page.reg_modReg, if_neg (by decide)]

theorem Page.reg_waitCounted_other (p : Page) (n k : Nat) {off : Nat} (hmax : off ≠ Off.WV_BAL_MAX) (hwait : off ≠ Off.WV_WAIT) :
    (p.waitCounted n k).reg .weave off = p.reg .weave off := by
  rw [Page.waitCounted, Page.reg_modReg, if_neg hwait, Page.reg_modReg, if_neg hmax]

/-- The chip after `k` more cycles of unit `u`'s wait have been counted. -/
def Chip.waitCounted (s : Chip) (cl u k : Nat) : Chip :=
  let n := SMap.get 0 (s.cl cl).weave.waitCount u + k
  let s := s.modCl cl fun x => { x with weave := { x.weave with waitCount := SMap.set 0 x.weave.waitCount u n } }
  let s := s.modReg (.weave cl) Off.WV_BAL_MAX fun v => putFld v 0 32 (max (fld v 0 32) (min n (2 ^ 32 - 1)))
  s.count (.weave cl) Off.WV_WAIT k

theorem Chip.cl_waitCounted (s : Chip) (cl u k j : Nat) :
    let n := SMap.get 0 (s.cl cl).weave.waitCount u + k
    (s.waitCounted cl u k).cl j = if j = cl then { s.cl cl with
      weave := { (s.cl cl).weave with waitCount := SMap.set 0 (s.cl cl).weave.waitCount u n }
      weavePage := (s.cl cl).weavePage.waitCounted n k } else s.cl j := by
  by_cases hj : j = cl
  · subst hj
    simp [Chip.waitCounted, Chip.count, Chip.modReg, Chip.modPage, Page.waitCounted, PageRef.block]
  · simp [Chip.waitCounted, Chip.count, Chip.modReg, Chip.modPage, hj]

theorem keepsPorts_waitCounted (s : Chip) (cl u k : Nat) : KeepsPorts s (s.waitCounted cl u k) cl := by
  refine ⟨fun p => ?_, ?_, fun j hj => ?_⟩
  · rw [Chip.core, Chip.cl_waitCounted]; simp [Chip.core, Cluster.core]
  · simp [Chip.cl_waitCounted]
  · simp [Chip.cl_waitCounted, hj]

/-- WV_BAL_STATUS of a first balance fault (R165). -/
def balanceStatus (kind qa limit : Nat) : W :=
  BitVec.ofNat 64 (1 + (kind % 16) <<< 4 + (qa % 4096) <<< 8 + (limit % 2 ^ 32) <<< 32)

theorem balanceStatus_fields (kind qa limit : Nat) :
    bit (balanceStatus kind qa limit) 0 = true ∧ fld (balanceStatus kind qa limit) 4 4 = kind % 16 ∧
      fld (balanceStatus kind qa limit) 8 12 = qa % 4096 := by
  have hval : (balanceStatus kind qa limit).toNat = 1 + kind % 16 * 16 + qa % 4096 * 256 + limit % 4294967296 * 4294967296 := by
    simp only [balanceStatus, BitVec.toNat_ofNat, Nat.shiftLeft_eq]
    omega
  refine ⟨?_, ?_, ?_⟩
  · rw [bit, BitVec.getLsbD, hval, Nat.testBit_zero, decide_eq_true_eq]; omega
  · rw [fld, bits, hval, Nat.shiftRight_eq_div_pow]; omega
  · rw [fld, bits, hval, Nat.shiftRight_eq_div_pow]; omega

/-! ### Balance faults -/

/-- The weave frozen by the balance fault of unit `u`. -/
def Weave.balanceFrozen (u : Nat) (w : Weave) : Weave := { w with faultFreeze := true, balFaulted := u :: w.balFaulted }

/-- The weave in which the wait of unit `u` is within BALANCE_LIMIT. -/
def Weave.balanceKept (u : Nat) (w : Weave) : Weave := { w with balFaulted := w.balFaulted.filter (· ≠ u) }

/-- The first balance fault of a weave on its page (R165). -/
def Chip.balanceRecorded (s : Chip) (cl kind qa limit : Nat) : Chip :=
  let v := balanceStatus kind qa limit
  ((s.setReg (.weave cl) Off.WV_BAL_STATUS v).setReg (.weave cl) Off.WV_BAL_TIME (s.clTime cl)).raise (.weave cl) 0 v.toNat

/-- The record changes the page alone. -/
theorem Chip.balanceRecorded_spec (s : Chip) {cl : Nat} (kind qa limit : Nat) (hcl : cl < 4032) :
    let t := s.balanceRecorded cl kind qa limit
    (t.cl cl).weave = (s.cl cl).weave ∧ bit (t.page (.weave cl)).fault 0 = true ∧
      t.reg (.weave cl) Off.WV_BAL_STATUS = balanceStatus kind qa limit ∧ t.reg (.weave cl) Off.WV_BAL_TIME = s.clTime cl := by
  have hok := weaveOk hcl
  simp only [Chip.balanceRecorded]
  generalize balanceStatus kind qa limit = v
  obtain ⟨hbit, hweave, hreg, -, -⟩ := Chip.raisedWeave ((s.setReg (.weave cl) Off.WV_BAL_STATUS v).setReg (.weave cl)
    Off.WV_BAL_TIME (s.clTime cl)) cl v.toNat (by decide : 0 < 64)
  refine ⟨by rw [hweave]; simp [Chip.setReg, Chip.modPage], hbit, ?_, ?_⟩
  · rw [hreg, Chip.reg_setReg _ _ _ _ _ hok, if_neg (by decide), Chip.reg_setReg _ _ _ _ _ hok, if_pos rfl]
  · rw [hreg, Chip.reg_setReg _ _ _ _ _ hok, if_pos rfl]

/-- What more of a wait can do: it stays within BALANCE_LIMIT, or its fault stands already, or another unit's fault came
before, or it is the first fault, which is recorded. -/
theorem Chip.addWait_eq (s : Chip) (cl u kind qa : Nat) {k : Nat} (hk : 0 < k) :
    s.addWait cl u kind qa k =
      if SMap.get 0 (s.cl cl).weave.waitCount u + k ≤ (s.cl cl).weave.limit then
        (s.waitCounted cl u k).modWeave cl (Weave.balanceKept u)
      else if u ∈ (s.cl cl).weave.balFaulted then s.waitCounted cl u k
      else
        let t := (s.waitCounted cl u k).modWeave cl (Weave.balanceFrozen u)
        if bit (t.reg (.weave cl) Off.WV_BAL_STATUS) 0 then t.countSat (.weave cl) Off.WV_BAL_MORE 16 1
        else t.balanceRecorded cl kind qa (s.cl cl).weave.limit := by
  unfold Chip.addWait
  rw [if_neg hk.ne']
  rfl

theorem keepsPorts_addWait (s : Chip) (cl u kind qa : Nat) {k : Nat} (hk : 0 < k) :
    KeepsPorts s (s.addWait cl u kind qa k) cl := by
  have hcount := keepsPorts_waitCounted s cl u k
  have hfrozen := hcount.modWeave (Weave.balanceFrozen u) fun _ => rfl
  simp only [Chip.addWait_eq _ _ _ _ _ hk]
  split_ifs
  · exact hcount.modWeave (Weave.balanceKept u) fun _ => rfl
  · exact hcount
  · exact hfrozen.modPage fun p => p.modReg .weave Off.WV_BAL_MORE (satField 16 1)
  · exact ((hfrozen.modPage _).modPage _).raise _ (by decide)

section BalanceFault

variable {s : State} {cl n m k : Nat} (hcl : cl < 4032) (hcounts : s.weaveCounts cl = true) (hn : n ≠ 4) (hk : 0 < k)
  (hwait : s.unitWait cl (m / 4) = some (n, m))

include hcl hcounts hn hwait

/-- The command counts the cycles of a unit that waits so. -/
theorem exec_balanceFault :
    exec (.balanceFault cl n m k) s = .next { s with toChip := s.toChip.addWait cl (m / 4) n m k } := by
  refine (State.run_onUnit (b := decide (cl < 4032)) (by simp [hcl]) (congrArg _ ?_) : execBalanceFault cl n m k s = _)
  simp [hcounts, hn, hwait]

include hk

theorem balanceFault_within {w : Weave} (hw : (s.cl cl).weave = w)
    (hlimit : SMap.get 0 w.waitCount (m / 4) + k ≤ w.limit) : Completes (.balanceFault cl n m k) s fun t =>
      SMap.get 0 (t.cl cl).weave.waitCount (m / 4) = SMap.get 0 w.waitCount (m / 4) + k ∧
      t.reg (.weave cl) Off.WV_WAIT = s.reg (.weave cl) Off.WV_WAIT + BitVec.ofNat 64 k ∧
      (t.cl cl).weave.faultFreeze = w.faultFreeze ∧ OtherClusters s t cl := by
  subst hw
  refine ⟨_, exec_balanceFault hcl hcounts hn hwait, ?_, ?_, ?_, (keepsPorts_addWait s.toChip cl (m / 4) n m hk).clusters⟩
  all_goals rw [Chip.addWait_eq _ _ _ _ _ hk, if_pos hlimit]
  · simp [Chip.cl_waitCounted, Weave.balanceKept]
  · simp [Chip.reg, Chip.page, Chip.cl_waitCounted, PageRef.block, Page.reg_waitCounted_wait]
  · simp [Chip.cl_waitCounted, Weave.balanceKept]

theorem balanceFault_first {w : Weave} (hw : (s.cl cl).weave = w) (hnew : m / 4 ∉ w.balFaulted)
    (hlimit : w.limit < SMap.get 0 w.waitCount (m / 4) + k)
    (hfirst : bit (s.reg (.weave cl) Off.WV_BAL_STATUS) 0 = false) : Completes (.balanceFault cl n m k) s fun t =>
      (t.cl cl).weave.faultFreeze = true ∧ bit (t.page (.weave cl)).fault 0 = true ∧
      bit (t.reg (.weave cl) Off.WV_BAL_STATUS) 0 = true ∧ fld (t.reg (.weave cl) Off.WV_BAL_STATUS) 4 4 = n % 16 ∧
      fld (t.reg (.weave cl) Off.WV_BAL_STATUS) 8 12 = m % 4096 ∧ t.reg (.weave cl) Off.WV_BAL_TIME = s.clTime cl := by
  subst hw
  generalize ht : (s.toChip.waitCounted cl (m / 4) k).modWeave cl (Weave.balanceFrozen (m / 4)) = t
  have hstatus : t.reg (.weave cl) Off.WV_BAL_STATUS = s.reg (.weave cl) Off.WV_BAL_STATUS := by
    have hpage : t.page (.weave cl) =
        (s.page (.weave cl)).waitCounted (SMap.get 0 (s.cl cl).weave.waitCount (m / 4) + k) k := by
      rw [← ht, Chip.page, Chip.cl_modWeave, if_pos rfl, Chip.cl_waitCounted, if_pos rfl]; rfl
    rw [Chip.reg, hpage]
    exact Page.reg_waitCounted_other _ _ _ (by decide) (by decide)
  have hfreeze : (t.cl cl).weave.faultFreeze = true := by rw [← ht, Chip.cl_modWeave, if_pos rfl]; rfl
  have htime : t.clTime cl = s.clTime cl := by
    rw [← ht]
    simp [Chip.clTime, Chip.now, Chip.cl_waitCounted]
    rfl
  have hadd : s.toChip.addWait cl (m / 4) n m k = t.balanceRecorded cl n m (s.cl cl).weave.limit := by
    rw [Chip.addWait_eq _ _ _ _ _ hk, if_neg (Nat.not_le.2 hlimit), if_neg hnew]
    simp only [ht, hstatus, hfirst, Bool.false_eq_true, if_false]
  obtain ⟨hweave, hbit, hreg, hclock⟩ := t.balanceRecorded_spec n m (s.cl cl).weave.limit hcl
  obtain ⟨h0, h4, h8⟩ := balanceStatus_fields n m (s.cl cl).weave.limit
  rw [← hreg] at h0 h4 h8
  refine ⟨_, exec_balanceFault hcl hcounts hn hwait, ?_⟩
  rw [hadd]
  exact ⟨by rw [hweave, hfreeze], hbit, h0, h4, h8, by rw [hclock, htime]⟩

end BalanceFault

/-! ### The core that a store port serves (R141, R649) -/

/-- Of two members the second is served after the first. -/
theorem rotate_pair {a b : Nat} (h : a < b) : rotate (some a) [a, b] = some b := by
  simp [rotate, h]

/-- The core has spent one more wait cycle. -/
def Core.waitCycle (c : Core) : Core := { c with waitCycles := c.waitCycles + 1#64 }

/-- Store port `sp` serves logical core `c`. -/
def Weave.portServed (sp c : Nat) (w : Weave) : Weave := { w with portLast := SMap.set 0 w.portLast sp (c + 1) }

/-- A core asks in vain for the port: it spends a wait cycle, which the weave counts where its units count their waits. -/
def Chip.portDenied (s : Chip) (cl ctx d : Nat) (counts : Bool) : Chip :=
  match (s.cl cl).resolvedCore ctx d with
  | some p => if counts then (s.modCore cl p Core.waitCycle).addWait cl d 4 (4 * d) 1 else s.modCore cl p Core.waitCycle
  | none => s

/-- The store ports serve whom they served before. -/
theorem Chip.portLast_portDenied (s : Chip) (cl ctx d : Nat) (counts : Bool) :
    ((s.portDenied cl ctx d counts).cl cl).weave.portLast = (s.cl cl).weave.portLast := by
  have hcore (p : Nat) : ((s.modCore cl p Core.waitCycle).cl cl).weave.portLast = (s.cl cl).weave.portLast := by
    simp [Chip.modCore]
  rw [Chip.portDenied]
  split
  · split
    · rw [(keepsPorts_addWait _ cl d 4 (4 * d) Nat.one_pos).port, hcore]
    · exact hcore _
  · rfl

/-- The core behind logical core `d` waits one cycle. -/
theorem Chip.core_portDenied (s : Chip) {cl ctx d p : Nat} (counts : Bool) (hp : (s.cl cl).resolvedCore ctx d = some p) :
    (s.portDenied cl ctx d counts).core cl p = (s.core cl p).waitCycle := by
  simp only [Chip.portDenied, hp]
  split
  · rw [(keepsPorts_addWait _ cl d 4 (4 * d) Nat.one_pos).core, Chip.core_modCore_same]
  · exact Chip.core_modCore_same ..

section PortAccess

variable {s : State} {cl ctx sp a b : Nat} (hcl : cl < 4032) (hsp : sp < 8) (hbay : s.bayRuns (clBay cl) = true)
  (hheld : s.coreHeld cl = false) (hact : (s.cl cl).weave.active = some ctx) (hmode : (s.cl cl).weave.spMode ctx sp = 1)
  (hab : a < b) (hb : b < 128) (ha : (s.cl cl).weave.img ctx (2720 + a) 1 = sp)
  (hbsp : (s.cl cl).weave.img ctx (2720 + b) 1 = sp) (hlast : SMap.get 0 (s.cl cl).weave.portLast sp = a + 1)

include hcl hsp hbay hheld hact hmode hab hb ha hbsp hlast

theorem exec_storePortAccess : exec (.storePortAccess cl sp [a, b]) s =
    .next { s with toChip := (s.toChip.modWeave cl (Weave.portServed sp b)).portDenied cl ctx a (s.weaveCounts cl) } := by
  have ha' : a < 128 := by omega
  refine (State.run_onUnit (portOk hcl hsp) (congrArg _ ?_) : execStorePortAccess cl sp [a, b] s = _)
  simp only [hact]
  have hask : ([a, b].filter fun c =>
      c < 128 && (s.cl cl).weave.spMode ctx sp = 1 && (s.cl cl).weave.img ctx (2720 + c) 1 = sp) = [a, b] := by
    simp [ha', hb, hmode, ha, hbsp]
  rw [hask]
  simp only [hlast, rotate_pair hab, hbay, hheld]
  simp only [Bool.not_true, Bool.false_or, Bool.false_eq_true, if_false]
  rw [show ([a, b].filter fun d => d ≠ b) = [a] by simp [hab.ne]]
  rfl

theorem storePortAccess_completes : Completes (.storePortAccess cl sp [a, b]) s fun t =>
    SMap.get 0 (t.cl cl).weave.portLast sp = b + 1 ∧
    ∀ p, (s.cl cl).resolvedCore ctx a = some p → (t.core cl p).waitCycles = (s.core cl p).waitCycles + 1#64 := by
  refine ⟨_, exec_storePortAccess hcl hsp hbay hheld hact hmode hab hb ha hbsp hlast, ?_, fun p hp => ?_⟩
  · rw [Chip.portLast_portDenied]
    simp [Weave.portServed]
  · have hresolved : ((s.toChip.modWeave cl (Weave.portServed sp b)).cl cl).resolvedCore ctx a = some p := by
      rw [Chip.cl_modWeave, if_pos rfl]; exact hp
    have hcore : (s.toChip.modWeave cl (Weave.portServed sp b)).core cl p = s.core cl p := by
      rw [Chip.core, Chip.cl_modWeave, if_pos rfl]; rfl
    rw [Chip.core_portDenied _ _ hresolved, hcore]
    rfl

end PortAccess

end Sys2Proof.Machine
end

section
/-! O20: mesh ports (R144, R302), and the obligation. -/

namespace Sys2Proof.Machine

open Sys2Proof

/-! ### Gathering -/

/-- A mesh port gathers nothing from an empty queue. -/
theorem gatherStep_empty {w : Weave} {mp : Nat} (ctx : Nat) (h : w.iq (4 * (0x1C0 + mp)) = []) : gatherStep w ctx mp = w := by
  simp only [gatherStep, h]

theorem gatherAll_empty {w : Weave} {mp : Nat} (ctx : Nat) (h : w.iq (4 * (0x1C0 + mp)) = []) : gatherAll w ctx mp = w :=
  List.foldlRecOn (motive := fun v => v = w) (List.range queueDepth) _ rfl fun _ hv _ _ => by rw [hv, gatherStep_empty ctx h]

theorem Chip.gatherEcc_empty {s : Chip} {cl mp : Nat} (ctx : Nat) (h : (s.cl cl).weave.iq (4 * (0x1C0 + mp)) = []) :
    s.gatherEcc cl ctx mp = s := by
  simp [Chip.gatherEcc, h]

/-! ### Injection -/

/-- The packet that router `cl` makes of a packet `k` of its cluster (R302, R319). -/
def Chip.stampedHere (s : Chip) (cl : Nat) (k : Packet) : Packet :=
  { k with
    srcLC := (s.cl cl).lc.getD 0, destLC := if k.mcast then 0 else k.destLC, tint := s.clTint cl
    epoch := (s.router cl).cur, esc := 0, seq := SMap.get 0 (s.router cl).seqs k.srcKey }

/-- An injected packet joins those that wait at its router, by port 8; nothing but that router changes. -/
theorem Chip.inject_spec (s : Chip) (cl : Nat) (k : Packet) :
    ((s.inject cl k).router cl).inbuf = (s.router cl).inbuf ++ [{ port := 8, pkt := s.stampedHere cl k }] ∧
      ((s.inject cl k).cl cl).weave = (s.cl cl).weave ∧ ∀ j, j ≠ cl → (s.inject cl k).cl j = s.cl j := by
  refine ⟨?_, ?_, fun j hj => ?_⟩
  · simp only [Chip.inject, Chip.stamped, Chip.router_modRouter, if_true]
    rfl
  · simp [Chip.inject, Chip.stamped, Chip.modRouter]
  · simp [Chip.inject, Chip.stamped, Chip.modRouter, hj]

/-! ### The close of a packet -/

/-- The packet of the items `g` that mesh port `mp` has gathered (R144). -/
def Weave.openPacket (w : Weave) (ctx mp : Nat) (g : List Item) : Packet := {
  destLC := w.mpField ctx mp 0 2 % 4096, destCore := w.mpField ctx mp 2 1 % 128
  destUnit := w.mpField ctx mp 3 1 % 32, srcSub := mp, channel := w.mpField ctx mp 4 1 % 16
  mcast := (w.mpField ctx mp 5 1).testBit 0, mIndex := w.mpField ctx mp 6 2 % 1024
  ptype := if g.any (·.last) then 1 else 0, payload := g.flatMap (·.bytes) }

/-- Mesh port `mp` has no open packet. -/
def Weave.packetClosed (mp : Nat) (w : Weave) : Weave := { w with gather := SMap.set [] w.gather mp [] }

section Close

variable {s : State} {cl ctx mp : Nat} {w : Weave} {g : List Item} (hcl : cl < 4032) (hmp : mp < 4)
  (hw : (s.cl cl).weave = w) (hact : w.active = some ctx) (hruns : s.weaveRuns cl = true)
  (hg : SMap.get [] w.gather mp = g) (hne : g ≠ []) (hfull : w.mpField ctx mp 8 2 ≤ g.length)
  (hunit : w.mpField ctx mp 3 1 ≤ 3) (hch : w.mpField ctx mp 4 1 % 16 ≤ 7) (hq : w.iq (4 * (0x1C0 + mp)) = [])
  (hroute : ((s.router cl).lookup { w.openPacket ctx mp g with epoch := (s.router cl).cur }).isSome = true)
  (hroom : s.mayInject cl 0 (w.mpField ctx mp 4 1 % 16) = true)

include hcl hmp hw hact hruns hg hne hfull hunit hch hq hroute hroom

/-- A full packet is injected; as IQ0 is empty, none opens after it. -/
theorem exec_meshPortPacketClose : exec (.meshPortPacketClose cl mp) s =
    .next { s with toChip := (s.toChip.inject cl (w.openPacket ctx mp g)).modWeave cl (Weave.packetClosed mp) } := by
  subst hw
  obtain ⟨-, hweave, -⟩ := s.toChip.inject_spec cl ((s.cl cl).weave.openPacket ctx mp g)
  set u := s.toChip.inject cl ((s.cl cl).weave.openPacket ctx mp g)
  have hempty : (Weave.packetClosed mp (u.cl cl).weave).iq (4 * (0x1C0 + mp)) = [] := by rw [hweave]; exact hq
  have hafter : (u.modCl cl fun x => { x with weave := gatherAll (Weave.packetClosed mp x.weave) ctx mp }).gatherEcc cl ctx mp =
      u.modWeave cl (Weave.packetClosed mp) := by
    rw [Chip.modCl, gatherAll_empty ctx hempty]
    exact Chip.gatherEcc_empty ctx (by rw [Chip.cl_setCl, if_pos rfl]; exact hempty)
  have hopen : ¬(!s.weaveRuns cl || g.isEmpty ||
      !(g.any (·.last) || decide (g.length ≥ (s.cl cl).weave.mpField ctx mp 8 2))) = true := by simp [hruns, hne, hfull]
  refine (State.run_onUnit (b := decide (cl < 4032) && decide (mp < 4)) (by simp [hcl, hmp]) (congrArg _ ?_) :
    execMeshPortPacketClose cl mp s = _)
  simp only [hact, hg]
  rw [if_neg hopen, if_neg (Nat.not_lt.2 hunit), if_neg (Nat.not_lt.2 hch),
    if_neg (by rwa [← Option.not_isSome, Bool.not_eq_true, Bool.not_eq_false']), if_pos hroom]
  exact hafter

theorem meshPortPacketClose_completes : Completes (.meshPortPacketClose cl mp) s fun t =>
    SMap.get [] (t.cl cl).weave.gather mp = [] ∧
    (t.router cl).inbuf = (s.router cl).inbuf ++ [{ port := 8, pkt := s.stampedHere cl (w.openPacket ctx mp g) }] ∧
    OtherClusters s t cl := by
  obtain ⟨hbuf, hweave, hclusters⟩ := s.toChip.inject_spec cl (w.openPacket ctx mp g)
  refine ⟨_, exec_meshPortPacketClose hcl hmp hw hact hruns hg hne hfull hunit hch hq hroute hroom, ?_, ?_, fun k hk => ?_⟩
  · simp [Weave.packetClosed]
  · rw [← hbuf, Chip.router, Chip.cl_modWeave, if_pos rfl]; rfl
  · rw [Chip.cl_modWeave, if_neg hk, hclusters k hk]

end Close

/-- Settles O20, from the streams, the service of cores, the balance faults and the close of a packet. -/
theorem weavePorts : Obligations.WeavePorts := by
  unfold Obligations.WeavePorts
  refine ⟨fun s cl ctx sp hcl hsp hruns herr => ?_, fun s cl ctx hcl => ?_⟩
  · intro w qa a fifo room oldest storedAt hact himg
    exact streams_complete ⟨hcl, hruns, hact, himg⟩ hsp herr
  · intro w hact
    refine ⟨fun sp a b hsp hbay hheld hmode hab hb ha hbsp hlast =>
      storePortAccess_completes hcl hsp hbay hheld hact hmode hab hb ha hbsp hlast,
      fun n m k hcounts hn hk hwait => ⟨fun hlimit => balanceFault_within hcl hcounts hn hk hwait rfl hlimit,
        fun hnew hlimit hfirst _ => balanceFault_first hcl hcounts hn hk hwait rfl hnew hlimit hfirst⟩,
      fun mp hmp hruns => ?_⟩
    intro g ch hne hfull hunit hch hq k hroute hroom
    exact meshPortPacketClose_completes hcl hmp rfl hact hruns rfl hne hfull hunit hch hq hroute hroom

end Sys2Proof.Machine
end

section
/-! The rings of a cluster's five units (R173, R174): their pages, their registers, and TAIL rung. -/

namespace Sys2Proof.Machine

open Sys2Proof

/-! ### Fields of a register -/

/-- A field written reads back. -/
theorem fld_putFld_same (w : W) {lo n : Nat} (v : Nat) (h : lo + n ≤ 64) : fld (putFld w lo n v) lo n = v % 2 ^ n := by
  refine Nat.eq_of_testBit_eq fun i => ?_
  simp only [fld, bits, Nat.testBit_mod_two_pow, Nat.testBit_shiftRight, BitVec.testBit_toNat, putFld, BitVec.getLsbD_or,
    BitVec.getLsbD_and, BitVec.getLsbD_not, BitVec.getLsbD_ofNat, Nat.testBit_shiftLeft, Nat.testBit_two_pow_sub_one]
  by_cases hi : i < n
  · simp [hi, show lo + i < 64 by omega]
  · simp [hi]

theorem fld_wrapField (w : W) {n : Nat} (k : Nat) (h : n ≤ 64) : fld (wrapField n k w) 0 n = (fld w 0 n + k) % 2 ^ n := by
  rw [wrapField, fld_putFld_same _ _ (by omega), Nat.mod_mod]

theorem fld_satField (w : W) {n : Nat} (k : Nat) (h : n ≤ 64) :
    fld (satField n k w) 0 n = min (2 ^ n - 1) (fld w 0 n + k) := by
  have hpos : 0 < 2 ^ n := Nat.two_pow_pos n
  rw [satField, fld_putFld_same _ _ (by omega), Nat.mod_eq_of_lt (by omega)]

/-! ### The page of a unit -/

theorem unitPage_ok (hcl : cl < 4032) (u : Nat) : (unitPage cl u).ok = true := by
  unfold unitPage
  split <;> simp [PageRef.ok, hcl]

section Unit

variable (s : Chip) {cl u : Nat} (hu : u < 5)

include hu

theorem Chip.page_unitPage : s.page (unitPage cl u) = ((s.cl cl).engine u).page := by
  interval_cases u <;> rfl

theorem Chip.modPage_unitPage (f : Page → Page) :
    s.modPage (unitPage cl u) f = s.modEngine cl u fun e => { e with page := f e.page } := by
  interval_cases u <;> rfl

theorem Chip.cl_modReg_unitPage_other {k : Nat} (off : Nat) (f : W → W) (hk : k ≠ cl) :
    (s.modReg (unitPage cl u) off f).cl k = s.cl k := by
  rw [Chip.modReg, Chip.modPage_unitPage s hu, Chip.cl_modEngine_other _ _ _ hk]

end Unit

theorem ringOff_inj {q k j : Nat} : ringOff q k = ringOff q j ↔ k = j := by
  unfold ringOff; omega

/-! ### TAIL (R174) -/

section Tail

variable {s : Chip} {cl u q tail : Nat}

theorem Chip.ringReg_countAccess (hu : u < 5) (pg : PageRef) (w : Bool) (k : Nat) :
    (s.countAccess pg w).ringReg cl u q k = s.ringReg cl u q k := by
  simp only [Chip.ringReg, Chip.reg, Chip.page_unitPage _ hu, Chip.cl_countAccess]

/-- A ring that holds the entries takes its TAIL. -/
theorem Chip.ringTail_fits (h : (tail % 65536 + 65536 - s.ringReg cl u q 2) % 65536 ≤ s.ringSize cl u q) :
    s.ringTail cl u q tail = s.setReg (unitPage cl u) (ringOff q 3) (BitVec.ofNat 64 (tail % 65536)) := by
  simp only [Chip.ringTail, if_neg (Nat.not_lt.2 h)]

/-- `t` is `s` with TAIL of ring `q` of unit `u` at `tail`. -/
structure Rung (s t : Chip) (cl u q tail : Nat) : Prop where
  tail : t.ringReg cl u q 3 = tail
  head : t.ringReg cl u q 2 = s.ringReg cl u q 2
  others : ∀ k, k ≠ cl → t.cl k = s.cl k

theorem rung_ringTail (hcl : cl < 4032) (hu : u < 5)
    (h : (tail % 65536 + 65536 - s.ringReg cl u q 2) % 65536 ≤ s.ringSize cl u q) :
    Rung s (s.ringTail cl u q tail) cl u q (tail % 65536) := by
  have hok := unitPage_ok hcl u
  rw [Chip.ringTail_fits h]
  refine ⟨?_, ?_, fun k hk => s.cl_modReg_unitPage_other hu (ringOff q 3) (fun _ => _) hk⟩
  · rw [Chip.ringReg, Chip.reg_setReg _ _ _ _ _ hok, if_pos rfl, BitVec.toNat_ofNat]
    omega
  · rw [Chip.ringReg, Chip.reg_setReg _ _ _ _ _ hok, if_neg (by rw [ringOff_inj]; decide), Chip.ringReg]

end Tail

end Sys2Proof.Machine
end

section
/-! O21: one piece of a descriptor, moved within the cluster's own store (R176, R263, R267). -/

namespace Sys2Proof.Machine

open Sys2Proof

/-! ### The state of a ring at work -/

/-- Ring `q` of unit `u` of cluster `cl` at work on the cluster's own store: `m` are the bytes of the store, which holds
no error, and `l` the commands in progress. The other clusters are as in `s`. -/
structure RingHas (s t : Chip) (cl u q : Nat) (m : Mem) (l : List Active) : Prop where
  store : (t.cl cl).store = m
  clean : (t.cl cl).storeErr = []
  list : ((t.cl cl).engine u).list q = l
  others : ∀ k, k ≠ cl → t.cl k = s.cl k

theorem Cluster.modEngine_storeErr (x : Cluster) (u : Nat) (f : Engine → Engine) :
    (x.modEngine u f).storeErr = x.storeErr := by
  unfold Cluster.modEngine; split <;> rfl

/-- A write of the store leaves the units. -/
theorem Cluster.storeWrite_engine (x : Cluster) (a : Nat) (bs : List Byte) (u : Nat) :
    (x.storeWrite a bs).1.engine u = x.engine u := by
  by_cases h1 : a % 8 = 0 <;> by_cases h2 : (a + bs.length) % 8 = 0 <;>
    simp only [Cluster.storeWrite, Cluster.storeWriteIn, h1, h2, if_true, if_false] <;> split <;> rfl

section Rules

variable {s t : Chip} {cl u q : Nat} {m : Mem} {l : List Active} (h : RingHas s t cl u q m l)

include h

theorem RingHas.unitRead (pl : Nat) (side : Bool) (o n : Nat) :
    ∃ v, t.unitRead cl u q pl side (.store o) n = .ok v (Memory.read m o n) ∧ RingHas s v cl u q m l := by
  obtain ⟨hstore, hclean, hlist, hothers⟩ := h
  obtain ⟨-, hkept, hclean'⟩ := Cluster.storeRead_clean o n hclean
  refine ⟨_, by rw [Chip.unitRead_store _ _ _ _ _ _ hclean, hstore], ?_, ?_, ?_, fun k hk => ?_⟩
  · rw [Chip.cl_setCl, if_pos rfl, hkept, hstore]
  · rw [Chip.cl_setCl, if_pos rfl, hclean']
  · rw [Chip.cl_setCl, if_pos rfl]; exact hlist
  · rw [Chip.cl_setCl, if_neg hk, hothers k hk]

theorem RingHas.unitWrite (pl o : Nat) (bs : List Byte) :
    ∃ v, t.unitWrite cl u q pl (.store o) bs = .ok v () ∧ RingHas s v cl u q (Memory.write m o bs) l := by
  obtain ⟨hstore, hclean, hlist, hothers⟩ := h
  obtain ⟨-, hwritten, hclean'⟩ := Cluster.storeWrite_clean o bs hclean
  refine ⟨_, Chip.unitWrite_store _ _ _ _ _ hclean, ?_, ?_, ?_, fun k hk => ?_⟩
  · rw [Chip.cl_setCl, if_pos rfl, hwritten, hstore]
  · rw [Chip.cl_setCl, if_pos rfl, hclean']
  · rw [Chip.cl_setCl, if_pos rfl, Cluster.storeWrite_engine, hlist]
  · rw [Chip.cl_setCl, if_neg hk, hothers k hk]

variable (hu : u < 5)

include hu

/-- A change of the unit alone. -/
theorem RingHas.modEngine {l' : List Active} {f : Engine → Engine} (hl : (f ((t.cl cl).engine u)).list q = l') :
    RingHas s (t.modEngine cl u f) cl u q m l' := by
  obtain ⟨hstore, hclean, -, hothers⟩ := h
  refine ⟨?_, ?_, ?_, fun k hk => (Chip.cl_modEngine_other t u f hk).trans (hothers k hk)⟩
  · rw [Chip.modEngine, Chip.cl_modCl, if_pos rfl, ((t.cl cl).modEngine_rest u f).1, hstore]
  · rw [Chip.modEngine, Chip.cl_modCl, if_pos rfl, Cluster.modEngine_storeErr, hclean]
  · rw [Chip.engine_modEngine _ _ _ hu hu, if_pos rfl, hl]

theorem RingHas.count (off n : Nat) : RingHas s (t.count (unitPage cl u) off n) cl u q m l := by
  rw [Chip.count, Chip.modReg, Chip.modPage_unitPage t hu]
  exact h.modEngine hu h.list

theorem RingHas.dropHost : RingHas s (t.dropHost cl u q) cl u q m l := h.modEngine hu h.list

theorem RingHas.setHand (bs : List Byte) : RingHas s (t.setHand cl u q bs) cl u q m l := h.modEngine hu h.list

theorem RingHas.setProgress (pl n : Nat) :
    RingHas s (t.setProgress cl u q pl n) cl u q m (l.map fun a => if a.place = pl then { a with progress := n } else a) :=
  h.modEngine hu (by rw [Engine.modCmd_list, h.list])

theorem RingHas.finish (pl : Nat) :
    RingHas s (t.finish cl u q pl) cl u q m (l.map fun a => if a.place = pl then { a with finished := true } else a) :=
  h.modEngine hu (by rw [Engine.modCmd_list, h.list])

end Rules

/-! ### A piece that is the whole descriptor -/

/-- Bytes that no line boundary cuts move at once. -/
theorem pieceLen_line {n src dst : Nat} (hsrc : src % 64 + n ≤ 64) (hdst : dst % 64 + n ≤ 64) :
    pieceLen n 1 1 src dst = n := by
  unfold pieceLen; omega

/-- A descriptor of one row that no line boundary cuts, between places of the cluster's own store. -/
structure OneLine (c : BitVec 512) (a d : Nat) : Prop where
  src : locOf true (cmdFld c 8 8) = some (.store a)
  dst : locOf true (cmdFld c 16 8) = some (.store d)
  noCvt : cvtEn c = false
  rows : dRows c = 1
  srcLine : a % 64 + dLength c ≤ 64
  dstLine : d % 64 + dLength c ≤ 64

/-- The bytes that a FILL stores (R263). -/
def fillBytes (c : BitVec 512) : List Byte :=
  (List.range (dLength c)).map fun k => BitVec.ofNat 8 (cmdFld c (48 + k % 8) 1)

/-- The bytes that a descriptor moves where the store holds `m`. -/
def lineBytes (c : BitVec 512) (m : Mem) (a : Nat) : List Byte :=
  if cmdFld c 0 1 = 2 then fillBytes c else Memory.read m a (dLength c)

theorem length_lineBytes (c : BitVec 512) (m : Mem) (a : Nat) : (lineBytes c m a).length = dLength c := by
  unfold lineBytes
  split
  · rw [fillBytes, List.length_map, List.length_range]
  · exact Memory.length_read _ _ _

/-- The descriptor of ring `q`, `n` bytes long, has finished with its one piece, which `t` has stored. -/
def Chip.lineDone (t : Chip) (cl u q n : Nat) (fill : Bool) : Chip :=
  let t := if fill then t else t.count (unitPage cl u) Off.DMA_BYTES_READ n
  ((((t.count (unitPage cl u) Off.DMA_BYTES_WRITTEN n).dropHost cl u q).setProgress cl u q 0 n).setHand cl u q []).finish cl u q 0

section Piece

variable {s t : Chip} {cl u q a d : Nat} {m : Mem} {c : BitVec 512}

theorem RingHas.lineDone (h : RingHas s t cl u q m [{ cmd := c }]) (hu : u < 5) (n : Nat) (fill : Bool) :
    RingHas s (t.lineDone cl u q n fill) cl u q m [{ cmd := c, progress := n, finished := true }] := by
  have hread : RingHas s (if fill then t else t.count (unitPage cl u) Off.DMA_BYTES_READ n) cl u q m [{ cmd := c }] := by
    split
    exacts [h, h.count hu _ _]
  exact ((((hread.count hu Off.DMA_BYTES_WRITTEN n).dropHost hu).setProgress hu 0 n).setHand hu []).finish hu 0

/-- The piece is read, or made by FILL, and stored. -/
theorem dmaPiece_line (h : RingHas s t cl u q m [{ cmd := c }]) (hc : OneLine c a d)
    (hhand : SMap.get [] ((t.cl cl).engine u).hand q = []) :
    ∃ v, t.dmaPiece cl u q { cmd := c } = (v.lineDone cl u q (dLength c) (decide (cmdFld c 0 1 = 2)), true) ∧
      RingHas s v cl u q (Memory.write m d (lineBytes c m a)) [{ cmd := c }] := by
  obtain ⟨hsrc, hdst, hcvt, hrows, hsrcLine, hdstLine⟩ := hc
  have hsizes : cvtSizes c = (1, 1) := by simp [cvtSizes, hcvt]
  have hbytes (bs : List Byte) : cvtBytes c bs = bs := by simp [cvtBytes, hsizes]
  obtain ⟨r, hread, hr⟩ := h.unitRead 0 false a (dLength c)
  by_cases hop : cmdFld c 0 1 = 2
  · obtain ⟨v, hwrite, hv⟩ := h.unitWrite 0 d (fillBytes c)
    refine ⟨v, ?_, by rw [lineBytes, if_pos hop]; exact hv⟩
    simp only [fillBytes] at hwrite
    simp [Chip.dmaPiece, hsrc, hdst, hsizes, hhand, hop, Loc.plus, Loc.addr, pieceLen_line hsrcLine hdstLine, hwrite,
      hrows, Chip.lineDone]
  · obtain ⟨v, hwrite, hv⟩ := hr.unitWrite 0 d (Memory.read m a (dLength c))
    refine ⟨v, ?_, by rw [lineBytes, if_neg hop]; exact hv⟩
    simp [Chip.dmaPiece, hsrc, hdst, hsizes, hhand, hop, Loc.plus, Loc.addr, pieceLen_line hsrcLine hdstLine, hread,
      Acc.bind, hbytes, hwrite, hrows, Chip.lineDone]

end Piece

/-! ### The turns of the rings (R176, R649) -/

/-- Of one ring that may work, that ring is served. -/
theorem rotate_one (last q : Nat) : rotate (some last) [q] = some q := by
  by_cases h : last < q <;> simp [rotate, h]

section Turns

variable {s : Chip} {cl u q : Nat}

/-- A ring whose last descriptor has finished works on none. -/
theorem Chip.dmaActive_finished {x : Active} (hlist : ((s.cl cl).engine u).list q = [x]) (hx : x.finished = true) :
    s.dmaActive cl u q = none := by
  simp [Chip.dmaActive, Engine.last, hlist, hx]

theorem Chip.dmaActive_one {x : Active} (hruns : s.ringRuns cl u q = true) (hlist : ((s.cl cl).engine u).list q = [x])
    (hx : x.finished = false) : s.dmaActive cl u q = some x := by
  simp [Chip.dmaActive, Engine.last, hruns, hlist, hx]

/-- Descriptors that have not begun have turns left. -/
theorem Chip.one_le_dmaLeft (h : ∀ r < 4, ∀ x ∈ s.dmaActive cl u r, x.progress = 0) : 1 ≤ s.dmaLeft cl u := by
  refine List.foldlRecOn (motive := fun n => 1 ≤ n) (List.range 4) _ (by decide) fun n hn r hr => ?_
  split
  · next x hx =>
    have hzero := h r (List.mem_range.1 hr) x hx
    omega
  · exact hn

/-- The rings that may work where ring `q` alone holds a descriptor. -/
theorem dmaReady_one (hq : q < 4) {x : Active} (hactive : s.dmaActive cl u q = some x)
    (hidle : ∀ r, r < 4 → r ≠ q → s.dmaActive cl u r = none) :
    (List.range 4).filter (fun r => !(r ∈ ([] : List Nat)) && (s.dmaActive cl u r).isSome) = [q] := by
  have hiff : ∀ r ∈ List.range 4, (!(r ∈ ([] : List Nat)) && (s.dmaActive cl u r).isSome) = decide (r = q) := fun r hr => by
    by_cases h : r = q
    · simp [h, hactive]
    · simp [h, hidle r (List.mem_range.1 hr) h]
  rw [List.filter_congr hiff]
  interval_cases q <;> rfl

/-- A ring with nothing in progress has no turn. -/
theorem dmaTurns_none (fuel : Nat) (idle : List Nat) (h : s.dmaActive cl u q = none) : Chip.dmaTurns cl u q fuel idle s = s := by
  cases fuel with
  | zero => rfl
  | succ fuel => simp [Chip.dmaTurns, h]

/-- One turn finishes the descriptor of a ring that works alone. -/
theorem dmaGo_one (hq : q < 4) (hu : u < 5) {x y : Active} {t : Chip} {m : Mem} (hactive : s.dmaActive cl u q = some x)
    (hx : x.progress = 0) (hidle : ∀ r, r < 4 → r ≠ q → s.dmaActive cl u r = none) (hpiece : s.dmaPiece cl u q x = (t, true))
    (ht : RingHas s t cl u q m [y]) (hy : y.finished = true) :
    RingHas s (s.dmaGo cl u q) cl u q m [y] := by
  have hleft : 1 ≤ s.dmaLeft cl u := s.one_le_dmaLeft fun r hr z hz => by
    by_cases h : r = q
    · rw [h, hactive] at hz
      exact Option.mem_some.1 hz ▸ hx
    · rw [hidle r hr h] at hz
      cases hz
  obtain ⟨fuel, hfuel⟩ := Nat.exists_eq_add_of_le' hleft
  have hserved := ht.modEngine hu (f := fun e => { e with lastRing := q }) ht.list
  have hgo : s.dmaGo cl u q = t.modEngine cl u fun e => { e with lastRing := q } := by
    rw [Chip.dmaGo, hfuel, Chip.dmaTurns]
    simp only [dmaReady_one hq hactive hidle, List.mem_singleton, decide_true, Bool.not_true, Bool.false_eq_true, if_false,
      rotate_one, hactive, hpiece, if_true]
    exact dmaTurns_none fuel [] (Chip.dmaActive_finished hserved.list hy)
  rw [hgo]
  exact hserved

/-- No ring starts a descriptor where one has its own in progress and the others are empty. -/
theorem dmaStarts_none {x : Active} (hlist : ((s.cl cl).engine u).list q = [x])
    (hempty : ∀ r, r < 4 → r ≠ q → s.ringHeld cl u r = 0) : (List.range 4).foldl (Chip.dmaStart cl u) s = s := by
  refine List.foldlRecOn (motive := fun t => t = s) (List.range 4) _ rfl fun t ht r hr => ?_
  rw [ht]
  by_cases h : r = q
  · subst h; simp [Chip.dmaStart, Engine.last, hlist]
  · simp [Chip.dmaStart, hempty r (List.mem_range.1 hr) h]

end Turns

/-! ### COPY and FILL -/

/-- Descriptor `c` has stored the bytes `bs` at `d`, and nothing else, and has finished. -/
def LineMoved (s t : State) (cl u q d : Nat) (c : BitVec 512) (bs : List Byte) : Prop :=
  Memory.read (t.cl cl).store d (dLength c) = bs ∧
    (∀ b, b < d ∨ d + dLength c ≤ b → Memory.readByte (t.cl cl).store b = Memory.readByte (s.cl cl).store b) ∧
    ((t.cl cl).engine u).list q = [{ cmd := c, progress := dLength c, finished := true }] ∧ OtherClusters s t cl

/-- Descriptor `c` is the one in progress on its engine, whose ring `q` runs with an empty hand. -/
structure DmaReady (s : State) (cl u q : Nat) (c : BitVec 512) : Prop where
  cluster : cl < 4032
  unit : u < 2
  ring : q < 4
  runs : s.ringRuns cl u q = true
  list : ((s.cl cl).engine u).list q = [{ cmd := c }]
  clean : (s.cl cl).storeErr = []
  idle : ∀ r, r < 4 → r ≠ q → s.dmaActive cl u r = none ∧ s.ringHeld cl u r = 0
  hand : SMap.get [] ((s.cl cl).engine u).hand q = []

/-- The command of the descriptor's own OP finishes it. -/
theorem DmaReady.completes {s : State} {i : Instr} {cl u q a d op : Nat} {c : BitVec 512} (hr : DmaReady s cl u q c)
    (hexec : exec i s = s.run fun x => onUnit (cl < 4032 && u < 2 && q < 4) (x.dmaRun cl u q op)) (hop : cmdFld c 0 1 = op)
    (hc : OneLine c a d) :
    Completes i s fun t => LineMoved s t cl u q d c (lineBytes c (s.cl cl).store a) := by
  obtain ⟨hcl, hu, hq, hruns, hlist, hclean, hidle, hhand⟩ := hr
  have hu5 : u < 5 := by omega
  have hstart : RingHas s.toChip s.toChip cl u q (s.cl cl).store [{ cmd := c }] := ⟨rfl, hclean, hlist, fun _ _ => rfl⟩
  obtain ⟨v, hpiece, hv⟩ := dmaPiece_line hstart hc hhand
  have hdone := dmaGo_one hq hu5 (Chip.dmaActive_one hruns hlist rfl) rfl (fun r h h' => (hidle r h h').1) hpiece
    (hv.lineDone hu5 _ _) rfl
  have hrun : s.toChip.dmaRun cl u q op = s.toChip.dmaGo cl u q := by
    simp [Chip.dmaRun, hruns, Engine.last, hlist, hop, dmaStarts_none hlist fun r h h' => (hidle r h h').2]
  have hlen := length_lineBytes c (s.cl cl).store a
  have hsame := Memory.read_write_same (s.cl cl).store d (lineBytes c (s.cl cl).store a)
  rw [hlen] at hsame
  refine ⟨_, hexec.trans (State.run_onUnit (by simp [hcl, hu, hq]) rfl), ?_⟩
  rw [hrun]
  refine ⟨by rw [hdone.store, hsame], fun b hb => ?_, hdone.list, hdone.others⟩
  rw [hdone.store, Memory.readByte_write_out _ _ _ _ (by rw [hlen]; exact hb)]

end Sys2Proof.Machine
end

section
/-! O21: the completion of a command, TAIL and PAUSE (R174, R175, R178, R184), and the statement. -/

namespace Sys2Proof.Machine

open Sys2Proof

/-! ### The completion of a command (R175, R184) -/

/-- The source of unit `u` in the order of R198. -/
def unitSource : Nat → SetSource
  | 0 => .dma0 | 1 => .dma1 | 2 => .thatcher | 3 => .gutter | _ => .skylight

/-- The sets that a completed command `c` of the source hands to the flag unit. -/
def doneSets (src : SetSource) (c : BitVec 512) : List PendingSet :=
  if c.getLsbD 8 then [⟨src, .flag (cmdFld c 2 2)⟩] else []

theorem Chip.cl_doneFlag (s : Chip) (cl u : Nat) (c : BitVec 512) (k : Nat) :
    (s.doneFlag cl u c).cl k =
      if k = cl then { s.cl cl with sets := (s.cl cl).sets ++ doneSets (unitSource u) c } else s.cl k := by
  unfold Chip.doneFlag doneSets
  split
  · rw [Chip.cl_modCl]; rfl
  · split
    · next hk => rw [List.append_nil, hk]
    · rfl

/-- Of `t`, the commands in progress on ring `q` of unit `u` are `l`, its HEAD is one on from that of `s`, and `new` has
joined the sets that wait at the flag unit of the cluster. -/
structure HeadPast (s t : Chip) (cl u q : Nat) (l : List Active) (new : List PendingSet) : Prop where
  list : ((t.cl cl).engine u).list q = l
  head : t.ringReg cl u q 2 % 65536 = (s.ringReg cl u q 2 % 65536 + 1) % 65536
  sets : (t.cl cl).sets = (s.cl cl).sets ++ new
  others : ∀ k, k ≠ cl → t.cl k = s.cl k

theorem ringOff_lt {q : Nat} (hq : q < 4) : ringOff q 2 < 0x180 := by
  unfold ringOff; omega

theorem Chip.ringReg_mod (s : Chip) (cl u q k : Nat) :
    s.ringReg cl u q k % 65536 = fld (s.reg (unitPage cl u) (ringOff q k)) 0 16 := by
  simp [Chip.ringReg, fld, bits]

theorem Chip.sets_modEngine (s : Chip) (cl u : Nat) (f : Engine → Engine) :
    ((s.modEngine cl u f).cl cl).sets = (s.cl cl).sets := by
  obtain ⟨-, -, -, -, -, -, hsets, -⟩ := (s.cl cl).modEngine_rest u f
  rw [Chip.modEngine, Chip.cl_modCl, if_pos rfl, hsets]

section Past

variable {s t : Chip} {cl u q : Nat} {l : List Active} {new : List PendingSet} (h : HeadPast s t cl u q l new) (hu : u < 5)

include h hu

/-- What the unit does besides. -/
theorem HeadPast.modEngine {f : Engine → Engine} (hl : (f ((t.cl cl).engine u)).list q = ((t.cl cl).engine u).list q)
    (hr : (f ((t.cl cl).engine u)).page.reg (unitPage cl u).block (ringOff q 2) =
      ((t.cl cl).engine u).page.reg (unitPage cl u).block (ringOff q 2)) : HeadPast s (t.modEngine cl u f) cl u q l new := by
  obtain ⟨hlist, hhead, hsets, hothers⟩ := h
  refine ⟨?_, ?_, ?_, fun k hk => (Chip.cl_modEngine_other t u f hk).trans (hothers k hk)⟩
  · rw [Chip.engine_modEngine _ _ _ hu hu, if_pos rfl, hl, hlist]
  · rw [← hhead, Chip.ringReg, Chip.ringReg, Chip.reg, Chip.reg, Chip.page_unitPage _ hu, Chip.page_unitPage _ hu,
      Chip.engine_modEngine _ _ _ hu hu, if_pos rfl, hr]
  · rw [Chip.sets_modEngine, hsets]

theorem HeadPast.count {off : Nat} (n : Nat) (hoff : ringOff q 2 ≠ off) :
    HeadPast s (t.count (unitPage cl u) off n) cl u q l new := by
  rw [Chip.count, Chip.modReg, Chip.modPage_unitPage t hu]
  exact h.modEngine hu rfl (by rw [Page.reg_modReg, if_neg hoff])

theorem HeadPast.emptyBuf : HeadPast s (t.modEngine cl u fun e => { e with buf := [] }) cl u q l new :=
  h.modEngine hu rfl rfl

end Past

/-- The oldest command of ring `q`, `c`, has left it before those of `l`. -/
def Chip.oldestLeft (s : Chip) (cl u q : Nat) (c : BitVec 512) (l : List Active) : Chip :=
  ((s.modEngine cl u fun e => e.setList q l).modReg (unitPage cl u) (ringOff q 2) (wrapField 16 1)).doneFlag cl u c

section Complete

variable {s : Chip} {cl u q : Nat} {x : Active} {l : List Active} (hcl : cl < 4032) (hu : u < 5)
  (hissues : s.unitIssues cl u = true) (hlist : ((s.cl cl).engine u).list q = x :: l) (hdone : x.finished = true)
  (hfree : ((s.cl cl).engine u).parked q = none)

include hissues hlist hdone hfree in
theorem Chip.complete_eq (after : Chip → Chip) : s.complete cl u q after = after (s.oldestLeft cl u q x.cmd l) := by
  simp [Chip.complete, hlist, hdone, hissues, hfree, Chip.oldestLeft]

include hcl hu in
theorem headPast_oldestLeft (s : Chip) (q : Nat) (c : BitVec 512) (l : List Active) :
    HeadPast s (s.oldestLeft cl u q c l) cl u q l (doneSets (unitSource u) c) := by
  have hok := unitPage_ok hcl u
  have hreg (t : Chip) : (t.doneFlag cl u c).reg (unitPage cl u) (ringOff q 2) = t.reg (unitPage cl u) (ringOff q 2) := by
    simp only [Chip.reg, Chip.page_unitPage _ hu, Chip.cl_doneFlag, if_true]
    rfl
  have hhead (f : W → W) : ((s.modEngine cl u fun e => e.setList q l).modReg (unitPage cl u) (ringOff q 2) f).reg
      (unitPage cl u) (ringOff q 2) = f (s.reg (unitPage cl u) (ringOff q 2)) := by
    rw [Chip.reg_modReg _ _ _ _ _ hok, if_pos rfl]
    simp only [Chip.reg, Chip.page_unitPage _ hu, Chip.engine_modEngine _ _ _ hu hu, if_true]
    rfl
  refine ⟨?_, ?_, ?_, fun k hk => ?_⟩
  · simp only [Chip.oldestLeft, Chip.cl_doneFlag, if_true, Chip.modReg, Chip.modPage_unitPage _ hu]
    change (Cluster.engine (Chip.cl _ cl) u).list q = l
    simp only [Chip.engine_modEngine _ _ _ hu hu, if_true]
    exact (Engine.list_setList ..).trans (if_pos rfl)
  · rw [Chip.ringReg_mod, Chip.ringReg_mod, Chip.oldestLeft, hreg, hhead, fld_wrapField _ _ (by decide)]
    rfl
  · simp only [Chip.oldestLeft, Chip.cl_doneFlag, if_true, Chip.modReg, Chip.modPage_unitPage _ hu, Chip.sets_modEngine]
  · rw [Chip.oldestLeft, Chip.cl_doneFlag, if_neg hk, Chip.cl_modReg_unitPage_other _ hu _ _ hk, Chip.cl_modEngine_other _ _ _ hk]

end Complete

/-- A command's completion, with what its unit does besides. -/
theorem complete_completes {s : State} {i : Instr} {cl u q : Nat} {x : Active} {l : List Active} {ok : Bool}
    {after : Chip → Chip} {P : State → Prop} (hcl : cl < 4032) (hu : u < 5) (hissues : s.unitIssues cl u = true)
    (hlist : ((s.cl cl).engine u).list q = x :: l) (hdone : x.finished = true)
    (hfree : ((s.cl cl).engine u).parked q = none) (hok : ok = true)
    (hexec : exec i s = s.run fun c => onUnit ok (c.complete cl u q after))
    (hafter : ∀ t : Chip, HeadPast s.toChip t cl u q l (doneSets (unitSource u) x.cmd) → P { s with toChip := after t }) :
    Completes i s P := by
  refine ⟨_, hexec.trans (State.run_onUnit hok rfl), ?_⟩
  rw [Chip.complete_eq hissues hlist hdone hfree]
  exact hafter _ (headPast_oldestLeft hcl hu _ _ _ _)

/-- A descriptor's completion is counted besides. -/
theorem dmaDescComplete_completes {s : State} {cl u q : Nat} {x : Active} {l : List Active} (hcl : cl < 4032) (hu : u < 2)
    (hq : q < 4) (hissues : s.unitIssues cl u = true) (hlist : ((s.cl cl).engine u).list q = x :: l)
    (hdone : x.finished = true) (hfree : ((s.cl cl).engine u).parked q = none) :
    Completes (.dmaDescComplete cl u q) s fun t =>
      ((t.cl cl).engine u).list q = l ∧ t.ringReg cl u q 2 % 65536 = (s.ringReg cl u q 2 % 65536 + 1) % 65536 ∧
      (t.cl cl).sets = (s.cl cl).sets ++ doneSets (unitSource u) x.cmd ∧ OtherClusters s t cl := by
  have hu5 : u < 5 := by omega
  refine complete_completes hcl hu5 hissues hlist hdone hfree (by simp [hcl, hu, hq]) rfl fun t ht => ?_
  obtain ⟨hlist', hhead, hsets, hothers⟩ := ht.count hu5 1 (off := Off.DMA_DESC_DONE) ((ringOff_lt hq).trans (by decide)).ne
  exact ⟨hlist', hhead, hsets, hothers⟩

/-! ### TAIL and PAUSE (R174, R178) -/

/-- A host write of TAIL of a ring that it owns. -/
theorem tailWrite_completes {s : State} {i : Instr} {cl u q off : Nat} {v : W} {ok : Bool} (hcl : cl < 4032) (hu : u < 5)
    (hr : Reaches s.toChip (unitPage cl u)) (howner : s.ringOwner cl u q = true)
    (hfits : (v.toNat % 65536 + 65536 - s.ringReg cl u q 2) % 65536 ≤ s.ringSize cl u q) (hok : ok = true)
    (hexec : exec i s = s.run fun c => onUnit ok (c.cmdWrite (unitPage cl u) off fun c => c.tailWrite cl u q v)) :
    Completes i s fun t => t.ringReg cl u q 3 = v.toNat % 65536 ∧ t.ringReg cl u q 2 = s.ringReg cl u q 2 ∧
      OtherClusters s t cl := by
  have hreg (k : Nat) := s.toChip.ringReg_countAccess (cl := cl) (q := q) hu (unitPage cl u) true k
  have hrung : Rung _ ((s.toChip.countAccess (unitPage cl u) true).ringTail cl u q (v.toNat % 65536)) cl u q
      (v.toNat % 65536 % 65536) :=
    rung_ringTail hcl hu (by rw [Nat.mod_mod, Chip.ringSize, hreg, hreg]; exact hfits)
  obtain ⟨htail, hhead, hothers⟩ := hrung
  refine ⟨_, hexec.trans (State.run_cmdWrite hok hr rfl), ?_⟩
  rw [Chip.tailWrite, if_pos (by rw [Chip.ringOwner, hreg]; exact howner)]
  exact ⟨by rw [htail, Nat.mod_mod], hhead.trans (hreg 2), fun k hk => (hothers k hk).trans (Chip.cl_countAccess ..)⟩

theorem toNat_setBit_five (v : W) : (setBit v 5).toNat = v.toNat ||| 32 := by
  rw [setBit, BitVec.toNat_or]; rfl

theorem unitPage_dma (cl : Nat) {u : Nat} (hu : u < 2) : unitPage cl u = .dma cl u := by
  interval_cases u <;> rfl

theorem dmaPause_completes {s : State} {cl u q : Nat} (hcl : cl < 4032) (hu : u < 2) (hq : q < 4)
    (hr : Reaches s.toChip (unitPage cl u)) :
    Completes (.dmaPause cl u q) s fun t => t.ringReg cl u q 1 = s.ringReg cl u q 1 ||| 32 ∧ OtherClusters s t cl := by
  have hu5 : u < 5 := by omega
  have hpage := unitPage_dma cl hu
  have hreg := s.toChip.ringReg_countAccess (cl := cl) (q := q) hu5 (unitPage cl u) true 1
  refine ⟨_, (State.run_cmdWrite (ok := clOk cl && decide (u < 2) && decide (q < 4)) (by simp [clOk, hcl, hu, hq])
    (hpage ▸ hr) rfl : execDmaPause cl u q s = _), ?_⟩
  rw [← hpage]
  refine ⟨?_, fun k hk => ?_⟩
  · rw [← hreg, Chip.ringReg, Chip.reg_modReg _ _ _ _ _ (unitPage_ok hcl u), if_pos rfl, toNat_setBit_five, Chip.ringReg]
  · rw [Chip.cl_modReg_unitPage_other _ hu5 _ _ hk, Chip.cl_countAccess]

/-! ### The statement -/

/-- Settles O21: one turn of the engine moves the descriptor (`dmaGo_one`); the oldest command leaves its ring
(`headPast_oldestLeft`); a ring that holds the entries takes its TAIL (`rung_ringTail`). -/
theorem unitRings : Obligations.UnitRings := by
  refine ⟨fun s cl u q a d c hcl hu hq hruns hlist hclean ha hd hcvt hrows _ hdst hidle hhand => ?_,
    fun s cl u q a l hcl hissues hlist hdone hfree => ?_, fun s cl u q v hcl hr => ?_⟩
  · have hready : DmaReady s cl u q c := ⟨hcl, hu, hq, hruns, hlist, hclean, hidle, hhand⟩
    intro moved
    refine ⟨fun hop hsrc => ?_, fun hop hzero => ?_⟩
    · have h := hready.completes (i := .copy cl u q) rfl hop ⟨ha, hd, hcvt, hrows, hsrc, hdst⟩
      rwa [lineBytes, if_neg (by rw [hop]; decide)] at h
    · have h := hready.completes (i := .fill cl u q) rfl hop ⟨ha, hd, hcvt, hrows, by omega, hdst⟩
      rwa [lineBytes, if_pos hop] at h
  · intro done
    refine ⟨fun hu hq => ?_, fun hu hq => ?_, fun hu hq => ?_, fun hu hq => ?_, fun hu hq => ?_⟩
    all_goals subst hu
    · exact dmaDescComplete_completes hcl (by decide) hq hissues hlist hdone hfree
    · exact dmaDescComplete_completes hcl (by decide) hq hissues hlist hdone hfree
    · subst hq
      refine complete_completes hcl (by decide) hissues hlist hdone hfree (by simp [hcl]) rfl fun t ht => ?_
      obtain ⟨hl, hh, hs, ho⟩ := ht.emptyBuf (by decide)
      exact ⟨⟨hl, hh, hs, ho⟩, by simp [Chip.modEngine, Cluster.modEngine]⟩
    · subst hq
      refine complete_completes hcl (by decide) hissues hlist hdone hfree (by simp [hcl]) rfl fun t ht => ?_
      obtain ⟨hl, hh, hs, ho⟩ := ht
      exact ⟨hl, hh, hs, ho⟩
    · subst hq
      refine complete_completes hcl (by decide) hissues hlist hdone hfree (by simp [hcl]) rfl fun t ht => ?_
      obtain ⟨hl, hh, hs, ho⟩ := (ht.emptyBuf (by decide)).count (by decide) 1 (off := Off.SKY_PASSES) (by decide)
      refine ⟨⟨hl, hh, hs, ho⟩, ?_⟩
      simp [Chip.count, Chip.modReg, Chip.modPage, Chip.modEngine, Cluster.modEngine]
  · intro fits rung
    refine ⟨fun hu hq ⟨howner, hfits⟩ => ?_, fun hu hq ⟨howner, hfits⟩ => ?_, fun hu hq ⟨howner, hfits⟩ => ?_,
      fun hu hq ⟨howner, hfits⟩ => ?_, fun hu hq => dmaPause_completes hcl hu hq hr⟩
    · refine tailWrite_completes (off := ringOff q 3) hcl (by omega) hr howner hfits
        (ok := clOk cl && decide (u < 2) && decide (q < 4)) (by simp [clOk, hcl, hu, hq]) ?_
      rw [unitPage_dma cl hu]
      rfl
    all_goals
      subst hu hq
      exact tailWrite_completes hcl (by decide) hr howner hfits (clOk_of_lt hcl) rfl

end Sys2Proof.Machine
end

section
/-! O23: the receive slots and the virtual-flag table (R187 to R189, R199). -/

namespace Sys2Proof.Machine

open Sys2Proof

/-! ### Fields of a word -/

/-- A field that a mask keeps. -/
theorem fld_and_mask {v m : W} {lo n : Nat} (h : fld m lo n = 2 ^ n - 1) : fld (v &&& m) lo n = fld v lo n := by
  have hand : fld (v &&& m) lo n = fld v lo n &&& fld m lo n := by
    rw [fld, fld, fld, bits, bits, bits, BitVec.toNat_and, Nat.shiftRight_and_distrib, Nat.and_mod_two_pow]
  rw [hand, h, Nat.and_two_pow_sub_one_eq_mod, fld, bits, Nat.mod_mod]

theorem bit_clrBit_same (w : W) (i : Nat) : bit (clrBit w i) i = false := by
  by_cases hi : i < 64
  · simp [bit, clrBit, hi]
  · exact BitVec.getLsbD_of_ge _ _ (Nat.not_lt.1 hi)

/-! ### Receive slots (R187 to R189) -/

section Slot

variable (s : Chip) {cl : Nat} (n : Nat) (v : W)

/-- What a write of GT_SLOTs_CFG stores of `v`: its reserved bits read 0. -/
def slotCfg (v : W) : W := v &&& 0xFFFFFFFFFFFF0003#64

theorem slotCfg_fields : bit (slotCfg v) 0 = bit v 0 ∧ fld (slotCfg v) 16 20 = fld v 16 20 ∧ fld (slotCfg v) 36 28 = fld v 36 28 :=
  ⟨by simp [bit, slotCfg], fld_and_mask (by decide), fld_and_mask (by decide)⟩

/-- Slot `n` has the configuration `v` and has counted no packet. -/
def Chip.slotCounts (s : Chip) (cl n : Nat) (v : W) : Chip :=
  ((s.setReg (.gutter cl) (Off.GT_SLOT_CFG n) v).setReg (.gutter cl) (Off.GT_SLOT_COUNT n) 0#64).modPage (.gutter cl)
    fun p => { p with refused := false }

/-- Slot `n`, whose flag is `name`, is full. -/
def Chip.slotFilled (s : Chip) (cl n name : Nat) : Chip :=
  (s.modReg (.gutter cl) (Off.GT_SLOT_CFG n) fun v => clrBit v 0).modCl cl fun x =>
    { x with sets := x.sets ++ [⟨.gutter, .flag name⟩] }

/-- The names of the registers of a slot. -/
theorem slotOffs_ne : Off.GT_SLOT_CFG n ≠ Off.GT_SLOT_COUNT n ∧ Off.GT_SLOT_FLAG n ≠ Off.GT_SLOT_COUNT n ∧
    Off.GT_SLOT_FLAG n ≠ Off.GT_SLOT_CFG n := by
  unfold Off.GT_SLOT_CFG Off.GT_SLOT_COUNT Off.GT_SLOT_FLAG
  omega

theorem Chip.cl_modPage_gutter_other (f : Page → Page) {k : Nat} (hk : k ≠ cl) : (s.modPage (.gutter cl) f).cl k = s.cl k :=
  s.cl_modEngine_other 3 _ hk

theorem Chip.sets_modPage_gutter (f : Page → Page) : ((s.modPage (.gutter cl) f).cl cl).sets = (s.cl cl).sets :=
  s.sets_modEngine cl 3 _

theorem Chip.reg_slotCounts (hcl : cl < 4032) (off : Nat) : (s.slotCounts cl n v).reg (.gutter cl) off =
    if off = Off.GT_SLOT_COUNT n then 0#64 else if off = Off.GT_SLOT_CFG n then v else s.reg (.gutter cl) off := by
  have hok : (PageRef.gutter cl).ok = true := unitPage_ok hcl 3
  rw [← s.reg_setReg _ _ _ _ hok, ← Chip.reg_setReg _ _ _ _ _ hok, Chip.reg, Chip.slotCounts, Chip.page_modPage_same _ _ _ hok]
  rfl

theorem Chip.sets_slotCounts : ((s.slotCounts cl n v).cl cl).sets = (s.cl cl).sets := by
  rw [Chip.slotCounts, Chip.sets_modPage_gutter, Chip.setReg, Chip.sets_modPage_gutter, Chip.setReg, Chip.sets_modPage_gutter]

theorem Chip.cl_slotCounts_other {k : Nat} (hk : k ≠ cl) : (s.slotCounts cl n v).cl k = s.cl k := by
  rw [Chip.slotCounts, Chip.cl_modPage_gutter_other _ _ hk, Chip.setReg, Chip.cl_modPage_gutter_other _ _ hk, Chip.setReg,
    Chip.cl_modPage_gutter_other _ _ hk]

variable {s n v} (hcl : cl < 4032) (hv : bit v 0 = true) (hold : bit (s.reg (.gutter cl) (Off.GT_SLOT_CFG n)) 0 = false)
  (hlanes : 1 ≤ fld v 16 20) (hfits : fld (s.reg (.gutter cl) (Off.GT_SLOT_BASE n)) 0 24 + 8 * fld v 16 20 ≤ storeSize)

include hv hold hlanes hfits

/-- A rise of ENABLE whose lanes lie in the store. -/
theorem Chip.slotWrite_rise : s.slotWrite cl n v = (s.slotCounts cl n (slotCfg v)).slotFull cl n := by
  obtain ⟨hbit, hfld, -⟩ := slotCfg_fields v
  rw [← hbit] at hv
  rw [← hfld] at hlanes hfits
  unfold slotCfg at hv hlanes hfits
  have hsome : ¬ fld (v &&& 0xFFFFFFFFFFFF0003#64) 16 20 = 0 := by omega
  simp only [Chip.slotWrite, hv, hold, Bool.not_false, Bool.and_self, if_true, if_neg (Nat.not_lt.2 hfits), if_neg hsome]
  rfl

include hcl

/-- A slot that expects packets waits for them. -/
theorem Chip.slotWrite_waits (hexpect : fld v 36 28 ≠ 0) : s.slotWrite cl n v = s.slotCounts cl n (slotCfg v) := by
  obtain ⟨-, -, hfld⟩ := slotCfg_fields v
  obtain ⟨hcfg, -, -⟩ := slotOffs_ne n
  have hzero : fld 0#64 0 28 = 0 := by decide
  rw [Chip.slotWrite_rise hv hold hlanes hfits, Chip.slotFull]
  simp only [Chip.reg_slotCounts _ _ _ hcl, if_true, if_neg hcfg, hzero, hfld]
  exact if_pos (Ne.symm hexpect)

/-- A slot that expects none is full. -/
theorem Chip.slotWrite_full (hexpect : fld v 36 28 = 0) : s.slotWrite cl n v =
    (s.slotCounts cl n (slotCfg v)).slotFilled cl n (fld (s.reg (.gutter cl) (Off.GT_SLOT_FLAG n)) 0 16) := by
  obtain ⟨-, -, hfld⟩ := slotCfg_fields v
  obtain ⟨hcfg, hflag, hflag'⟩ := slotOffs_ne n
  have hzero : fld 0#64 0 28 = 0 := by decide
  rw [Chip.slotWrite_rise hv hold hlanes hfits, Chip.slotFull]
  simp only [Chip.reg_slotCounts _ _ _ hcl, if_true, if_neg hcfg, if_neg hflag, if_neg hflag', hzero, hfld, hexpect]
  exact if_neg fun h => h rfl

end Slot

theorem Chip.reg_gutter_countAccess (s : Chip) (cl : Nat) (pg : PageRef) (w : Bool) (off : Nat) :
    (s.countAccess pg w).reg (.gutter cl) off = s.reg (.gutter cl) off := by
  simp [Chip.reg, Chip.page]

section SlotEnable

variable {s : State} {cl n : Nat} {v : W} (hcl : cl < 4032) (hn : n < 16) (hr : Reaches s.toChip (.gutter cl))
  (hv : bit v 0 = true) (hold : bit (s.reg (.gutter cl) (Off.GT_SLOT_CFG n)) 0 = false) (hlanes : 1 ≤ fld v 16 20)
  (hfits : fld (s.reg (.gutter cl) (Off.GT_SLOT_BASE n)) 0 24 + 8 * fld v 16 20 ≤ storeSize)

include hcl hn hr hv

theorem exec_slotEnable : exec (.slotEnable cl n v) s =
    .next { s with toChip := (s.toChip.countAccess (.gutter cl) true).slotWrite cl n v } :=
  (State.run_cmdWrite (g := fun c => c.slotWrite cl n v) (ok := clOk cl && decide (n < 16)) (by simp [clOk, hcl, hn]) hr (by rw [if_pos hv]) :
    execSlotEnable cl n v s = _)

include hold hlanes hfits

theorem slotEnable_waits (hexpect : fld v 36 28 ≠ 0) : Completes (.slotEnable cl n v) s fun t =>
    t.reg (.gutter cl) (Off.GT_SLOT_CFG n) = slotCfg v ∧ t.reg (.gutter cl) (Off.GT_SLOT_COUNT n) = 0#64 ∧
      OtherClusters s t cl := by
  obtain ⟨hcfg, -, -⟩ := slotOffs_ne n
  refine ⟨_, exec_slotEnable hcl hn hr hv, ?_⟩
  rw [Chip.slotWrite_waits hcl hv (by rwa [Chip.reg_gutter_countAccess]) hlanes (by rwa [Chip.reg_gutter_countAccess]) hexpect]
  refine ⟨?_, ?_, fun k hk => ?_⟩
  · rw [Chip.reg_slotCounts _ _ _ hcl, if_neg hcfg, if_pos rfl]
  · rw [Chip.reg_slotCounts _ _ _ hcl, if_pos rfl]
  · rw [Chip.cl_slotCounts_other _ _ _ hk, Chip.cl_countAccess]

theorem slotEnable_full (hexpect : fld v 36 28 = 0) : Completes (.slotEnable cl n v) s fun t =>
    bit (t.reg (.gutter cl) (Off.GT_SLOT_CFG n)) 0 = false ∧
      (t.cl cl).sets = (s.cl cl).sets ++ [⟨.gutter, .flag (fld (s.reg (.gutter cl) (Off.GT_SLOT_FLAG n)) 0 16)⟩] ∧
      OtherClusters s t cl := by
  refine ⟨_, exec_slotEnable hcl hn hr hv, ?_⟩
  rw [Chip.slotWrite_full hcl hv (by rwa [Chip.reg_gutter_countAccess]) hlanes (by rwa [Chip.reg_gutter_countAccess]) hexpect,
    Chip.reg_gutter_countAccess]
  refine ⟨?_, ?_, fun k hk => ?_⟩
  · have hreg (t : Chip) (name : Nat) : (t.slotFilled cl n name).reg (.gutter cl) (Off.GT_SLOT_CFG n) =
        clrBit (t.reg (.gutter cl) (Off.GT_SLOT_CFG n)) 0 := by
      have hsame := t.reg_modReg (.gutter cl) (Off.GT_SLOT_CFG n) (Off.GT_SLOT_CFG n) (fun v => clrBit v 0) (unitPage_ok hcl 3)
      rw [if_pos rfl] at hsame
      rw [← hsame]
      simp [Chip.reg, Chip.page, Chip.slotFilled]
    rw [hreg, bit_clrBit_same]
  · rw [Chip.slotFilled, Chip.cl_modCl, if_pos rfl, Chip.modReg, Chip.sets_modPage_gutter, Chip.sets_slotCounts, Chip.cl_countAccess]
  · rw [Chip.slotFilled, Chip.cl_modCl, if_neg hk, Chip.modReg, Chip.cl_modPage_gutter_other _ _ hk,
      Chip.cl_slotCounts_other _ _ _ hk, Chip.cl_countAccess]

end SlotEnable

/-! ### CL_VFT_DATA (R199) -/

/-- The word of the table that CL_VFT_ADDR names. -/
def Chip.vftWordAt (s : Chip) (cl : Nat) : Nat := fld (s.reg (.cluster cl) Off.CL_VFT_ADDR) 0 10

/-- CL_VFT_ADDR names the next word. -/
def Chip.vftPast (s : Chip) (cl : Nat) : Chip :=
  s.setReg (.cluster cl) Off.CL_VFT_ADDR (BitVec.ofNat 64 ((s.vftWordAt cl + 1) % 1024))

theorem Chip.vftData_none (s : Chip) (cl : Nat) : s.vftData cl none = ((s.cl cl).vftRead (s.vftWordAt cl), s.vftPast cl) := rfl

theorem Chip.vftData_some (s : Chip) (cl : Nat) (v : W) :
    (s.vftData cl (some v)).2 = (s.vftPast cl).modCl cl fun x => x.vftWrite (s.vftWordAt cl) v := rfl

theorem Chip.vftWordAt_countAccess (s : Chip) (cl : Nat) (pg : PageRef) (w : Bool) :
    (s.countAccess pg w).vftWordAt cl = s.vftWordAt cl := by
  simp [Chip.vftWordAt, Chip.reg, Chip.page]

theorem clusterOk {cl : Nat} (hcl : cl < 4032) : (PageRef.cluster cl).ok = true := by simp [PageRef.ok, hcl]

section Vft

variable (s : Chip) (cl : Nat)

theorem Chip.vftWordAt_vftPast {cl : Nat} (hcl : cl < 4032) : (s.vftPast cl).vftWordAt cl = (s.vftWordAt cl + 1) % 1024 := by
  rw [Chip.vftPast, Chip.vftWordAt, Chip.reg_setReg _ _ _ _ _ (clusterOk hcl), if_pos rfl, fld, bits, BitVec.toNat_ofNat]
  simp only [Nat.shiftRight_zero]
  omega

theorem Chip.vft_vftPast : ((s.vftPast cl).cl cl).vft = (s.cl cl).vft := by
  simp [Chip.vftPast, Chip.setReg, Chip.modPage]

theorem Chip.cl_vftPast_other {k : Nat} (hk : k ≠ cl) : (s.vftPast cl).cl k = s.cl k := by
  simp [Chip.vftPast, Chip.setReg, Chip.modPage, hk]

end Vft

/-- The four entries of a word written, and the others. -/
theorem Cluster.vftEntry_vftWrite (x : Cluster) (w : Nat) (v : W) (i : Nat) : (x.vftWrite w v).vftEntry i =
    if 4 * w ≤ i ∧ i < 4 * w + 4 then BitVec.ofNat 16 (fld v (16 * (i - 4 * w)) 16) &&& 0xFF3F#16 else x.vftEntry i :=
  SMap.get_foldl_set 0#16 (fun i => BitVec.ofNat 16 (fld v (16 * i) 16) &&& 0xFF3F#16) (4 * w) 4 x.vft i

section VftAccess

variable {s : State} {cl : Nat} (hcl : cl < 4032) (hr : Reaches s.toChip (.cluster cl))

include hcl hr

theorem vftDataAccess_reads : Completes (.vftDataAccess cl none) s fun t =>
    t.out = s.out ++ [.readData ((s.cl cl).vftRead (s.toChip.vftWordAt cl))] ∧ (t.cl cl).vft = (s.cl cl).vft ∧
      t.toChip.vftWordAt cl = (s.toChip.vftWordAt cl + 1) % 1024 := by
  refine ⟨_, (State.run_onUnit (clOk_of_lt hcl) (congrArg _ (Chip.portAccess_read hr _ _)) :
    execVftDataAccess cl none s = _), ?_⟩
  rw [Chip.vftData_none, Chip.vftWordAt_countAccess, Chip.cl_countAccess]
  refine ⟨?_, ?_, ?_⟩
  · rw [Chip.out_emit, Chip.vftPast, Chip.setReg, Chip.out_modPage, Chip.out_countAccess]
  · rw [Chip.cl_emit_frame, Chip.vft_vftPast, Chip.cl_countAccess]
  · rw [← Chip.vftWordAt_countAccess s.toChip cl (.cluster cl) false, ← Chip.vftWordAt_vftPast _ hcl]
    rfl

theorem vftDataAccess_writes (v : W) : Completes (.vftDataAccess cl (some v)) s fun t =>
    (t.cl cl).vftEntry = ((s.cl cl).vftWrite (s.toChip.vftWordAt cl) v).vftEntry ∧ OtherClusters s t cl := by
  refine ⟨_, (State.run_onUnit (clOk_of_lt hcl) (congrArg _ (Chip.portAccess_write hr _ _ _)) :
    execVftDataAccess cl (some v) s = _), ?_⟩
  rw [Chip.vftData_some, Chip.vftWordAt_countAccess]
  refine ⟨funext fun i => ?_, fun k hk => ?_⟩
  · rw [Chip.cl_modCl, if_pos rfl, Cluster.vftEntry_vftWrite, Cluster.vftEntry_vftWrite]
    simp only [Cluster.vftEntry, Chip.vft_vftPast, Chip.cl_countAccess]
  · rw [Chip.cl_modCl, if_neg hk, Chip.cl_vftPast_other _ _ hk, Chip.cl_countAccess]

end VftAccess

end Sys2Proof.Machine
end

section
/-! O23: the flag unit (R196, R198), and the statement. -/

namespace Sys2Proof.Machine

open Sys2Proof

/-! ### One set -/

/-- The flag unit of cluster `cl` has no set left. -/
def Chip.setsTaken (s : Chip) (cl : Nat) : Chip :=
  (s.modCl cl fun x => { x with sets := [], deferred := [] }).count (.cluster cl) Off.CL_FLAG_DEFER 0

theorem Chip.cl_setsTaken (s : Chip) (cl k : Nat) : (s.setsTaken cl).cl k =
    if k = cl then { s.cl cl with
      sets := [], deferred := []
      page := (s.cl cl).page.modReg .cluster Off.CL_FLAG_DEFER fun v => v + 0#64 }
    else s.cl k := by
  by_cases hk : k = cl <;> simp [Chip.setsTaken, Chip.count, Chip.modReg, Chip.modPage, PageRef.block, hk]

/-- A cycle of the flag unit that has applied one set counts it. -/
def Chip.setCounted (s : Chip) (cl : Nat) : Chip := (s.count (.cluster cl) Off.CL_FLAG_SETS 1).setsTaken cl

/-- Beside the waiting sets it changes the cluster's page alone. -/
theorem Chip.cl_setCounted (s : Chip) (cl : Nat) : ∃ pg, ∀ k, (s.setCounted cl).cl k =
    if k = cl then { s.cl cl with sets := [], deferred := [], page := pg } else s.cl k := by
  refine ⟨((s.cl cl).page.modReg .cluster Off.CL_FLAG_SETS fun v => v + 1#64).modReg .cluster Off.CL_FLAG_DEFER
    fun v => v + 0#64, fun k => ?_⟩
  rw [Chip.setCounted, Chip.cl_setsTaken]
  split
  · simp [Chip.count, Chip.modReg, Chip.modPage, PageRef.block]
  · next hk => exact Chip.cl_count_cluster_other _ _ _ hk

theorem Chip.ringReg_setCounted (s : Chip) {cl u : Nat} (hu : u < 5) (q k : Nat) :
    (s.setCounted cl).ringReg cl u q k = s.ringReg cl u q k := by
  obtain ⟨pg, hcl⟩ := s.cl_setCounted cl
  simp only [Chip.ringReg, Chip.reg, Chip.page_unitPage _ hu, hcl, if_true]
  rfl

/-- A doorbell names a ring of one of the five units (R196). -/
theorem Cluster.setPlace_ring {x : Cluster} {target : SetTarget} {u q : Nat} (h : x.setPlace target = .ring u q) : u < 5 := by
  cases target with
  | flag name =>
    simp only [Cluster.setPlace] at h
    split at h
    · cases h
    · split at h <;> cases h
  | doorbell c =>
    simp only [Cluster.setPlace] at h
    split_ifs at h <;> (obtain ⟨rfl, -⟩ := SetPlace.ring.inj h; decide)

section One

variable {s : State} {cl : Nat} {p : PendingSet} (hcl : cl < 4032) (hbay : s.bayRuns (clBay cl) = true)
  (hsets : (s.cl cl).sets = [p]) (hdeferred : (s.cl cl).deferred = [])

include hcl hbay hsets hdeferred

/-- The one set that waits is applied, and none is left. -/
theorem exec_flagSetApply_one {t : Chip} (happly : Chip.applySets cl [p] [] [] s.toChip = ([], t)) :
    exec (.flagSetApply cl) s = .next { s with toChip := t.setsTaken cl } := by
  refine (State.run_onUnit (b := decide (cl < 4032)) (by simp [hcl]) (congrArg _ ?_) : execFlagSetApply cl s = _)
  simp only [hbay, Bool.not_true, Bool.false_eq_true, if_false, hsets, hdeferred, List.nil_append,
    show inOrder [p] = [p] from rfl, happly]
  rfl

/-- A set of a core flag or a doorbell is counted as applied (R198). -/
theorem exec_flagSetApply {place : SetPlace} (hplace : (s.cl cl).setPlace p.target = place) (hbad : place ≠ .bad)
    (hpost : ∀ i, place ≠ .post i) :
    exec (.flagSetApply cl) s = .next { s with toChip := (s.toChip.applyPlace cl place).setCounted cl } := by
  refine exec_flagSetApply_one hcl hbay hsets hdeferred ?_
  cases place with
  | bad => exact absurd rfl hbad
  | post i => exact absurd rfl (hpost i)
  | core n f => simp [Chip.applySets, hplace]
  | ring u q => simp [Chip.applySets, hplace]

/-- A name of no flag is counted as such. -/
theorem exec_flagSetApply_bad (hplace : (s.cl cl).setPlace p.target = .bad) : exec (.flagSetApply cl) s =
    .next { s with toChip := (s.toChip.countSat (.cluster cl) Off.CL_FLAG_BAD 16 1).setsTaken cl } :=
  exec_flagSetApply_one hcl hbay hsets hdeferred (by simp [Chip.applySets, hplace, Chip.applyPlace])

theorem flagSetApply_core {n f : Nat} (hplace : (s.cl cl).setPlace p.target = .core n f) :
    Completes (.flagSetApply cl) s fun t =>
      t.core cl n = (s.core cl n).applySet f ∧ (t.cl cl).sets = [] ∧ OtherClusters s t cl := by
  refine ⟨_, exec_flagSetApply hcl hbay hsets hdeferred hplace (by simp) (by simp), ?_⟩
  obtain ⟨hcore, hothers⟩ := (Makes.refl s.toChip cl n).modCoreF fun c => c.applySet f
  obtain ⟨pg, hcl'⟩ := (s.toChip.applyPlace cl (.core n f)).cl_setCounted cl
  refine ⟨?_, ?_, fun k hk => ?_⟩
  · rw [Chip.core, hcl', if_pos rfl]
    exact hcore
  · rw [hcl', if_pos rfl]
  · rw [hcl', if_neg hk]
    exact hothers k hk

theorem flagSetApply_ring {u q : Nat} (hplace : (s.cl cl).setPlace p.target = .ring u q) (howner : s.ringOwner cl u q = false)
    (hfits : ((s.ringReg cl u q 3 + 1) % 65536 + 65536 - s.ringReg cl u q 2) % 65536 ≤ s.ringSize cl u q) :
    Completes (.flagSetApply cl) s fun t =>
      t.ringReg cl u q 3 = (s.ringReg cl u q 3 + 1) % 65536 ∧ (t.cl cl).sets = [] ∧ OtherClusters s t cl := by
  have hu := Cluster.setPlace_ring hplace
  obtain ⟨htail, -, hothers⟩ := rung_ringTail hcl hu hfits
  have hring : s.toChip.applyPlace cl (.ring u q) = s.toChip.ringTail cl u q (s.ringReg cl u q 3 + 1) := by
    simp [Chip.applyPlace, Chip.doorbell, howner]
  refine ⟨_, exec_flagSetApply hcl hbay hsets hdeferred hplace (by simp) (by simp), ?_⟩
  rw [hring]
  obtain ⟨pg, hcl'⟩ := (s.toChip.ringTail cl u q (s.ringReg cl u q 3 + 1)).cl_setCounted cl
  refine ⟨?_, ?_, fun k hk => ?_⟩
  · rw [← htail]
    exact Chip.ringReg_setCounted _ hu q 3
  · rw [hcl', if_pos rfl]
  · rw [hcl', if_neg hk, hothers k hk]

theorem flagSetApply_bad (hplace : (s.cl cl).setPlace p.target = .bad) : Completes (.flagSetApply cl) s fun t =>
    fld (t.reg (.cluster cl) Off.CL_FLAG_BAD) 0 16 = min 65535 (fld (s.reg (.cluster cl) Off.CL_FLAG_BAD) 0 16 + 1) ∧
      (t.cl cl).sets = [] ∧ (t.cl cl).cores = (s.cl cl).cores := by
  have hreg (t : Chip) : (t.setsTaken cl).reg (.cluster cl) Off.CL_FLAG_BAD = t.reg (.cluster cl) Off.CL_FLAG_BAD := by
    simp only [Chip.reg, Chip.page, Chip.cl_setsTaken, if_true, PageRef.block]
    rw [Page.reg_modReg, if_neg (by decide)]
  refine ⟨_, exec_flagSetApply_bad hcl hbay hsets hdeferred hplace, ?_, ?_, ?_⟩
  · rw [hreg, Chip.countSat, Chip.reg_modReg _ _ _ _ _ (clusterOk hcl), if_pos rfl, fld_satField _ _ (by decide)]
    rfl
  · rw [Chip.cl_setsTaken, if_pos rfl]
  · rw [Chip.cl_setsTaken, if_pos rfl]
    simp [Chip.countSat, Chip.modReg, Chip.modPage]

end One

/-! ### The statement -/

/-- Settles O23, from a rise of a slot's ENABLE (`Chip.slotWrite_rise`), the data port of the table and the application
of one set (`exec_flagSetApply`). -/
theorem slotsAndFlagUnit : Obligations.SlotsAndFlagUnit := by
  refine ⟨fun s cl n v hcl => ⟨?_, ?_, fun hr => ?_⟩, fun s cl p hcl hbay hsets hdeferred => ⟨?_, ?_, ?_⟩⟩
  · exact fun hn hr hv hold hlanes hexpect hfits => slotEnable_waits hcl hn hr hv hold hlanes hfits hexpect
  · exact fun hn hr hv hold hlanes hexpect hfits => slotEnable_full hcl hn hr hv hold hlanes hfits hexpect
  · intro w
    obtain ⟨t, ht, hentry, hothers⟩ := vftDataAccess_writes hcl hr v
    refine ⟨vftDataAccess_reads hcl hr, t, ht, fun i hi => ?_, fun i hi => ?_, hothers⟩
    · rw [hentry, Cluster.vftEntry_vftWrite, Chip.vftWordAt, if_pos (by omega), Nat.add_sub_cancel_left]
    · rw [hentry, Cluster.vftEntry_vftWrite, Chip.vftWordAt, if_neg (by omega)]
  · exact fun n f hplace => flagSetApply_core hcl hbay hsets hdeferred hplace
  · exact fun u q hplace howner hfits => flagSetApply_ring hcl hbay hsets hdeferred hplace howner hfits
  · exact flagSetApply_bad hcl hbay hsets hdeferred

end Sys2Proof.Machine
end

section
/-! O24: the bytes of a thatcher's ranges, and the pieces they are read in (R213 to R217, R267). -/

namespace Sys2Proof.Machine

open Sys2Proof

/-! ### The bytes of ranges -/

/-- The bytes of the ranges from SRC `a`, in order, where the store holds `m`. -/
def sourceBytes (m : Mem) (a : Nat) (rs : List (Nat × Nat)) : List Byte := rs.flatMap fun r => Memory.read m (a + r.1) r.2

theorem sourceBytes_cons (m : Mem) (a o l : Nat) (rs : List (Nat × Nat)) :
    sourceBytes m a ((o, l) :: rs) = Memory.read m (a + o) l ++ sourceBytes m a rs := rfl

/-- Past the ranges no byte is left. -/
theorem length_sourceBytes_le (m : Mem) (a : Nat) {rs : List (Nat × Nat)} {p : Nat} (h : rangeAt rs p = none) :
    (sourceBytes m a rs).length ≤ p := by
  induction rs generalizing p with
  | nil => exact Nat.zero_le p
  | cons r rs ih =>
    obtain ⟨o, l⟩ := r
    rw [rangeAt] at h
    split at h
    · cases h
    · have hrest := ih h
      rw [sourceBytes_cons, List.length_append, Memory.length_read]
      omega

/-- The bytes at position `p` of the ranges lie where `rangeAt` says. -/
theorem slice_sourceBytes (m : Mem) (a : Nat) {rs : List (Nat × Nat)} {p o left k : Nat} (h : rangeAt rs p = some (o, left))
    (hk : k ≤ left) : slice (sourceBytes m a rs) p k = Memory.read m (a + o) k := by
  induction rs generalizing p with
  | nil => cases h
  | cons r rs ih =>
    obtain ⟨o', l⟩ := r
    have hlen := Memory.length_read m (a + o') l
    rw [rangeAt] at h
    split at h
    · next hp =>
      obtain ⟨rfl, rfl⟩ := Prod.mk.inj (Option.some.inj h)
      rw [← Nat.add_assoc, ← slice_read m (a + o') (k := l) (by omega), sourceBytes_cons, slice, slice,
        List.drop_append_of_le_length (by omega), List.take_append_of_le_length (by rw [List.length_drop]; omega)]
    · next hp =>
      have hdrop : (Memory.read m (a + o') l).drop p = [] := List.drop_eq_nil_of_le (by omega)
      rw [← ih h, sourceBytes_cons, slice, slice, List.drop_append, hdrop, hlen, List.nil_append]

/-! ### Pieces: a read ends at a page boundary -/

/-- Bytes of the piece that is read where `left` bytes of a range lie from `x` on. -/
def pieceOf (x left : Nat) : Nat := min left (4096 - x % 4096)

/-- Pages that `n` bytes from `x` touch. -/
def pagesOf (x n : Nat) : Nat := if n = 0 then 0 else (x + n - 1) / 4096 - x / 4096 + 1

/-- Pieces left of the ranges from SRC `a`, from position `p` on. -/
def piecesLeft (a : Nat) : List (Nat × Nat) → Nat → Nat
  | [], _ => 0
  | (o, l) :: rs, p => pagesOf (a + o + p) (l - p) + piecesLeft a rs (p - l)

theorem pagesOf_piece {x n : Nat} (hn : 0 < n) : pagesOf (x + pieceOf x n) (n - pieceOf x n) < pagesOf x n := by
  unfold pagesOf pieceOf
  split <;> split <;> omega

/-- Each piece read is one less to read. -/
theorem piecesLeft_piece {a : Nat} {rs : List (Nat × Nat)} {p o left : Nat} (h : rangeAt rs p = some (o, left)) :
    piecesLeft a rs (p + pieceOf (a + o) left) < piecesLeft a rs p := by
  induction rs generalizing p with
  | nil => cases h
  | cons r rs ih =>
    obtain ⟨o', l⟩ := r
    rw [rangeAt] at h
    split at h
    · next hp =>
      obtain ⟨rfl, rfl⟩ := Prod.mk.inj (Option.some.inj h)
      have hpage := pagesOf_piece (x := a + o' + p) (n := l - p) (by omega)
      have hle : pieceOf (a + o' + p) (l - p) ≤ l - p := Nat.min_le_left _ _
      have hrest : p + pieceOf (a + o' + p) (l - p) - l = p - l := by omega
      rw [← Nat.add_assoc a, piecesLeft, piecesLeft, hrest, ← Nat.add_assoc (a + o'), ← Nat.sub_sub l]
      omega
    · next hp =>
      have hrest := ih h
      have hpast : p + pieceOf (a + o) left - l = p - l + pieceOf (a + o) left := by omega
      have hl : l - p = 0 := by omega
      have hl' : l - (p + pieceOf (a + o) left) = 0 := by omega
      rw [piecesLeft, piecesLeft, hpast, hl, hl', pagesOf, if_pos rfl, pagesOf, if_pos rfl]
      omega

/-- Ranges of up to 64 KiB touch at most 18 pages each. -/
theorem piecesLeft_le {a : Nat} {rs : List (Nat × Nat)} (h : ∀ r ∈ rs, r.2 ≤ 65536) :
    piecesLeft a rs 0 ≤ 18 * rs.length := by
  induction rs with
  | nil => exact Nat.le_refl 0
  | cons r rs ih =>
    obtain ⟨o, l⟩ := r
    have hl : l ≤ 65536 := h _ List.mem_cons_self
    have hrest := ih fun r hr => h r (List.mem_cons_of_mem _ hr)
    have hpages : pagesOf (a + o) l ≤ 18 := by unfold pagesOf; split <;> omega
    rw [piecesLeft, List.length_cons, Nat.add_zero, Nat.sub_zero, Nat.zero_sub]
    omega

/-! ### The ranges of a command -/

theorem elemWidth_le (f : Nat) : elemWidth f ≤ 32 := by
  unfold elemWidth; split <;> decide

theorem tileE_le (f : Nat) : tileE f ≤ 128 := by
  have hw := elemWidth_le f
  unfold tileE; split <;> omega

theorem tileG_le (f : Nat) : tileG f ≤ 2 := by
  unfold tileG; split
  · exact Nat.le_refl 2
  · split <;> decide

theorem pairBlock_le (f : Nat) : pairBlock f ≤ 129 := by
  have hw := elemWidth_le f
  unfold pairBlock blockBytes
  repeat' split
  all_goals omega

theorem length_blocksOf_le (mask : Nat) : (blocksOf mask).length ≤ 64 :=
  (List.length_filter_le ..).trans_eq List.length_range

/-- At most `n` ranges, of up to 64 KiB each. -/
structure Few (n : Nat) (rs : List (Nat × Nat)) : Prop where
  count : rs.length ≤ n
  size : ∀ r ∈ rs, r.2 ≤ 65536

section Ranges

variable {n k w : Nat} {rs rs' : List (Nat × Nat)}

theorem few_nil (n : Nat) : Few n [] := ⟨Nat.zero_le n, fun _ hr => nomatch hr⟩

theorem Few.append (h : Few n rs) (h' : Few k rs') : Few (n + k) (rs ++ rs') :=
  ⟨by rw [List.length_append]; exact Nat.add_le_add h.count h'.count,
    fun r hr => (List.mem_append.1 hr).elim (h.size r) (h'.size r)⟩

theorem Few.mono (h : Few n rs) (hk : n ≤ k) : Few k rs := ⟨h.count.trans hk, h.size⟩

theorem few_map {l : List Nat} (o : Nat → Nat) (hl : l.length ≤ n) (hw : w ≤ 65536) :
    Few n (l.map fun i => (o i, w)) := by
  refine ⟨by rwa [List.length_map], fun r hr => ?_⟩
  obtain ⟨i, -, rfl⟩ := List.mem_map.1 hr
  exact hw

/-- Of each row, the ranges of the columns that are present. -/
theorem few_grid (n k : Nat) (here : Nat → Nat → Bool) (o : Nat → Nat → Nat) (hw : w ≤ 65536) :
    Few (n * k) ((List.range n).flatMap fun r => (List.range k).filterMap fun i =>
      if here r i then some (o r i, w) else none) := by
  refine ⟨?_, fun x hx => ?_⟩
  · induction n with
    | zero => exact Nat.zero_le _
    | succ n ih =>
      have hrow := List.length_filterMap_le (fun i => if here n i then some (o n i, w) else none) (List.range k)
      rw [List.length_range] at hrow
      rw [List.range_succ, List.flatMap_append, List.length_append, List.flatMap_singleton, Nat.succ_mul]
      omega
  · simp only [List.mem_flatMap, List.mem_filterMap, Option.ite_none_right_eq_some, Option.some.injEq] at hx
    obtain ⟨r, -, i, -, -, rfl⟩ := hx
    exact hw

/-- So few ranges are read within the thatcher's turns. -/
theorem Few.piecesLeft_lt (h : Few 1600 rs) (a : Nat) : piecesLeft a rs 0 < 70000 := by
  have hle := piecesLeft_le (a := a) h.size
  have hcount := h.count
  omega

end Ranges

theorem few_packRanges (c : BitVec 512) : Few 1600 (packRanges c) := by
  have hw : 16 * packElemLen c ≤ 65536 := by unfold packElemLen; split <;> decide
  exact (few_grid 128 8 _ _ hw).mono (by decide)

theorem few_tileRanges (h : List Byte) : Few 1600 ((0, 16) :: tileRanges h) := by
  have he := tileE_le (hdrFmt h)
  have hg := tileG_le (hdrFmt h)
  have hhead : Few 1 [(0, 16)] := ⟨Nat.le_refl 1, by decide⟩
  suffices hdata : Few 1536 (tileRanges h) from (hhead.append hdata).mono (by decide)
  unfold tileRanges
  split
  · have hblock : blockLen (hdrFmt h) ≤ 65536 := by unfold blockLen; omega
    exact (few_map _ (List.length_range.trans_le (length_blocksOf_le _)) hblock).mono (by decide)
  · have hhalf : tileE (hdrFmt h) / 2 ≤ 65536 := by omega
    refine (few_grid 128 8 _ _ hhalf).append (k := 512) ?_
    split
    · exact few_nil _
    · exact few_grid 128 4 _ _ (by omega)

theorem few_gatherRanges (c : BitVec 512) : Few 1600 ((gatherKb c).map fun kb => (kb * gatherLen c, gatherLen c)) := by
  have hn : tN c < 256 := Nat.mod_lt _ (by decide)
  have hlen : gatherLen c ≤ 255 * 129 := Nat.mul_le_mul (by omega) (pairBlock_le _)
  exact (few_map _ (length_blocksOf_le _) (hlen.trans (by decide))).mono (by decide)

end Sys2Proof.Machine
end

section
/-! O24: the thatcher reads its source and writes its destination in the cluster's own store (R213 to R216). -/

namespace Sys2Proof.Machine

open Sys2Proof

/-! ### The write phase -/

theorem Memory.write_append (m : Mem) (a : Nat) (xs ys : List Byte) :
    Memory.write m a (xs ++ ys) = Memory.write (Memory.write m a xs) (a + xs.length) ys := by
  induction xs generalizing m a with
  | nil => rfl
  | cons x xs ih =>
    rw [List.cons_append, Memory.write, ih, Memory.write, List.length_cons, Nat.add_assoc, Nat.add_comm 1]

section Phases

variable {s t : Chip} {cl a d : Nat} {m : Mem} {c : BitVec 512}

theorem RingHas.modReg {u q : Nat} {l : List Active} (h : RingHas s t cl u q m l) (hu : u < 5) (off : Nat) (f : W → W) :
    RingHas s (t.modReg (unitPage cl u) off f) cl u q m l := by
  rw [Chip.modReg, Chip.modPage_unitPage t hu]
  exact h.modEngine hu h.list

/-- Line by line the bytes of `out` from `p` on are stored, and the command finishes. -/
theorem RingHas.thWrite {x : Active} (hx : x.place = 0) (out : List Byte) {fuel p : Nat} (hp : p ≤ out.length)
    (hfuel : out.length < p + fuel) (h : RingHas s t cl 2 0 m [x]) :
    RingHas s (Chip.thWrite cl (.store d) out fuel p t) cl 2 0 (Memory.write m (d + p) (out.drop p))
      [{ x with progress := out.length, finished := true }] := by
  induction fuel generalizing p t m with
  | zero => omega
  | succ fuel ih =>
    rw [Chip.thWrite]
    by_cases hend : out.length ≤ p
    · obtain rfl : p = out.length := by omega
      rw [if_pos hend, List.drop_length, Memory.write]
      have hdone := (h.setProgress (by decide) 0 out.length).finish (by decide) 0
      simpa only [List.map_cons, List.map_nil, hx, if_true] using hdone
    · simp only [ge_iff_le, if_neg hend, Loc.plus, Loc.addr]
      generalize hn : min (out.length - p) (64 - (d + p) % 64) = n
      have hlen : ((out.drop p).take n).length = n := by rw [List.length_take, List.length_drop]; omega
      have hsplit : out.drop p = (out.drop p).take n ++ out.drop (p + n) := by
        rw [← List.drop_drop, List.take_append_drop]
      obtain ⟨v, hwrite, hv⟩ := h.unitWrite 0 (d + p) ((out.drop p).take n)
      rw [hwrite, hsplit, Memory.write_append, hlen, Nat.add_assoc]
      exact ih (by omega) (by omega) (hv.count (by decide) _ _)

/-- A command that begins to write stores all of `out` and finishes. -/
theorem RingHas.thTurn {x : Active} (hx : x.place = 0) (out : List Byte) (h : RingHas s t cl 2 0 m [x]) :
    RingHas s (t.thTurn cl (.store d) out) cl 2 0 (Memory.write m d out)
      [{ x with phase := true, progress := out.length, finished := true }] := by
  have hbegun : RingHas s (t.modEngine cl 2 fun e =>
      { e.modCmd 0 0 fun a => { a with phase := true, progress := 0 } with buf := out }) cl 2 0 m
      [{ x with phase := true, progress := 0 }] := by
    refine h.modEngine (by decide) ?_
    have hmod := Engine.modCmd_list ((t.cl cl).engine 2) 0 0 fun a => { a with phase := true, progress := 0 }
    rw [h.list, List.map_singleton, if_pos hx] at hmod
    exact hmod
  exact hbegun.thWrite (x := { x with phase := true, progress := 0 }) hx out (Nat.zero_le _) (by omega)

/-! ### The read phase -/

/-- Command `c` of the thatcher has read the bytes `b` of its source; the store holds `m`. -/
structure ThatcherHas (s t : Chip) (cl : Nat) (m : Mem) (c : BitVec 512) (b : List Byte) : Prop
    extends RingHas s t cl 2 0 m [{ cmd := c, progress := b.length }] where
  buf : (t.cl cl).thatcher.buf = b

/-- With its header read, an UNPACK finds a tile that it performs (R211, R214, R219). -/
def HeaderPasses (c : BitVec 512) (src : Loc) (b : List Byte) : Prop :=
  cmdFld c 0 1 = 2 → b.length = 16 →
    tileBad b = false ∧ hdrMask b = tMask c ∧ (tileRanges b).any (fun r => !src.fits (r.1 + r.2)) = false

theorem HeaderPasses.tests {src : Loc} {b : List Byte} (h : HeaderPasses c src b) :
    let header := decide (cmdFld c 0 1 = 2) && decide (b.length = 16)
    (header && tileBad b) = false ∧ (header && decide (hdrMask b ≠ tMask c)) = false ∧
      (header && (tileRanges b).any fun r => !src.fits (r.1 + r.2)) = false := by
  by_cases hheader : cmdFld c 0 1 = 2 ∧ b.length = 16
  · obtain ⟨hbad, hmask, hfits⟩ := h hheader.1 hheader.2
    simp [hbad, hmask, hfits]
  · simp only [← Bool.decide_and, hheader, decide_false, Bool.false_and, and_self]

variable {src : Loc} {b : List Byte}

/-- Everything is read. -/
theorem ThatcherHas.thRead_end (h : ThatcherHas s t cl m c b) (hpass : HeaderPasses c src b)
    (hat : rangeAt (thRanges c b) b.length = none) (dst : Loc) (fuel : Nat) :
    Chip.thRead cl c src dst (fuel + 1) t = t.thDone cl c dst b := by
  obtain ⟨hbad, hmask, hfits⟩ := hpass.tests
  rw [Chip.thRead]
  simp only [h.buf, hbad, hmask, hfits, Bool.false_eq_true, if_false, hat]

/-- One piece is read. -/
theorem ThatcherHas.thRead_piece (h : ThatcherHas s t cl m c b) (hpass : HeaderPasses c (.store a) b) {o left : Nat}
    (hat : rangeAt (thRanges c b) b.length = some (o, left)) (dst : Loc) (fuel : Nat) :
    ∃ v, Chip.thRead cl c (.store a) dst (fuel + 1) t = Chip.thRead cl c (.store a) dst fuel v ∧
      ThatcherHas s v cl m c (b ++ Memory.read m (a + o) (pieceOf (a + o) left)) := by
  obtain ⟨hbad, hmask, hfits⟩ := hpass.tests
  obtain ⟨v, hread, hv⟩ := h.toRingHas.unitRead 0 false (a + o) (pieceOf (a + o) left)
  have hu : 2 < 5 := by decide
  have hlen : (b ++ Memory.read m (a + o) (pieceOf (a + o) left)).length = b.length + pieceOf (a + o) left := by
    rw [List.length_append, Memory.length_read]
  have hbuffered := (hv.count hu Off.TH_LINES (freshLines (.store a) (rangeTake (thRanges c b) b.length) o
    (pieceOf (a + o) left))).modEngine hu
    (f := fun e => { e with buf := b ++ Memory.read m (a + o) (pieceOf (a + o) left) }) (hv.count hu _ _).list
  have hmoved := (hbuffered.setProgress hu 0 (b.length + pieceOf (a + o) left)).dropHost hu
  rw [List.map_singleton, if_pos rfl, ← hlen] at hmoved
  refine ⟨_, ?_, hmoved, ?_⟩
  · rw [Chip.thRead]
    simp only [h.buf, hbad, hmask, hfits, Bool.false_eq_true, if_false, hat, Loc.plus, Loc.addr]
    rw [pieceOf] at hread
    simp only [hread, hlen]
    rfl
  · simp [Chip.dropHost, Chip.setProgress, Chip.modEngine, Cluster.modEngine, Engine.modCmd, Engine.setList]

/-- The ranges `rs` are what command `c` reads from SRC `a`, and each buffer on the way passes. -/
structure Source (m : Mem) (a : Nat) (c : BitVec 512) (rs : List (Nat × Nat)) : Prop where
  few : Few 1600 rs
  ranges : ∀ p ≤ (sourceBytes m a rs).length,
    rangeAt (thRanges c ((sourceBytes m a rs).take p)) p = rangeAt rs p
  passes : ∀ p ≤ (sourceBytes m a rs).length, HeaderPasses c (.store a) ((sourceBytes m a rs).take p)

/-- Piece by piece the whole source is read, from position `p` on. -/
theorem Source.thRead {rs : List (Nat × Nat)} (hs : Source m a c rs) (dst : Loc) {p : Nat}
    (hp : p ≤ (sourceBytes m a rs).length) {fuel : Nat} (hfuel : piecesLeft a rs p < fuel)
    (h : ThatcherHas s t cl m c ((sourceBytes m a rs).take p)) :
    ∃ v, Chip.thRead cl c (.store a) dst fuel t = v.thDone cl c dst (sourceBytes m a rs) ∧
      ThatcherHas s v cl m c (sourceBytes m a rs) := by
  induction fuel generalizing p t with
  | zero => omega
  | succ fuel ih =>
    have hlen : ((sourceBytes m a rs).take p).length = p := List.length_take_of_le hp
    have hat := hs.ranges p hp
    rcases hnext : rangeAt rs p with _ | ⟨o, left⟩
    · have hall : (sourceBytes m a rs).take p = sourceBytes m a rs :=
        List.take_of_length_le (length_sourceBytes_le m a hnext)
      have hend := h.thRead_end (hs.passes p hp) (by rw [hlen, hat, hnext]) dst fuel
      rw [hall] at hend h
      exact ⟨t, hend, h⟩
    · obtain ⟨v, hread, hv⟩ := h.thRead_piece (hs.passes p hp) (by rw [hlen, hat, hnext]) dst fuel
      have hslice := slice_sourceBytes m a (k := pieceOf (a + o) left) hnext (Nat.min_le_left _ _)
      have hread' : (sourceBytes m a rs).take p ++ Memory.read m (a + o) (pieceOf (a + o) left) =
          (sourceBytes m a rs).take (p + pieceOf (a + o) left) := by
        rw [← hslice, slice, List.take_add]
      have hin : p + pieceOf (a + o) left ≤ (sourceBytes m a rs).length := by
        have hlength := congrArg List.length hslice
        rw [Memory.length_read, slice, List.length_take, List.length_drop] at hlength
        omega
      rw [hread'] at hv
      rw [hread]
      exact ih hin (by have := piecesLeft_piece (a := a) hnext; omega) hv

end Phases

/-! ### The sources of the commands -/

section Sources

variable {m : Mem} {a : Nat} {c : BitVec 512}

/-- Ranges that the buffer does not change. -/
theorem source_of_thRanges (hop : cmdFld c 0 1 ≠ 2) {rs : List (Nat × Nat)} (hrs : ∀ b, thRanges c b = rs)
    (hfew : Few 1600 rs) : Source m a c rs :=
  ⟨hfew, fun p _ => by rw [hrs], fun _ _ h => absurd h hop⟩

theorem source_pack (hop : cmdFld c 0 1 = 1) : Source m a c (thRanges c []) := by
  have hrs (b : List Byte) : thRanges c b = packRanges c := by simp only [thRanges, hop]
  rw [hrs]
  exact source_of_thRanges (by omega) hrs (few_packRanges c)

theorem source_gather (hop : cmdFld c 0 1 = 3) : Source m a c (thRanges c []) := by
  have hrs (b : List Byte) : thRanges c b = (gatherKb c).map fun kb => (kb * gatherLen c, gatherLen c) := by
    simp only [thRanges, hop]
  rw [hrs]
  exact source_of_thRanges (by omega) hrs (few_gatherRanges c)

/-- The ranges of an UNPACK follow from its header, which it reads first. -/
theorem source_unpack {h : List Byte} (hh : Memory.read m a 16 = h) (hop : cmdFld c 0 1 = 2) (hbad : tileBad h = false)
    (hmask : hdrMask h = tMask c) (hfits : ∀ r ∈ tileRanges h, a + r.1 + r.2 ≤ storeSize) :
    Source m a c ((0, 16) :: tileRanges h) := by
  have hhead : sourceBytes m a ((0, 16) :: tileRanges h) = h ++ sourceBytes m a (tileRanges h) := by
    rw [sourceBytes_cons, Nat.add_zero, hh]
  have hlen : h.length = 16 := hh ▸ Memory.length_read m a 16
  have htake {p : Nat} (hp : 16 ≤ p) : ((sourceBytes m a ((0, 16) :: tileRanges h)).take p).take 16 = h := by
    rw [List.take_take, Nat.min_eq_left hp, hhead, List.take_left' hlen]
  refine ⟨few_tileRanges h, fun p hp => ?_, fun p hp _ hp16 => ?_⟩
  · simp only [thRanges, hop, List.length_take_of_le hp]
    split
    · next hlt => rw [rangeAt, if_pos hlt, rangeAt, if_pos hlt]
    · next hge => rw [htake (Nat.not_lt.1 hge)]
  · have hbuf := htake ((List.length_take_of_le hp).symm.trans hp16).ge
    rw [List.take_of_length_le hp16.le] at hbuf
    rw [hbuf]
    refine ⟨hbad, hmask, List.any_eq_false.2 fun r hr => ?_⟩
    have hin := hfits r hr
    simp only [Loc.fits, Bool.not_eq_true', decide_eq_false_iff_not, not_not]
    omega

end Sources

end Sys2Proof.Machine
end

section
/-! O24: the thatcher's commands (R213 to R216). -/

namespace Sys2Proof.Machine

open Sys2Proof

/-! ### What a command writes -/

/-- What an UNPACK writes of the tile with header `h` whose other bytes read are `data` (R214). -/
def unpackedBytes (c : BitVec 512) (h data : List Byte) : List Byte :=
  (if tFlag c 2 then (Tile.ofRead h data).transpose else Tile.ofRead h data).operand (tFlag c 1)

section Done

variable {s t : Chip} {cl d : Nat} {m : Mem} {c : BitVec 512} {b : List Byte}

/-- In state `t` command `c` has stored `bs` at `d` of the store that held `m`, and nothing else, and has finished. -/
def TileWritten (s t : Chip) (cl d : Nat) (m : Mem) (c : BitVec 512) (bs : List Byte) : Prop :=
  RingHas s t cl 2 0 (Memory.write m d bs) [{ cmd := c, phase := true, progress := bs.length, finished := true }]

theorem ThatcherHas.thDone_pack (h : ThatcherHas s t cl m c b) (hop : cmdFld c 0 1 = 1) :
    TileWritten s (t.thDone cl c (.store d) b) cl d m c (packTile c b).1.stored := by
  simp only [Chip.thDone, hop]
  exact ((h.toRingHas.modReg (by decide) _ _).count (by decide) _ _).thTurn rfl _

/-- The header is the first sixteen bytes read. -/
theorem ThatcherHas.thDone_unpack {h data : List Byte} (ht : ThatcherHas s t cl m c (h ++ data)) (hop : cmdFld c 0 1 = 2)
    (hlen : h.length = 16) (hfits : d + (unpackedBytes c h data).length ≤ storeSize) :
    TileWritten s (t.thDone cl c (.store d) (h ++ data)) cl d m c (unpackedBytes c h data) := by
  rw [unpackedBytes] at hfits
  simp only [Chip.thDone, hop, List.take_left' hlen, List.drop_left' hlen, Loc.fits, hfits, decide_true, Bool.not_true,
    Bool.false_eq_true, if_false]
  exact (ht.toRingHas.count (by decide) _ _).thTurn rfl _

theorem ThatcherHas.thDone_gather (h : ThatcherHas s t cl m c b) (hop : cmdFld c 0 1 = 3) :
    TileWritten s (t.thDone cl c (.store d) b) cl d m c b := by
  simp only [Chip.thDone, hop]
  exact h.toRingHas.thTurn rfl _

end Done

/-! ### The commands -/

/-- Command `c`, not yet begun, is the one in progress on the thatcher, between places of the cluster's own store. -/
structure ThatcherReady (s : State) (cl a d : Nat) (c : BitVec 512) : Prop where
  cluster : cl < 4032
  runs : s.ringRuns cl 2 0 = true
  list : (s.cl cl).thatcher.list 0 = [{ cmd := c }]
  buf : (s.cl cl).thatcher.buf = []
  clean : (s.cl cl).storeErr = []
  src : locOf false (cmdFld c 8 8) = some (.store a)
  dst : locOf false (cmdFld c 16 8) = some (.store d)

/-- The thatcher has stored the bytes `bs` at `d`, and nothing else, and its commands have finished. -/
def TileMoved (s t : State) (cl d : Nat) (bs : List Byte) : Prop :=
  Memory.read (t.cl cl).store d bs.length = bs ∧
    (∀ k, k < d ∨ d + bs.length ≤ k → Memory.readByte (t.cl cl).store k = Memory.readByte (s.cl cl).store k) ∧
    ((t.cl cl).thatcher.list 0).all (·.finished) = true ∧ OtherClusters s t cl

/-- The command of OP `op` reads its source and then stores `out`. -/
theorem ThatcherReady.completes {s : State} {i : Instr} {cl a d op : Nat} {c : BitVec 512} {rs : List (Nat × Nat)}
    {out : List Byte} (hr : ThatcherReady s cl a d c)
    (hexec : exec i s = s.run fun x => onUnit (cl < 4032) (x.thatcherRun cl op)) (hop : cmdFld c 0 1 = op)
    (hsource : Source (s.cl cl).store a c rs)
    (hdone : ∀ t, ThatcherHas s.toChip t cl (s.cl cl).store c (sourceBytes (s.cl cl).store a rs) →
      TileWritten s.toChip (t.thDone cl c (.store d) (sourceBytes (s.cl cl).store a rs)) cl d (s.cl cl).store c out) :
    Completes i s fun t => TileMoved s t cl d out := by
  obtain ⟨hcl, hruns, hlist, hbuf, hclean, hsrc, hdst⟩ := hr
  have hstart : ThatcherHas s.toChip s.toChip cl (s.cl cl).store c ((sourceBytes (s.cl cl).store a rs).take 0) :=
    ⟨⟨rfl, hclean, hlist, fun _ _ => rfl⟩, hbuf⟩
  obtain ⟨v, hread, hv⟩ := hsource.thRead (.store d) (Nat.zero_le _) (hsource.few.piecesLeft_lt a) hstart
  obtain ⟨hstore, -, hfinished, hothers⟩ := hdone v hv
  have hrun : s.toChip.thatcherRun cl op = v.thDone cl c (.store d) (sourceBytes (s.cl cl).store a rs) := by
    rw [← hread]
    simp [Chip.thatcherRun, Chip.thGo, hruns, Engine.last, hlist, hop, hsrc, hdst]
  refine ⟨_, hexec.trans (State.run_onUnit (by simp [hcl]) rfl), ?_⟩
  rw [hrun]
  refine ⟨by rw [hstore, Memory.read_write_same], fun k hk => ?_, ?_, hothers⟩
  · rw [hstore, Memory.readByte_write_out _ _ _ _ hk]
  · exact (congrArg (fun l : List Active => l.all (·.finished)) hfinished).trans rfl

section Commands

variable {s : State} {cl a d : Nat} {c : BitVec 512} (hr : ThatcherReady s cl a d c)

include hr

theorem pack_completes (hop : cmdFld c 0 1 = 1) : Completes (.pack cl) s fun t =>
    TileMoved s t cl d (packTile c (sourceBytes (s.cl cl).store a (thRanges c []))).1.stored :=
  hr.completes rfl hop (source_pack hop) fun _ h => h.thDone_pack hop

theorem gather_completes (hop : cmdFld c 0 1 = 3) : Completes (.gather cl) s fun t =>
    TileMoved s t cl d (sourceBytes (s.cl cl).store a (thRanges c [])) :=
  hr.completes rfl hop (source_gather hop) fun _ h => h.thDone_gather hop

theorem unpack_completes {h out : List Byte} (hh : Memory.read (s.cl cl).store a 16 = h) (hop : cmdFld c 0 1 = 2)
    (hbad : tileBad h = false) (hmask : hdrMask h = tMask c) (hsrc : ∀ r ∈ tileRanges h, a + r.1 + r.2 ≤ storeSize)
    (hout : unpackedBytes c h (sourceBytes (s.cl cl).store a (tileRanges h)) = out) (hdst : d + out.length ≤ storeSize) :
    Completes (.unpack cl) s fun t => TileMoved s t cl d out := by
  subst hh hout
  exact hr.completes rfl hop (source_unpack rfl hop hbad hmask hsrc) fun _ h =>
    h.thDone_unpack hop (Memory.length_read _ _ _) hdst

end Commands

end Sys2Proof.Machine
end

section
/-! O24: PREDICT (R224, R226, R228, R229), and the statement. -/

namespace Sys2Proof.Machine

open Sys2Proof

/-! ### A pass that is all read -/

theorem Chip.cl_metered (s : Chip) (t : Nat) (f : Meter → Meter) (k : Nat) : (s.metered t f).cl k = s.cl k := by
  unfold Chip.metered; split <;> rfl

section Pass

variable {s t : Chip} {cl u q : Nat} {m : Mem} {l : List Active}

/-- What leaves the clusters leaves the ring. -/
theorem RingHas.of_cl_eq {v : Chip} (h : RingHas s t cl u q m l) (hv : ∀ k, v.cl k = t.cl k) : RingHas s v cl u q m l := by
  obtain ⟨hstore, hclean, hlist, hothers⟩ := h
  exact ⟨by rw [hv, hstore], by rw [hv, hclean], by rw [hv, hlist], fun k hk => (hv k).trans (hothers k hk)⟩

/-- A count in the page of another unit. -/
theorem RingHas.count_other (h : RingHas s t cl u q m l) (hu : u < 5) {v : Nat} (hv : v < 5) (huv : u ≠ v) (off n : Nat) :
    RingHas s (t.count (unitPage cl v) off n) cl u q m l := by
  obtain ⟨hstore, hclean, hlist, hothers⟩ := h
  rw [Chip.count, Chip.modReg, Chip.modPage_unitPage t hv]
  refine ⟨?_, ?_, ?_, fun k hk => (Chip.cl_modEngine_other t v _ hk).trans (hothers k hk)⟩
  · rw [Chip.modEngine, Chip.cl_modCl, if_pos rfl, ((t.cl cl).modEngine_rest v _).1, hstore]
  · rw [Chip.modEngine, Chip.cl_modCl, if_pos rfl, Cluster.modEngine_storeErr, hclean]
  · rw [Chip.engine_modEngine _ _ _ hv hu, if_neg huv, hlist]

/-- The counts of a pass `r` over `nb` blocks in the cluster, its result `n` bytes long (R228, R229). -/
def Chip.passCounted (s : Chip) (cl n nb : Nat) (r : SkyResult) : Chip :=
  let pg := PageRef.skylight cl
  (((((s.count (.dma cl 0) Off.DMA_BYTES_WRITTEN n).count pg Off.SKY_DOUBT r.doubtful).count pg Off.SKY_LOST r.lost).count
    pg Off.SKY_MADEUP r.made.length).count pg Off.SKY_BLOCKS nb).count pg Off.SKY_CERTAIN r.certain

/-- The counts of a pass for the tint `g` (R228). -/
def Chip.passMetered (s : Chip) (g : Nat) (r : SkyResult) : Chip :=
  let s := s.metered g fun m => { m with
    skyDoubt := m.skyDoubt + r.doubtful, skyLost := m.skyLost + r.lost, skyMadeup := m.skyMadeup + r.made.length }
  let pg := PageRef.gable g
  ((s.count pg Off.GB_SKY_DOUBT r.doubtful).count pg Off.GB_SKY_LOST r.lost).count pg Off.GB_SKY_MADEUP r.made.length

theorem Chip.cl_passMetered (s : Chip) (g : Nat) (r : SkyResult) (k : Nat) : (s.passMetered g r).cl k = s.cl k :=
  s.cl_metered g _ k

theorem RingHas.passCounted (h : RingHas s t cl 4 q m l) (n nb : Nat) (r : SkyResult) :
    RingHas s (t.passCounted cl n nb r) cl 4 q m l := by
  have hu : 4 < 5 := by decide
  exact (((((h.count_other hu (v := 0) (by decide) (by decide) _ _).count hu _ _).count hu _ _).count hu _ _).count hu _
    _).count hu _ _

/-- The pass stores its result and finishes. -/
theorem RingHas.skyDone {a : Active} (h : RingHas s t cl 4 0 m [a]) (ha : a.place = 0) {c : BitVec 512} {buf : List Byte}
    {d : Nat} (hd : locOf false (cmdFld c 40 8) = some (.store d)) {r : SkyResult}
    (hr : skyAllot (kCapA c) (kCapM c) ((skyClassify c buf).map (skyPlaced c buf)) = r) :
    RingHas s (t.skyDone cl c buf) cl 4 0 (Memory.write m d (skyBytes d (kCapA c) (kCapM c) (kNblk c) r))
      [{ a with finished := true }] := by
  generalize hout : skyBytes d (kCapA c) (kCapM c) (kNblk c) r = out
  obtain ⟨v, hwrite, hv⟩ := h.unitWrite 0 d out
  have hcounted := hv.passCounted out.length (kNblk c) r
  have hmetered : RingHas s (if (v.passCounted cl out.length (kNblk c) r).clTint cl = 0 then
        v.passCounted cl out.length (kNblk c) r
      else (v.passCounted cl out.length (kNblk c) r).passMetered ((v.passCounted cl out.length (kNblk c) r).clTint cl) r)
      cl 4 0 (Memory.write m d out) [a] := by
    split
    · exact hcounted
    · exact hcounted.of_cl_eq (Chip.cl_passMetered _ _ _)
  have hdone := hmetered.finish (by decide) 0
  rw [List.map_singleton, if_pos ha] at hdone
  simp only [Chip.skyDone, hr, hd, Loc.addr, hout, hwrite]
  exact hdone

end Pass

/-! ### The command -/

/-- With no NaN bound, every block keeps its place in the order of R224. -/
theorem map_skyPlaced (c : BitVec 512) (buf : List Byte) {bs : List SkyBlock}
    (h : bs.all (fun y => !y.bound.isNan) = true) : bs.map (skyPlaced c buf) = bs := by
  refine (List.map_congr_left fun y hy => ?_).trans bs.map_id
  have hy' : y.bound.isNan = false := by simpa using List.all_eq_true.1 h y hy
  rw [skyPlaced, hy', if_neg Bool.false_ne_true, id]

theorem predict_completes {s : State} {cl d : Nat} {a : Active} (hcl : cl < 4032) (hruns : s.ringRuns cl 4 0 = true)
    (hlist : (s.cl cl).skylight.list 0 = [a]) (hfinished : a.finished = false) (hplace : a.place = 0)
    (hclean : (s.cl cl).storeErr = [])
    (hread : rangeAt ((skyInputs a.cmd).map fun x => (x.1 * 2 ^ 60, x.2)) (s.cl cl).skylight.buf.length = none)
    (hd : locOf false (cmdFld a.cmd 40 8) = some (.store d))
    (hnan : (skyClassify a.cmd (s.cl cl).skylight.buf).all (fun y => !y.bound.isNan) = true) :
    Completes (.predict cl) s fun t => RingHas s.toChip t.toChip cl 4 0
      (Memory.write (s.cl cl).store d (skyBytes d (kCapA a.cmd) (kCapM a.cmd) (kNblk a.cmd)
        (skyAllot (kCapA a.cmd) (kCapM a.cmd) (skyClassify a.cmd (s.cl cl).skylight.buf))))
      [{ a with finished := true }] := by
  have hstart : RingHas s.toChip s.toChip cl 4 0 (s.cl cl).store [a] := ⟨rfl, hclean, hlist, fun _ _ => rfl⟩
  have hdone := hstart.skyDone hplace hd (by rw [map_skyPlaced _ _ hnan])
  have hgo : s.toChip.skyGo cl = s.toChip.skyDone cl a.cmd (s.cl cl).skylight.buf := by
    simp only [Chip.skyGo, Engine.last, hlist, List.getLast?_singleton]
    rw [Chip.skyRead]
    simp only [hread]
  have hexec : execPredict cl s = .next { s with toChip := s.toChip.skyDone cl a.cmd (s.cl cl).skylight.buf } :=
    State.run_onUnit (b := decide (cl < 4032)) (by simp [hcl])
      (by simp only [hruns, Engine.last, hlist, List.getLast?_singleton, hfinished, hgo, Bool.not_true, Bool.false_eq_true,
        if_false])
  exact ⟨_, hexec, hdone⟩

/-! ### The statement -/

/-- Settles O24: the thatcher reads its source piece by piece (`Source.thRead`) and then stores its result line by line
(`RingHas.thWrite`); a pass of the skylight that is all read is stored at once (`RingHas.skyDone`). -/
theorem thatcherAndSkylightResults : Obligations.ThatcherAndSkylightResults := by
  refine ⟨fun s cl a d c hcl hruns hlist hbuf hclean _ ha hd => ?_,
    fun s cl d a hcl hruns hlist hfinished hplace hclean hread hd hnan => ?_⟩
  · have hr : ThatcherReady s cl a d c := ⟨hcl, hruns, hlist, hbuf, hclean, ha, hd⟩
    refine ⟨fun hop => pack_completes hr hop, fun hop => ?_, fun hop => gather_completes hr hop⟩
    exact fun hbad hmask hsrc hdst => unpack_completes hr rfl hop hbad hmask hsrc rfl hdst
  · obtain ⟨t, hexec, hstore, -, hdone, hothers⟩ :=
      predict_completes hcl hruns hlist hfinished hplace hclean hread hd hnan
    intro r out
    refine ⟨t, hexec, by rw [hstore]; exact Memory.read_write_same _ _ _, fun k hk => ?_, hdone, hothers⟩
    rw [hstore, Memory.readByte_write_out _ _ _ _ hk]

end Sys2Proof.Machine
end
